-- ==== Sys2Proof/Word.lean ====
section
/-! DEFINITION. The words of the bus, and a fixed-length table built from a function. -/

namespace Sys2Proof

/-- Data of one bus cycle: every access is one whole word of 16 bits (R1). -/
abbrev Word := BitVec 16

/-- A word address A16 to A0; the space has 131,072 words (01 section 1.1). -/
abbrev Addr := BitVec 17

/-- A fixed-length table whose entry `i` is `f i`. -/
def tabulate {α : Type} {n : Nat} (f : Fin n → α) : Vector α n :=
  ⟨⟨List.ofFn f⟩, by simp⟩

end Sys2Proof
end

