-- ==== Sys2Proof/Syntax.lean ====
section
/-! DEFINITION. The commands: one constructor for each row of spec/opcode_table.json. -/

namespace Sys2Proof

/-- One of the four exchange lines. -/
abbrev LineNo := Fin 4
/-- One of the 16 routes. -/
abbrev RouteNo := Fin 16
/-- One of the 8 destinations. -/
abbrev DestNo := Fin 8
/-- A point 0 to 263; 256 to 263 are the virtual points. -/
abbrev PointNo := Fin 264
/-- A queue slot 0 to 63. -/
abbrev SlotNo := Fin 64

/-- The levels of the seven strap pins at a sampling (R2). -/
structure Straps where
  wsel : BitVec 5
  stall : Bool
  bypass : Bool
deriving DecidableEq, Repr

/-- How select and the strobes stand when the panel addresses the part (R1). -/
inductive Strobes where
  /-- select with one strobe: a cycle -/
  | cycle
  /-- select with both strobes at once: no cycle -/
  | both
  /-- select deasserted: no cycle -/
  | deselected
deriving DecidableEq, Repr

/-- Word w0 or word w1 of a route descriptor. -/
inductive RouteWord where
  | w0
  | w1
deriving DecidableEq, Repr

/-- The two words of the test schedule: 006H and 007H. -/
inductive ScheduleWord where
  | minute
  | interval
deriving DecidableEq, Repr

/-- The commands. A row that is a panel write of a word of its own carries that word's index and the
data of the write; `spare` is bits 15 to 12 of the command word 010H, which no field names. -/
inductive Instr where
  | powerOn (straps : Straps)
  | powerLoss
  | xrstAssert
  | xrstRelease (straps : Straps)
  | panelWrite (strobes : Strobes) (addr : Addr) (data : Word)
  | waitHoldEnd
  | heldCycleAbandoned
  | writeBack
  | writeBackEntryAdmitted
  | logStagingWrite
  | logRecordAdmitted
  | loadRead
  | reloadRead
  | setTimeRead
  | start (tag : BitVec 8) (spare : BitVec 4)
  | stop (tag : BitVec 8) (spare : BitVec 4)
  | abortCalls (tag : BitVec 8) (spare : BitVec 4)
  | reload (tag : BitVec 8) (spare : BitVec 4)
  | adoptBaseline (tag : BitVec 8) (spare : BitVec 4)
  | testCall (tag : BitVec 8) (spare : BitVec 4)
  | setTime (tag : BitVec 8) (spare : BitVec 4)
  | clearTrouble (tag : BitVec 8) (spare : BitVec 4)
  | releaseHeld (tag : BitVec 8) (spare : BitVec 4)
  | restart (tag : BitVec 8) (spare : BitVec 4)
  | unknownCommand (code : BitVec 4) (tag : BitVec 8) (spare : BitVec 4)
  | restartDrainDone
  | causeWordWrite (data : Word)
  | causeEnableWrite (data : Word)
  | heartbeat (data : Word)
  | heartbeatPeriodChange (data : Word)
  | batteryThresholdChange (data : Word)
  | testScheduleChange (which : ScheduleWord) (data : Word)
  | logTailWrite (data : Word)
  | lineEnableChange (line : LineNo) (data : Word)
  | routeDescriptorWrite (route : RouteNo) (which : RouteWord) (data : Word)
  | budgetWrite (route : RouteNo) (data : Word)
  | accessedFlagClear (route : RouteNo) (data : Word)
  | directoryWrite (dest : DestNo) (word : Fin 9) (data : Word)
  | pointEntryWrite (point : Fin 256) (data : Word)
  | pointDisable
  | pointEnable
  | isolate
  | deisolate
  | rescan
  | fifoEntryTaken
  | owedSweepStep
  | conditionChange
  | testRequest
  | deliveryNotice
  | queueNotice
  | retryTimePassed (slot : SlotNo)
  | holdExpiry (slot : SlotNo)
  | decision
  | grantOffer (line : LineNo)
  | preemptionOffer (line : LineNo)
  | joinOffer (line : LineNo)
  | officeSenseChange (line : LineNo) (asserted : Bool)
  | officeUseBegins (line : LineNo)
  | officeUseEnds (line : LineNo)
  | loopSenseChange (line : LineNo) (present : Bool)
  | loopLossExpiry (line : LineNo)
  | presenceTimerExpiry (line : LineNo)
  | farClear (line : LineNo)
  | breakExpiry (line : LineNo)
  | dialTone (line : LineNo)
  | dialToneWaitExpiry (line : LineNo)
  | dialSymbolEnd (line : LineNo)
  | waitSymbolExpiry (line : LineNo)
  | busy (line : LineNo)
  | ready (line : LineNo)
  | ringbackExpiry (line : LineNo)
  | readyToneStopped (line : LineNo)
  | handshakeExpiry (line : LineNo)
  | turnaroundEnd (line : LineNo)
  | burstSendingEnd (line : LineNo)
  | ack (line : LineNo)
  | repeatToken (line : LineNo)
  | windowExpiry (line : LineNo)
  | endSymbolEnd (line : LineNo)
  | releaseGuardEnd (line : LineNo)
  | clockSecond
  | heartbeatExpiry
  | mainsLostChange (asserted : Bool)
  | mainsTimerExpiry
  | troublePulseToggle
  | panelRead (strobes : Strobes) (addr : Addr)
deriving DecidableEq, Repr

end Sys2Proof
end

