-- ==== Sys2Proof/WellFormed.lean ====
section
/-! DEFINITION. Which commands are well formed: every index is in range by its type; what is left to
check is that a command's data is of the row's kind. -/

namespace Sys2Proof

/-- The codes the Notice Unit answers UNKNOWN: 0 and 11 to 15 (R22, R175). -/
def unknownCode (code : BitVec 4) : Bool := code == 0 || 11 ≤ code.toNat

/-- A command is well formed when its operands are those its row is about: UNKNOWN_COMMAND carries a
code that is no command (R175), and ACCESSED_FLAG_CLEAR writes 0 to the flag, bit 0 of w3 (R8). -/
def Instr.wellFormed : Instr → Bool
  | .unknownCommand code _ _ => unknownCode code
  | .accessedFlagClear _ data => !data.getLsbD 0
  | .powerOn _ | .powerLoss | .xrstAssert | .xrstRelease _ | .panelWrite _ _ _ | .waitHoldEnd
  | .heldCycleAbandoned | .writeBack | .writeBackEntryAdmitted | .logStagingWrite
  | .logRecordAdmitted | .loadRead | .reloadRead | .setTimeRead | .start _ _ | .stop _ _
  | .abortCalls _ _ | .reload _ _ | .adoptBaseline _ _ | .testCall _ _ | .setTime _ _
  | .clearTrouble _ _ | .releaseHeld _ _ | .restart _ _ | .restartDrainDone | .causeWordWrite _
  | .causeEnableWrite _ | .heartbeat _ | .heartbeatPeriodChange _ | .batteryThresholdChange _
  | .testScheduleChange _ _ | .logTailWrite _ | .lineEnableChange _ _ | .routeDescriptorWrite _ _ _
  | .budgetWrite _ _ | .directoryWrite _ _ _ | .pointEntryWrite _ _ | .pointDisable | .pointEnable
  | .isolate | .deisolate | .rescan | .fifoEntryTaken | .owedSweepStep | .conditionChange
  | .testRequest | .deliveryNotice | .queueNotice | .retryTimePassed _ | .holdExpiry _ | .decision
  | .grantOffer _ | .preemptionOffer _ | .joinOffer _ | .officeSenseChange _ _ | .officeUseBegins _
  | .officeUseEnds _ | .loopSenseChange _ _ | .loopLossExpiry _ | .presenceTimerExpiry _
  | .farClear _ | .breakExpiry _ | .dialTone _ | .dialToneWaitExpiry _ | .dialSymbolEnd _
  | .waitSymbolExpiry _ | .busy _ | .ready _ | .ringbackExpiry _ | .readyToneStopped _
  | .handshakeExpiry _ | .turnaroundEnd _ | .burstSendingEnd _ | .ack _ | .repeatToken _
  | .windowExpiry _ | .endSymbolEnd _ | .releaseGuardEnd _ | .clockSecond | .heartbeatExpiry
  | .mainsLostChange _ | .mainsTimerExpiry | .troublePulseToggle | .panelRead _ _ => true

end Sys2Proof
end

