-- ==== Sys2Proof/Decode.lean ====
section
/-! DEFINITION. The rows of spec/opcode_table.json that give bits: none does (98_reader.md counts no row
with fixed bits and none with fields), so no word spells a command. -/

namespace Sys2Proof

/-- The command a word of `nbits` bits spells by the table: none, since no row gives bits. -/
def decodeTableWord (_nbits _w : Nat) : Option Instr := none

end Sys2Proof
end

