-- ==== Sys2Proof/Config.lean ====
section
/-! DEFINITION. The fixed numbers of the part: capacities, and every interval of the manual in ms.
No free value is needed: the spec states a result wherever a step goes on. -/

namespace Sys2Proof.Config

/-- Places of the write-back queue (R12). -/
abbrev writeBackPlaces : Nat := 32
/-- Records of the log staging buffer (R14). -/
abbrev stagingPlaces : Nat := 8
/-- Entries of the capture FIFO (R44). -/
abbrev fifoPlaces : Nat := 16
/-- Records of the Report Queue (R63). -/
abbrev queuePlaces : Nat := 64
/-- Reports of one call (R113). -/
abbrev callPlaces : Nat := 4
/-- The largest fold count (R60). -/
abbrev maxFold : Nat := 9
/-- Sends of one report in a call (R147). -/
abbrev maxSends : Nat := 3
/-- Words LOAD reads (R33). -/
abbrev loadReads : Nat := 1472
/-- Words RELOAD reads (R37). -/
abbrev reloadReads : Nat := 927
/-- Words of step 1 of LOAD and of RELOAD, after which the configuration is checked (R34, R37). -/
abbrev checkReads : Nat := 23

/-- Office sense asserted before OFFICE (R105). -/
abbrev officeOnMs : Nat := 200
/-- Office sense released before IDLE (R105). -/
abbrev officeOffMs : Nat := 500
/-- Battery absent before the loop-loss timer expires (R107). -/
abbrev loopLossMs : Nat := 10000
/-- Battery present before a line leaves FAULT (R109). -/
abbrev presenceMs : Nat := 10000
/-- Loss of loop current that ends a call FAR_CLEAR (R110). -/
abbrev farClearMs : Nat := 300
/-- Break from IDLE (R114). -/
abbrev shortBreakMs : Nat := 500
/-- Break from OFFICE or after a preemption (R114, R122). -/
abbrev longBreakMs : Nat := 2000
/-- Dial tone wait (R116). -/
abbrev dialToneWaitMs : Nat := 5000
/-- The dual tone of a symbol while dialling, and the silence that follows it (R99). -/
abbrev dialToneMs : Nat := 80
abbrev dialSilenceMs : Nat := 80
/-- A tone symbol with its silence while dialling (R99). -/
abbrev toneSymbolMs : Nat := dialToneMs + dialSilenceMs
/-- A PAUSE symbol (R99). -/
abbrev pauseSymbolMs : Nat := 2000
/-- The wait of a WAIT symbol (R99, R117). -/
abbrev waitSymbolMs : Nat := 5000
/-- Ringback wait (R117). -/
abbrev ringbackMs : Nat := 45000
/-- Release guard (R121). -/
abbrev guardMs : Nat := 2000
/-- READY tone without stopping before the Burst Engine gives up (R143). -/
abbrev handshakeMs : Nat := 2000
/-- Silence by which the READY tone is judged stopped (R143). -/
abbrev readyStopMs : Nat := 50
/-- Turnaround (R144). -/
abbrev turnaroundMs : Nat := 100
/-- The dual tone of a symbol of a sending, and the silence that follows it (R139). -/
abbrev burstToneMs : Nat := 50
abbrev burstSilenceMs : Nat := 50
/-- One symbol of a sending (R139). -/
abbrev burstSymbolMs : Nat := burstToneMs + burstSilenceMs
/-- The answer window (R145). -/
abbrev windowMs : Nat := 2000
/-- One second. -/
abbrev secondMs : Nat := 1000
/-- Disagreement of MAINS LOST with the mains condition before it changes (R162). -/
abbrev mainsMs : Nat := 60000
/-- Half of the pulse cycle of TROUBLE (R167). -/
abbrev pulseMs : Nat := 1000

end Sys2Proof.Config
end

