-- ==== Sys2Proof/Machine/State.lean ====
section
/-! DEFINITION. The state of the part, of the status RAM behind it and of the queue of commands; the
state after reset. -/

namespace Sys2Proof.Machine

/-- The status RAM: the words that differ from what an unlisted word reads as, by rising word address.
The hardware addresses whole words of 16 bits (R1), so a cell is a word (log 2). -/
abbrev Memory := List (Nat × Word)

/-- What the part as a whole is doing. The last four are the communicator states (02 section 2.4);
the communicator has no state without power, under XRST or in BYPASS (R18, R19). -/
inductive Mode where
  | off
  | xrst
  | bypass
  | loading
  | unconfigured
  | stopped
  | running
deriving DecidableEq, Repr

/-! ### Bus Path -/

/-- The blocks that enter addresses in the write-back queue (01 section 1.6). -/
inductive Owner where
  | noticeUnit
  | windowMirrors
  | lineEngines
  | reportQueue
  | timeBase
  | pointEngine
  | routeBlock
deriving DecidableEq, Repr

/-- An owner waiting for a place in the write-back queue (R12): when it began to wait, the window offset
it waits with, and the offsets it will enter after that one. -/
structure Waiter where
  owner : Owner
  ticket : Nat
  first : Nat
  later : List Nat
deriving DecidableEq, Repr

/-- The kinds of completion log record, in the order of their codes (02 section 2.2). -/
inductive LogKind where
  | delivered
  | callFailed
  | exhausted
  | preempted
  | aborted
  | withdrawn
  | evicted
  | refused
  | lineFault
  | lineRestored
  | overrun
  | loaded
  | command
deriving DecidableEq, Repr

/-- The leg of a record's route (R60). -/
inductive Leg where
  | primary
  | backup
deriving DecidableEq, Repr

/-- The fields of a completion log record (02 section 2.2, Completion log). -/
structure LogRecord where
  kind : LogKind
  line : BitVec 2 := 0
  dest : BitVec 3 := 0
  sense : BitVec 2 := 0
  reason : BitVec 3 := 0
  leg : Leg := .primary
  point : BitVec 9 := 0
  second : BitVec 6 := 0
  code : BitVec 10 := 0
  fold : BitVec 4 := 0
  attempts : BitVec 4 := 0
  minute : BitVec 11 := 0
deriving DecidableEq, Repr

/-- A log record with the slot the Notice Unit gave it (R14). -/
structure Staged where
  slot : Fin 32
  record : LogRecord
deriving DecidableEq, Repr

/-- An upstream cycle (R1). -/
inductive Cycle where
  | read (addr : Addr)
  | write (addr : Addr) (data : Word)
deriving DecidableEq, Repr

/-- An upstream cycle held with WAIT. The entries it waits for (R15) are those that began to wait before
`before`; `stalled` is set while it waits for a place in the capture FIFO (R16), and says when it began. -/
structure Hold where
  cycle : Cycle
  before : Nat
  stalled : Option Nat
deriving DecidableEq, Repr

/-- The result statuses, in the order of their codes (02 section 2.2, 012H). -/
inductive ResultStatus where
  | inProgress
  | done
  | refusedBusy
  | refusedState
  | badArgument
  | unknown
  | restarted
deriving DecidableEq, Repr

/-- A command, as it is in progress or answered (10). -/
structure Command where
  code : BitVec 4
  tag : BitVec 8
deriving DecidableEq, Repr

/-- A RESTART on its way to the reset (R20). `finishing`: those of 012H and 013H whose entries its final result still waits
for; the tickets below which waiting log records are not younger than its COMMAND record; the results of commands refused
meanwhile, which the Notice Unit writes when it has finished (R178). `draining`: how many staged records and which
addresses are still to be written; whether a refused command has raised COMMAND since the drain began. -/
inductive Drain where
  | finishing (entries : List Nat) (before : Nat) (later : List (Command × ResultStatus))
  | draining (records : Nat) (offsets : List Nat) (raised : Bool)
deriving DecidableEq, Repr

/-- The Bus Path (01). `tickets` counts the waits begun, so that waits have an order (log 19). -/
structure Bus where
  wbq : List Nat
  wbWait : List Waiter
  staging : List Staged
  stagePos : Nat
  logWait : List (Nat × Staged)
  tickets : Nat
  hold : Option Hold
  drain : Option Drain
deriving DecidableEq, Repr

/-! ### Window Mirrors -/

/-- The kinds of LOAD, in the order of their codes in a LOADED record (R172). -/
inductive LoadKind where
  | powerOn
  | xrst
  | restart
  | reload
deriving DecidableEq, Repr

/-- A LOAD in progress: its kind and how many words it has read. -/
structure Load where
  kind : LoadKind
  next : Nat
deriving DecidableEq, Repr

/-- One entry of the capture FIFO (R44). -/
structure Capture where
  point : PointNo
  code : BitVec 6
deriving DecidableEq, Repr

/-- A capture of RELOAD that waits for a place in the FIFO, and when it began to (R37, R44). -/
structure WaitingCapture where
  since : Nat
  capture : Capture
deriving DecidableEq, Repr

/-- A RELOAD in progress: how many words it has taken, and the capture of its last read while that waits (R37, R44). -/
structure Reload where
  next : Nat
  waiting : Option WaitingCapture
deriving DecidableEq, Repr

/-- The Window Mirrors (02 section 2.3): the mirror of each panel-owned word by window offset, held in the
form of Memory; the validity of each directory entry; LOAD and RELOAD; the words SET TIME has read in
UNCONFIGURED (R155). -/
structure Mirrors where
  words : Memory
  valid : Vector Bool 8
  load : Option Load
  reload : Option Reload
  timeReads : Option (List Word)
deriving DecidableEq, Repr

/-! ### Point Engine -/

/-- Intended (R39). The sense is 0 NONE, 1 ACTIVE or 2 NORMAL, as in the window. -/
structure Intended where
  sense : BitVec 2
  code : BitVec 10
  priority : Fin 8
  route : RouteNo
  unrouted : Bool
deriving DecidableEq, Repr

/-- Delivered (R39), as the window words hold it. -/
structure Delivered where
  sense : BitVec 2
  fold : BitVec 4
  code : BitVec 10
deriving DecidableEq, Repr

/-- The stored parts of one point shadow entry (R39). -/
structure Shadow where
  processed : BitVec 6
  intended : Intended
  delivered : Delivered
  isolated : Bool
  owed : Bool
  status : BitVec 3
deriving DecidableEq, Repr

/-- What a group write asks of each selected point (R24). -/
inductive GroupAction where
  | isolate
  | deisolate
  | rescan
deriving DecidableEq, Repr

/-- What the Report Queue tells the Point Engine of (R51); `merged` is the change of R81. -/
inductive NoticeKind where
  | withdrawal
  | eviction
  | exhaustion
  | returned
  | assignment
  | release
  | merged
deriving DecidableEq, Repr

/-- A piece of Point Engine work that waits to be taken (03 section 3.3). A delivery carries its addresses that did not fit in
the write-back queue, of the occupancy word and of its route's: they enter after the point's own (R12, R77, log 11). -/
inductive Work where
  | disable (point : PointNo)
  | enable (point : PointNo)
  | group (action : GroupAction) (points : List PointNo)
  | condition (point : PointNo) (active : Bool)
  | test (route : RouteNo) (command : Bool)
  | delivery (point : PointNo) (sense : BitVec 2) (code : BitVec 10) (fold : BitVec 4) (words : List Nat)
  | notice (kind : NoticeKind) (point : PointNo)
  | adopt
  | clearTrouble
deriving DecidableEq, Repr

/-- A part of a piece of work that is done point by point, so that it can wait for a place in the
write-back queue (03 section 3.3). -/
inductive PointOp where
  | group (action : GroupAction) (point : PointNo)
  | drainFifo
  | baseline (point : PointNo)
  | clearLatch
  | commandDone
deriving DecidableEq, Repr

/-- The Point Engine (03). -/
structure Points where
  shadows : Vector Shadow 264
  fifo : List Capture
  overrun : Bool
  latch : Bool
  sweepPos : Nat
  work : List Work
  todo : List PointOp
deriving DecidableEq, Repr

/-! ### Report Queue -/

/-- The sense of a report (R60). -/
inductive Sense where
  | active
  | normal
  | test
deriving DecidableEq, Repr

/-- The state of a report record (R61). -/
inductive RecordState where
  | waiting
  | assigned
  | sending
  | held
deriving DecidableEq, Repr

/-- A time of day: day, minute of day, second. -/
structure Stamp where
  day : BitVec 16
  minute : Nat
  second : Nat
deriving DecidableEq, Repr

/-- The call a record is in and its position there (R76). -/
structure CallPlace where
  line : LineNo
  position : Nat
deriving DecidableEq, Repr

/-- A report record (R60). `id` is the model's own admission number (log 19). -/
structure Record where
  id : Nat
  slot : SlotNo
  point : PointNo
  sense : Sense
  code : BitVec 10
  priority : Fin 8
  route : RouteNo
  unrouted : Bool
  fold : Nat
  state : RecordState
  leg : Leg
  attempts : Nat
  cycles : Nat
  retry : Option Nat
  holdUntil : Option Nat
  created : Stamp
  call : Option CallPlace
deriving DecidableEq, Repr

/-- The Report Queue (04): its records in admission order, and the queue clock (R82). -/
structure Queue where
  records : List Record
  clock : Nat
  clockMs : Nat
  nextId : Nat
deriving DecidableEq, Repr

/-- The four values of one route (R86). `clearKept` and `w3AtEnd` are the marks of R96: the spent flag is
to be taken as clear when w3 is read, and w3 is to be entered at the end of LOAD. -/
structure Route where
  budget : Nat
  spent : Bool
  accessed : Bool
  lastLeg : Leg
  clearKept : Bool
  w3AtEnd : Bool
deriving DecidableEq, Repr

/-! ### Line Engines -/

/-- The ten line states, in the order of their codes (06 section 6.1). -/
inductive LineState where
  | disabled
  | idle
  | office
  | fault
  | breaking
  | dialtone
  | dialing
  | ringback
  | linked
  | release
deriving DecidableEq, Repr

/-- A dial symbol (02 section 2.2, Destination directory). -/
inductive DialSymbol where
  | digit (d : Fin 10)
  | star
  | hash
  | pause
  | wait
deriving DecidableEq, Repr

/-- The phase of a Burst Engine (R142). -/
inductive Phase where
  | none
  | handshake
  | turnaround
  | sending
  | window
  | ending
deriving DecidableEq, Repr

/-- A call context (R113) with its Burst Engine's progress (R142). `symbols` is the sending in progress
(R140, R148). -/
structure Call where
  dest : DestNo
  account : List Nat
  dial : List DialSymbol
  dialPos : Nat
  reports : List SlotNo
  priority : Fin 8
  mark : Nat
  endMark : Bool
  phase : Phase
  current : Option SlotNo
  sequence : Nat
  sends : Nat
  delivered : Nat
  symbols : List Nat
deriving DecidableEq, Repr

/-- The measurement of bursts in the 2,240 to 2,360 Hz band (R111), lengths in ms. -/
inductive BurstMeasure where
  | quiet
  | first (length : Nat)
  | gap (length : Nat) (silence : Nat) (tone : Nat)
  | second (length : Nat) (tone : Nat)
  | over
deriving DecidableEq, Repr

/-- The measurements of one line's tone detector (R111), lengths in ms. -/
structure Detector where
  lowTone : Nat
  lowSilence : Nat
  onPeriods : Nat
  readyTone : Nat
  readySilence : Nat
  burst : BurstMeasure
deriving DecidableEq, Repr

/-- A Line Engine (R102) with its inputs. Timers that measure hold the ms measured; `timer` holds the ms
left of the interval in progress; `none` is a stopped timer. `farEnd` is what the far end puts on the
line pair: frequency in Hz (0 is silence) and length in ms, the head being on the line now. -/
structure Line where
  state : LineState
  takenEnable : Bool
  disablePending : Bool
  officeSense : Bool
  loopSense : Bool
  debounce : Option Nat
  loopLoss : Option Nat
  lossExpired : Bool
  currentLoss : Option Nat
  presence : Option Nat
  timer : Option Nat
  call : Option Call
  farEnd : List (Nat × Nat)
  detector : Detector
deriving DecidableEq, Repr

/-! ### Line Arbiter -/

/-- The kinds of offer (R124). -/
inductive OfferKind where
  | idleGrant
  | bargeGrant
  | preemption
  | join
deriving DecidableEq, Repr

/-- An offer in flight (R124); its records are named by admission number (log 19). -/
structure Offer where
  kind : OfferKind
  records : List Nat
  dest : DestNo
  priority : Fin 8
deriving DecidableEq, Repr

/-- The Line Arbiter (R124); `formations` counts the calls formed, for the formation marks (R113). -/
structure Arbiter where
  decisionPending : Bool
  offers : Vector (Option Offer) 4
  formations : Nat
deriving DecidableEq, Repr

/-! ### Time Base, Heartbeat Monitor, Notice Unit -/

/-- The Time Base (R154, R156) and its mains supervision (R162). -/
structure TimeBase where
  day : BitVec 16
  minute : Nat
  second : Nat
  elapsedMs : Nat
  nextTest : Option (BitVec 16)
  mainsLost : Bool
  mainsActive : Bool
  mainsTimer : Option Nat
deriving DecidableEq, Repr

/-- The Heartbeat Monitor (R159): the timer, in ms, and the panel silent condition. -/
structure Heartbeat where
  timer : Option Nat
  silent : Bool
deriving DecidableEq, Repr

/-- The trouble patterns, in the order of their codes (02 section 2.2, 017H). -/
inductive TroublePattern where
  | off
  | pulsed
  | steady
deriving DecidableEq, Repr

/-- The allocation head and the shown head (10). -/
structure Heads where
  alloc : Fin 32
  shown : Fin 32
deriving DecidableEq, Repr

/-- The Notice Unit (10). The cause enable is the mirror of 014H. `pulseOn` and `pulseMs` are the level and
the ms of the pulse cycle of TROUBLE (R167). -/
structure Notice where
  heads : Option Heads
  causes : BitVec 10
  inProgress : Option Command
  resultTag : BitVec 8
  resultStatus : ResultStatus
  trouble : TroublePattern
  pulseOn : Bool
  pulseMs : Nat
deriving DecidableEq, Repr

/-- The part: its blocks (00_scope.md, Block diagram). -/
structure Part where
  mode : Mode
  straps : Straps
  bus : Bus
  mirrors : Mirrors
  points : Points
  queue : Queue
  routes : Vector Route 16
  lines : Vector Line 4
  arbiter : Arbiter
  time : TimeBase
  heartbeat : Heartbeat
  notice : Notice
deriving DecidableEq, Repr

/-- The machine: status RAM, the data the part drove upstream at the last panel read, the part, and the
commands that wait, first in first out. -/
structure State where
  mem : Memory
  upData : Option Word
  part : Part
  pending : List Instr
deriving DecidableEq, Repr

/-- Reasons to stop with a fault: none. The spec gives every step a result that the part goes on from. -/
inductive Fault where
deriving DecidableEq, Repr

/-- Reasons to refuse a command. -/
inductive Refusal where
  /-- Raised by exec for a command whose meaning is not written yet; safe, since no claim is then made
  about it. No arm answers with it. -/
  | notModelled (mnemonic : String)
deriving DecidableEq, Repr

/-! ### The values after reset -/

/-- A shadow entry that holds nothing (R42, log 27). -/
def Shadow.empty : Shadow where
  processed := 0
  intended := { sense := 0, code := 0, priority := 0, route := 0, unrouted := false }
  delivered := { sense := 0, fold := 0, code := 0 }
  isolated := false
  owed := false
  status := 0

/-- A Point Engine with nothing in it (R42). -/
def Points.empty : Points where
  shadows := Vector.replicate 264 Shadow.empty
  fifo := []
  overrun := false
  latch := false
  sweepPos := 0
  work := []
  todo := []

/-- A route whose values are unknown (R86, log 27). -/
def Route.empty : Route where
  budget := 0
  spent := false
  accessed := false
  lastLeg := .primary
  clearKept := false
  w3AtEnd := false

/-- A tone detector with no measurement in progress (R111). -/
def Detector.empty : Detector where
  lowTone := 0
  lowSilence := 0
  onPeriods := 0
  readyTone := 0
  readySilence := 0
  burst := .quiet

/-- A line that has started after a reset with its handset on-hook and battery present (R103, log 3). -/
def Line.atReset : Line where
  state := .idle
  takenEnable := true
  disablePending := false
  officeSense := false
  loopSense := true
  debounce := none
  loopLoss := none
  lossExpired := false
  currentLoss := none
  presence := none
  timer := none
  call := none
  farEnd := []
  detector := Detector.empty

/-- An empty Bus Path (R12, R14). -/
def Bus.empty : Bus where
  wbq := []
  wbWait := []
  staging := []
  stagePos := 0
  logWait := []
  tickets := 0
  hold := none
  drain := none

/-- Discarded mirrors (R27). -/
def Mirrors.empty : Mirrors where
  words := []
  valid := Vector.replicate 8 false
  load := none
  reload := none
  timeReads := none

/-- The straps left to their internal pull-downs (01 section 1.10, log 4). -/
def strapsPulledDown : Straps where
  wsel := 0
  stall := false
  bypass := false

/-- The part right after POWER_ON with the straps at their pull-downs (R18, log 4): LOADING, its first read
not yet made, the status word, the line state word and the command result waiting to be written back. -/
def Part.atReset : Part where
  mode := .loading
  straps := strapsPulledDown
  bus := { Bus.empty with wbq := [0x017, 0x018, 0x012] }
  mirrors := { Mirrors.empty with load := some { kind := .powerOn, next := 0 } }
  points := Points.empty
  queue := { records := [], clock := 0, clockMs := 0, nextId := 0 }
  routes := Vector.replicate 16 Route.empty
  lines := Vector.replicate 4 Line.atReset
  arbiter := { decisionPending := false, offers := Vector.replicate 4 none, formations := 0 }
  time :=
    { day := 0, minute := 0, second := 0, elapsedMs := 0, nextTest := none, mainsLost := false,
      mainsActive := false, mainsTimer := none }
  heartbeat := { timer := none, silent := false }
  notice :=
    { heads := none, causes := 0, inProgress := none, resultTag := 0, resultStatus := .inProgress,
      trouble := .off, pulseOn := false, pulseMs := 0 }

/-- The machine right after reset: nothing listed in memory, no read cycle made, no command waiting. -/
def State.reset : State where
  mem := []
  upData := none
  part := Part.atReset
  pending := []

end Sys2Proof.Machine
end

