-- ==== Sys2Proof/Machine/Operands.lean ====
section
/-! DEFINITION. The status window: where its words lie, what their fields are, and the value each field is
taken as (02 section 2.2, R21). -/

namespace Sys2Proof.Machine

/-! ### Reading a sparse word store -/

/-- What a word that is not listed reads as (log 1). -/
def Memory.unlisted : Word := 0

/-- The word at a word address. -/
def Memory.read : Memory → Nat → Word
  | [], _ => Memory.unlisted
  | (b, w) :: m, a => if b = a then w else if a < b then Memory.unlisted else Memory.read m a

/-! ### The kinds of window word -/

/-- A word of the status window by its meaning (02 section 2.1, 2.2). Words w9 to w15 of a directory entry,
word w3 of a point entry and the gaps between the tables are ordinary memory. -/
inductive WindowWord where
  | config (n : Fin 32)
  | group (g : Fin 16)
  | virtual (v : Fin 8) (w : Fin 4)
  | route (r : RouteNo) (w : Fin 4)
  | directory (d : DestNo) (w : Fin 9)
  | log (k : Fin 32) (w : Fin 4)
  | translation (i : Fin 256) (w : Fin 2)
  | point (p : Fin 256) (w : Fin 3)
  | ordinary
deriving DecidableEq, Repr

/-- The meaning of the word at a window offset (02 section 2.1). -/
def windowWord (off : Nat) : WindowWord :=
  if off < 0x020 then .config (Fin.ofNat 32 off)
  else if off < 0x040 then .ordinary
  else if off < 0x050 then .group (Fin.ofNat 16 (off - 0x040))
  else if off < 0x070 then .virtual (Fin.ofNat 8 ((off - 0x050) / 4)) (Fin.ofNat 4 (off % 4))
  else if off < 0x0B0 then .route (Fin.ofNat 16 ((off - 0x070) / 4)) (Fin.ofNat 4 (off % 4))
  else if off < 0x130 then
    if off % 16 < 9 then .directory (Fin.ofNat 8 ((off - 0x0B0) / 16)) (Fin.ofNat 9 (off % 16)) else .ordinary
  else if off < 0x200 then .ordinary
  else if off < 0x280 then .log (Fin.ofNat 32 ((off - 0x200) / 4)) (Fin.ofNat 4 (off % 4))
  else if off < 0x400 then .ordinary
  else if off < 0x600 then .translation (Fin.ofNat 256 ((off - 0x400) / 2)) (Fin.ofNat 2 (off % 2))
  else if off < 0x800 then .ordinary
  else if off < 0xC00 then
    if off % 4 < 3 then .point (Fin.ofNat 256 ((off - 0x800) / 4)) (Fin.ofNat 3 (off % 4)) else .ordinary
  else .ordinary

/-- Offset of word `w` of the record of virtual point 256+v. -/
def virtualOffset (v w : Nat) : Nat := 0x050 + 4 * v + w
/-- Offset of word `w` of the descriptor of route r. -/
def routeOffset (r w : Nat) : Nat := 0x070 + 4 * r + w
/-- Offset of word `w` of directory entry d. -/
def directoryOffset (d w : Nat) : Nat := 0x0B0 + 16 * d + w
/-- Offset of word `w` of log slot k. -/
def logOffset (k w : Nat) : Nat := 0x200 + 4 * k + w
/-- Offset of word `w` of the translation entry for class c and state code s. -/
def translationOffset (c s w : Nat) : Nat := 0x400 + 2 * (64 * c + s) + w
/-- Offset of word `w` of the entry of point p. -/
def pointOffset (p w : Nat) : Nat := 0x800 + 4 * p + w

/-- The window base of sampled straps (R2). -/
def windowBase (s : Straps) : Nat := s.wsel.toNat * 4096

/-- The window offset of a word address that lies in the status window (R3). -/
def windowOffset (s : Straps) (a : Nat) : Option Nat :=
  if windowBase s ≤ a ∧ a < windowBase s + 4096 then some (a - windowBase s) else none

/-! ### Fields of a word -/

/-- Bits lo+len-1 to lo of a word, as a number. -/
def field (w : Word) (lo len : Nat) : Nat := (w.extractLsb' lo len).toNat

/-- Bit i of a word. -/
def bit (w : Word) (i : Nat) : Bool := w.getLsbD i

/-- An event code field, bits 9 to 0: 1000 to 1023 taken as 999 (R21). -/
def codeField (w : Word) : BitVec 10 := if 999 < field w 0 10 then 999 else w.extractLsb' 0 10

/-- A route or destination budget field: 1000 to 1023 taken as 999 (R21). -/
def budgetField (w : Word) : Nat := min 999 (field w 0 10)

/-! ### Mirrors -/

/-- The bits of a window word its mirror keeps: the whole of a panel-owned word, the notify fields of w2 of
a route (R86), nothing of the other words with a part-owned field (log 14), nothing of the group words
(02 section 2.2). -/
def mirrorMask (off : Nat) : Word :=
  match windowWord off with
  | .config n => if n.val ∈ [0x12, 0x13, 0x15, 0x17, 0x18, 0x19, 0x1A, 0x1B, 0x1C] then 0 else 0xFFFF
  | .group _ => 0
  | .virtual _ w => if w.val < 2 then 0xFFFF else 0
  | .route _ w => if w.val < 2 then 0xFFFF else if w.val = 2 then 0xC000 else 0
  | .directory _ _ => 0xFFFF
  | .log _ _ => 0
  | .translation _ _ => 0xFFFF
  | .point _ w => if w.val = 0 then 0xFFFF else 0
  | .ordinary => 0

/-- The mirror of the word at a window offset. -/
def Part.mirror (p : Part) (off : Nat) : Word := p.mirrors.words.read off

/-! ### Configuration block -/

/-- Start-on-load, 002H. -/
def Part.startOnLoad (p : Part) : Bool := bit (p.mirror 0x002) 0

/-- Group action, 002H: 3 is no action (R24). -/
def Part.groupAction (p : Part) : Option GroupAction :=
  match field (p.mirror 0x002) 1 2 with
  | 0 => some .isolate
  | 1 => some .deisolate
  | 2 => some .rescan
  | _ => none

/-- The isolation lock of a class, 002H. -/
def Part.classLocked (p : Part) (c : Nat) : Bool := bit (p.mirror 0x002) (4 + c)

/-- The heartbeat period in s of a word 004H: 0 is off, 1 taken as 2 (R21, R159). -/
def heartbeatPeriod (w : Word) : Nat := let v := field w 0 8; if v = 1 then 2 else v

/-- The heartbeat period mirror. -/
def Part.heartbeatPeriod (p : Part) : Nat := Machine.heartbeatPeriod (p.mirror 0x004)

/-- The battery threshold priority, 005H. -/
def Part.batteryThreshold (p : Part) : Nat := field (p.mirror 0x005) 0 3

/-- The test minute of day of a word 006H: 1440 to 2047 taken as 0 (R21). -/
def testMinute (w : Word) : Nat := let v := field w 0 11; if 1439 < v then 0 else v

/-- The test interval of a word 007H: 8 to 15 taken as 7 (R21). -/
def testInterval (w : Word) : Nat := min 7 (field w 0 4)

/-- Line n enabled, in a word 008H+n. -/
def lineEnabledField (w : Word) : Bool := bit w 0

/-- Line n enabled, from its mirror. -/
def Part.lineEnabled (p : Part) (n : LineNo) : Bool := lineEnabledField (p.mirror (0x008 + n.val))

/-- The barge threshold of line n: 8 to 15 is NONE (R21). -/
def Part.bargeThreshold (p : Part) (n : LineNo) : Option Nat :=
  let v := field (p.mirror (0x008 + n.val)) 1 4; if v < 8 then some v else none

/-- Blind dial allowed on line n. -/
def Part.blindDial (p : Part) (n : LineNo) : Bool := bit (p.mirror (0x008 + n.val)) 5

/-- The cause enable, 014H. -/
def Part.causeEnable (p : Part) : BitVec 10 := (p.mirror 0x014).extractLsb' 0 10

/-- The log tail, 016H: 32 to 255 taken as 0 (R21). -/
def Part.logTail (p : Part) : Nat := let v := field (p.mirror 0x016) 0 8; if v < 32 then v else 0

/-! ### Virtual point records -/

/-- The virtual record number of a point 256 to 263. -/
def virtualNo (i : PointNo) : Nat := i.val - 256

/-- A real point, 0 to 255, or a virtual one. -/
def isReal (i : PointNo) : Bool := i.val < 256

/-- Virtual record enabled, priority, route and event code. -/
def Part.virtualEnabled (p : Part) (v : Nat) : Bool := bit (p.mirror (virtualOffset v 0)) 0
def Part.virtualPriority (p : Part) (v : Nat) : Fin 8 := Fin.ofNat 8 (field (p.mirror (virtualOffset v 0)) 1 3)
def Part.virtualRoute (p : Part) (v : Nat) : RouteNo := Fin.ofNat 16 (field (p.mirror (virtualOffset v 0)) 4 4)
def Part.virtualCode (p : Part) (v : Nat) : BitVec 10 := codeField (p.mirror (virtualOffset v 1))

/-! ### Route descriptors -/

def Part.routeEnabled (p : Part) (r : RouteNo) : Bool := bit (p.mirror (routeOffset r.val 0)) 0
def Part.primaryDest (p : Part) (r : RouteNo) : DestNo := Fin.ofNat 8 (field (p.mirror (routeOffset r.val 0)) 1 3)

/-- The backup destination: 8 to 15 is NONE (R21). -/
def Part.backupDest (p : Part) (r : RouteNo) : Option DestNo :=
  let v := field (p.mirror (routeOffset r.val 0)) 4 4; if v < 8 then some (Fin.ofNat 8 v) else none

/-- The leg limit: 0 taken as 1 (R21). -/
def Part.legLimit (p : Part) (r : RouteNo) : Nat := max 1 (field (p.mirror (routeOffset r.val 0)) 8 3)

/-- The cycle limit: 0 taken as 1, 5 to 7 taken as 4 (R21). -/
def Part.cycleLimit (p : Part) (r : RouteNo) : Nat :=
  min 4 (max 1 (field (p.mirror (routeOffset r.val 0)) 11 3))

def Part.stickyLeg (p : Part) (r : RouteNo) : Bool := bit (p.mirror (routeOffset r.val 0)) 14
def Part.budgetHold (p : Part) (r : RouteNo) : Bool := bit (p.mirror (routeOffset r.val 0)) 15

/-- The retry delay in s. -/
def Part.retryDelay (p : Part) (r : RouteNo) : Nat := field (p.mirror (routeOffset r.val 1)) 0 8

/-- The hold interval in min: 0 taken as 1 (R21). -/
def Part.holdInterval (p : Part) (r : RouteNo) : Nat := max 1 (field (p.mirror (routeOffset r.val 1)) 8 8)

def Part.notifyDelivery (p : Part) (r : RouteNo) : Bool := bit (p.mirror (routeOffset r.val 2)) 14
def Part.notifyBudget (p : Part) (r : RouteNo) : Bool := bit (p.mirror (routeOffset r.val 2)) 15

/-! ### Destination directory -/

def Part.destEnabled (p : Part) (d : DestNo) : Bool := bit (p.mirror (directoryOffset d.val 0)) 0
def Part.destAllows (p : Part) (d : DestNo) (n : LineNo) : Bool := bit (p.mirror (directoryOffset d.val 0)) (n.val + 1)
def Part.dialLength (p : Part) (d : DestNo) : Nat := field (p.mirror (directoryOffset d.val 0)) 5 5

/-- The six account digits, digit 1 first. -/
def Part.account (p : Part) (d : DestNo) : List Nat :=
  let w1 := p.mirror (directoryOffset d.val 1)
  let w2 := p.mirror (directoryOffset d.val 2)
  [field w1 12 4, field w1 8 4, field w1 4 4, field w1 0 4, field w2 12 4, field w2 8 4]

/-- Dial symbol slot 1 to 24, counted from 0: four slots a word from w3, bits 15 to 12 first. -/
def Part.dialSlot (p : Part) (d : DestNo) (i : Nat) : Nat :=
  field (p.mirror (directoryOffset d.val (3 + i / 4))) (12 - 4 * (i % 4)) 4

/-- The codes of the slots within the dial length. -/
def Part.dialCodes (p : Part) (d : DestNo) : List Nat :=
  (List.range (min 24 (p.dialLength d))).map (p.dialSlot d)

/-- The symbol of a slot code; 14 and 15 are not symbols. -/
def dialSymbol (c : Nat) : Option DialSymbol :=
  if h : c < 10 then some (.digit ⟨c, h⟩)
  else if c = 10 then some .star
  else if c = 11 then some .hash
  else if c = 12 then some .pause
  else if c = 13 then some .wait
  else none

/-- A directory entry's contents are valid (R25): its dial length, its account digits and its slots. -/
def Part.entryValid (p : Part) (d : DestNo) : Bool :=
  decide (p.dialLength d ≤ 24) && (p.account d).all (· ≤ 9) && (p.dialCodes d).all (· ≤ 13)

/-! ### Translation table and point table -/

/-- The sense of the translation entry: 0 IGNORE, 1 ACTIVE, 2 NORMAL, 3 taken as IGNORE (R21). -/
def Part.transSense (p : Part) (c s : Nat) : BitVec 2 :=
  let v := (p.mirror (translationOffset c s 0)).extractLsb' 0 2; if v = 3 then 0 else v
def Part.transPriority (p : Part) (c s : Nat) : Fin 8 := Fin.ofNat 8 (field (p.mirror (translationOffset c s 0)) 2 3)
def Part.transRoute (p : Part) (c s : Nat) : RouteNo := Fin.ofNat 16 (field (p.mirror (translationOffset c s 0)) 5 4)
def Part.transCode (p : Part) (c s : Nat) : BitVec 10 := codeField (p.mirror (translationOffset c s 1))

/-- State code, class and enabled field of a word w0 of a point entry. -/
def stateCodeField (w : Word) : BitVec 6 := w.extractLsb' 0 6
def classField (w : Word) : Nat := field w 6 2
def enabledField (w : Word) : Bool := bit w 8

def Part.stateCode (p : Part) (i : PointNo) : BitVec 6 := stateCodeField (p.mirror (pointOffset i.val 0))
def Part.pointClass (p : Part) (i : PointNo) : Nat := classField (p.mirror (pointOffset i.val 0))

/-- Enabled: the field of the point entry, or of the virtual record (R39). -/
def Part.pointEnabled (p : Part) (i : PointNo) : Bool :=
  if isReal i then enabledField (p.mirror (pointOffset i.val 0)) else p.virtualEnabled (virtualNo i)

/-! ### The order of LOAD and of RELOAD -/

/-- The offset of the word LOAD reads when it has read `i` words (R33). -/
def loadOffset (i : Nat) : Nat :=
  if i < 18 then i
  else if i = 18 then 0x014
  else if i = 19 then 0x016
  else if i < 23 then 0x01D + (i - 20)
  else if i < 55 then 0x050 + (i - 23)
  else if i < 119 then 0x070 + (i - 55)
  else if i < 191 then directoryOffset ((i - 119) / 9) ((i - 119) % 9)
  else if i < 703 then 0x400 + (i - 191)
  else if i < 1471 then pointOffset ((i - 703) / 3) ((i - 703) % 3)
  else 0x015

/-- How many words LOAD reads before the one at a window offset; none for a word it does not read. -/
def loadRank (off : Nat) : Option Nat :=
  match windowWord off with
  | .config n =>
    if n.val < 18 then some n.val
    else if n.val = 0x14 then some 18
    else if n.val = 0x15 then some 1471
    else if n.val = 0x16 then some 19
    else if 0x1D ≤ n.val then some (n.val - 0x1D + 20)
    else none
  | .group _ => none
  | .virtual v w => some (23 + 4 * v.val + w.val)
  | .route r w => some (55 + 4 * r.val + w.val)
  | .directory d w => some (119 + 9 * d.val + w.val)
  | .log _ _ => none
  | .translation i w => some (191 + 2 * i.val + w.val)
  | .point p w => some (703 + 3 * p.val + w.val)
  | .ordinary => none

/-- The offset of the word RELOAD reads when it has read `i` words (R37). -/
def reloadOffset (i : Nat) : Nat :=
  if i < 23 then loadOffset i
  else if i < 39 then virtualOffset ((i - 23) / 2) ((i - 23) % 2)
  else if i < 87 then routeOffset ((i - 39) / 3) ((i - 39) % 3)
  else if i < 159 then directoryOffset ((i - 87) / 9) ((i - 87) % 9)
  else if i < 671 then 0x400 + (i - 159)
  else pointOffset (i - 671) 0

/-- LOAD has read the word at this offset (R28). -/
def Part.loadHasRead (p : Part) (off : Nat) : Bool :=
  match p.mirrors.load, loadRank off with
  | some l, some k => decide (k < l.next)
  | _, _ => false

end Sys2Proof.Machine
end

