-- ==== Sys2Proof/Machine/Flags.lean ====
section
/-! DEFINITION. What is computed from the state: the words the part owns in the window, the report status of
a point, the trouble pattern, the causes, and the output pins. -/

namespace Sys2Proof.Machine

/-! ### Timers -/

/-- A running count has reached a length. -/
def reached (count : Option Nat) (len : Nat) : Bool := count.any (len ≤ ·)

/-- The interval in progress on a line is over. -/
def Line.timeUp (l : Line) : Bool := l.timer == some 0

/-! ### Modes -/

/-- The part works: it has power, XRST is released and BYPASS is not in force (R18, R19). -/
def Mode.live : Mode → Bool
  | .off | .xrst | .bypass => false
  | .loading | .unconfigured | .stopped | .running => true

/-- STOPPED or RUNNING. -/
def Mode.serving : Mode → Bool
  | .stopped | .running => true
  | .off | .xrst | .bypass | .loading | .unconfigured => false

/-! ### Codes -/

/-- A word from fields, each given as its lowest bit and its value. -/
def pack (fields : List (Nat × Nat)) : Word :=
  BitVec.ofNat 16 ((fields.map fun f => f.2 * 2 ^ f.1).sum)

def Leg.code : Leg → Nat
  | .primary => 0
  | .backup => 1

/-- Sense codes of the log and of the point entry: ACTIVE 1, NORMAL 2, TEST 3 (02 section 2.2). -/
def Sense.code : Sense → BitVec 2
  | .active => 1
  | .normal => 2
  | .test => 3

def LogKind.code : LogKind → Nat
  | .delivered => 0
  | .callFailed => 1
  | .exhausted => 2
  | .preempted => 3
  | .aborted => 4
  | .withdrawn => 5
  | .evicted => 6
  | .refused => 7
  | .lineFault => 8
  | .lineRestored => 9
  | .overrun => 10
  | .loaded => 11
  | .command => 12

def LoadKind.code : LoadKind → Nat
  | .powerOn => 0
  | .xrst => 1
  | .restart => 2
  | .reload => 3

def LineState.code : LineState → Nat
  | .disabled => 0
  | .idle => 1
  | .office => 2
  | .fault => 3
  | .breaking => 4
  | .dialtone => 5
  | .dialing => 6
  | .ringback => 7
  | .linked => 8
  | .release => 9

def ResultStatus.code : ResultStatus → Nat
  | .inProgress => 0
  | .done => 1
  | .refusedBusy => 2
  | .refusedState => 3
  | .badArgument => 4
  | .unknown => 5
  | .restarted => 6

def TroublePattern.code : TroublePattern → Nat
  | .off => 0
  | .pulsed => 1
  | .steady => 2

def Bool.code (b : Bool) : Nat := if b then 1 else 0

/-- The causes, by the rule that asks for them (10 section 10.2). -/
inductive Cause where
  | delivered
  | budget
  | exhausted
  | line
  | overrun
  | logwrap
  | queue
  | command
  | loadfail
  | heartbeat
deriving DecidableEq, Repr

/-- The bit of a cause in 013H and 014H. -/
def Cause.index : Cause → Nat
  | .delivered => 0
  | .budget => 1
  | .exhausted => 2
  | .line => 3
  | .overrun => 4
  | .logwrap => 5
  | .queue => 6
  | .command => 7
  | .loadfail => 8
  | .heartbeat => 9

/-- The cause word with one cause set. -/
def Cause.bits (c : Cause) : BitVec 10 := BitVec.twoPow 10 c.index

/-! ### Lines -/

/-- A line carries a call in these states (06 section 6.1). -/
def LineState.inCall : LineState → Bool
  | .breaking | .dialtone | .dialing | .ringback | .linked => true
  | .disabled | .idle | .office | .fault | .release => false

/-- The hook relay is energised (06 section 6.1). -/
def LineState.offHook : LineState → Bool
  | .dialtone | .dialing | .ringback | .linked => true
  | .disabled | .idle | .office | .fault | .breaking | .release => false

/-- The seize relay is energised (R102). -/
def LineState.seized : LineState → Bool
  | .breaking | .dialtone | .dialing | .ringback | .linked | .release => true
  | .disabled | .idle | .office | .fault => false

/-- The loop-loss timer runs in these states while battery is absent (R107). -/
def LineState.lossTimed : LineState → Bool
  | .idle | .office | .breaking | .dialtone | .dialing | .ringback | .linked | .release => true
  | .disabled | .fault => false

/-- Line n. -/
def Part.line (p : Part) (n : LineNo) : Line := p.lines[n]

/-- The slots of a call's reports not yet acknowledged, in assignment order (R120, R142). -/
def Call.undelivered (c : Call) : List SlotNo := c.reports.drop c.delivered

/-- Every report of the call has been acknowledged (R152). -/
def Call.complete (c : Call) : Bool := decide (c.delivered = c.reports.length)

/-! ### Report Queue -/

/-- The record's state puts it in its point's chain (R61, R65). -/
def Record.chained (r : Record) : Bool :=
  match r.state with
  | .waiting | .held => true
  | .assigned | .sending => false

/-- Queue count (R63). -/
def Queue.count (q : Queue) : Nat := q.records.length

/-- Held count (R63). -/
def Queue.held (q : Queue) : Nat := (q.records.filter (·.state = .held)).length

/-- The occupancy word 019H. -/
def Queue.occupancy (q : Queue) : Word := pack [(0, q.count), (8, q.held)]

/-- Unrouted reports exist (R23, R70). -/
def Queue.unroutedExist (q : Queue) : Bool := q.records.any (·.unrouted)

/-! ### Points -/

/-- The shadow entry of a point. -/
def Part.shadow (p : Part) (i : PointNo) : Shadow := p.points.shadows[i]

/-- Owed points exist (R23, R56). -/
def Points.owedExist (q : Points) : Bool := q.shadows.toList.any (·.owed)

/-- The report status of a point derived from the rest of its state, with the codes of 02 section 2.2
(R41): 5 DISABLED, 3 OWED, 2 IN CALL, 4 HELD, 1 WAITING, 0 CLEAR. -/
def Part.derivedStatus (p : Part) (i : PointNo) : BitVec 3 :=
  let mine := p.queue.records.filter (·.point = i)
  if !p.pointEnabled i then 5
  else if (p.shadow i).owed then 3
  else if mine.any (fun r => !r.chained) then 2
  else if mine.any (·.state = .held) then 4
  else if mine.any (·.state = .waiting) then 1
  else 0

/-- What a delivery that waits for the Point Engine will make of a point's delivered part (R50). -/
def Work.delivers (i : PointNo) : Work → Option (BitVec 2 × BitVec 10)
  | .delivery q sense code _ _ => if q = i ∧ (sense = 1 ∨ sense = 2) then some (sense, code) else none
  | _ => none

/-- Delivered sense and event code of a point, with a delivery the engine has not taken yet counted as delivered (log 39). -/
def Points.delivered (q : Points) (i : PointNo) : BitVec 2 × BitVec 10 :=
  (q.work.reverse.findSome? (Work.delivers i)).getD (q.shadows[i].delivered.sense, q.shadows[i].delivered.code)

/-- Committed sense and event code (R40): those of the point's newest record, else those delivered. A report acknowledged
whose DELIVERY_NOTICE still waits is counted, so that committed never falls back to an older report (log 39). -/
def Part.committed (p : Part) (i : PointNo) : BitVec 2 × BitVec 10 :=
  match p.queue.records.reverse.find? (·.point = i) with
  | some r => (r.sense.code, r.code)
  | none => p.points.delivered i

/-- The words the part owns in a point's entry or virtual record. -/
def Shadow.entryW1 (s : Shadow) : Word :=
  pack [(0, Bool.code s.isolated), (1, s.status.toNat), (4, s.delivered.sense.toNat), (6, s.delivered.fold.toNat)]
def Shadow.entryW2 (s : Shadow) : Word := pack [(0, s.delivered.code.toNat)]
def Shadow.virtualW2 (s : Shadow) : Word :=
  pack [(0, s.status.toNat), (3, s.delivered.sense.toNat), (5, s.delivered.fold.toNat)]
def Shadow.virtualW3 (s : Shadow) : Word := pack [(0, s.delivered.code.toNat)]

/-- Window offset of the word that holds a point's report status, and of the one with its delivered event
code (R39). -/
def statusOffset (i : PointNo) : Nat :=
  if isReal i then pointOffset i.val 1 else virtualOffset (virtualNo i) 2
def codeOffset (i : PointNo) : Nat :=
  if isReal i then pointOffset i.val 2 else virtualOffset (virtualNo i) 3

/-! ### Routes -/

/-- The four values of a route. -/
def Part.route (p : Part) (r : RouteNo) : Route := p.routes[r]

/-- w3 of a route descriptor. -/
def Route.w3 (v : Route) : Word :=
  pack [(0, Bool.code v.accessed), (1, v.lastLeg.code), (2, Bool.code v.spent)]

/-! ### Trouble and status -/

/-- The trouble pattern the conditions call for: the first line of R166 that applies. -/
def Part.troubleDue (p : Part) : TroublePattern :=
  if p.mode = .unconfigured then .steady
  else if p.queue.held ≠ 0 then .steady
  else if p.lines.toList.any (·.state = .fault) then .pulsed
  else if p.heartbeat.silent then .pulsed
  else if p.points.latch then .pulsed
  else .off

/-- The status word 017H (R23). -/
def Part.statusWord (p : Part) : Word :=
  let tp := p.notice.trouble.code
  let full (c : Nat) : Word :=
    pack [(0, c), (2, Bool.code p.mirrors.reload.isSome), (3, tp), (5, Bool.code p.time.mainsActive),
      (6, Bool.code p.points.owedExist), (7, Bool.code p.queue.unroutedExist)]
  match p.mode with
  | .off | .xrst | .bypass => 0
  | .loading => pack [(3, tp)]
  | .unconfigured => pack [(0, 1), (3, tp)]
  | .stopped => full 2
  | .running => full 3

/-- The line state word 018H. -/
def Part.lineWord (p : Part) : Word :=
  pack [(0, (p.line 0).state.code), (4, (p.line 1).state.code), (8, (p.line 2).state.code), (12, (p.line 3).state.code)]

/-- The command result word 012H. -/
def Notice.resultWord (n : Notice) : Word := pack [(0, n.resultTag.toNat), (8, n.resultStatus.code)]

/-! ### Part-owned words of the window -/

/-- The offsets of the configuration block that hold a part-owned field (R5). -/
def ownedConfig : List Nat := [0x12, 0x13, 0x15, 0x17, 0x18, 0x19, 0x1A, 0x1B, 0x1C]

/-- The word has a part-owned field (R5, the Class columns of 02 section 2.2). -/
def partOwned (off : Nat) : Bool :=
  match windowWord off with
  | .config n => n.val ∈ ownedConfig
  | .virtual _ w => decide (2 ≤ w.val)
  | .route _ w => decide (2 ≤ w.val)
  | .log _ _ => true
  | .point _ w => decide (1 ≤ w.val)
  | .group _ | .directory _ _ | .translation _ _ | .ordinary => false

/-- The part acts on the part-owned fields of the word at an offset now (R5, R168). -/
def Part.actsOn (p : Part) (off : Nat) : Bool :=
  partOwned off && (off ≠ 0x015 || p.notice.heads.isSome) &&
  match p.mode with
  | .off | .xrst | .bypass => false
  | .stopped | .running => true
  | .unconfigured => decide (off < 0x020)
  | .loading => decide (off < 0x020) || p.loadHasRead off

/-- The word the part would write at an offset now: part-owned fields at their owners' values, the notify
fields of w2 of a route from their mirror, every other bit 0 (R5, R13). -/
def Part.ownedWord (p : Part) (off : Nat) : Word :=
  match windowWord off with
  | .config n =>
    match n.val with
    | 0x12 => p.notice.resultWord
    | 0x13 => p.notice.causes.setWidth 16
    | 0x15 => pack [(0, (p.notice.heads.map (·.shown.val)).getD 0)]
    | 0x17 => p.statusWord
    | 0x18 => p.lineWord
    | 0x19 => p.queue.occupancy
    | 0x1A => p.time.day
    | 0x1B => pack [(0, p.time.minute)]
    | 0x1C => pack [(0, p.time.second)]
    | _ => 0
  | .virtual v w =>
    let s := p.points.shadows[256 + v.val]
    if w.val = 2 then s.virtualW2 else if w.val = 3 then s.virtualW3 else 0
  | .route r w =>
    if w.val = 2 then pack [(0, (p.route r).budget)] ||| (p.mirror off &&& 0xC000)
    else if w.val = 3 then (p.route r).w3 else 0
  | .point q w =>
    let s := p.points.shadows[q.val]
    if w.val = 1 then s.entryW1 else if w.val = 2 then s.entryW2 else 0
  | .group _ | .directory _ _ | .log _ _ | .translation _ _ | .ordinary => 0

/-- The bits of a word that part-owned fields of a table outside the configuration block take up. -/
def ownedMask (off : Nat) : Word :=
  match windowWord off with
  | .config n => if n.val = 0x15 then 0x00FF else 0
  | .virtual _ w => if w.val = 2 then 0x01FF else if w.val = 3 then 0x03FF else 0
  | .route _ w => if w.val = 2 then 0x03FF else if w.val = 3 then 0x0007 else 0
  | .point _ w => if w.val = 0 then 0 else 0x03FF
  | .group _ | .directory _ _ | .log _ _ | .translation _ _ | .ordinary => 0

/-- What a panel read of the word at an offset shows, given memory's word: the overlay of R6 to R10. The
budget is shown in w2 of a route with memory's other bits; log words show memory. -/
def Part.overlay (p : Part) (off : Nat) (w : Word) : Word :=
  if p.actsOn off then
    match windowWord off with
    | .log _ _ => w
    | .route r k =>
      if k.val = 2 then (w &&& 0xFC00) ||| pack [(0, (p.route r).budget)] else p.ownedWord off
    | .config _ | .group _ | .virtual _ _ | .directory _ _ | .translation _ _ | .point _ _ | .ordinary =>
      p.ownedWord off
  else w

/-! ### Completion log words -/

/-- Word w0 to w3 of a completion log record (02 section 2.2). -/
def LogRecord.word (r : LogRecord) : Nat → Word
  | 0 => pack [(0, r.kind.code), (4, r.line.toNat), (6, r.dest.toNat), (9, r.sense.toNat), (11, r.reason.toNat),
      (14, r.leg.code)]
  | 1 => pack [(0, r.point.toNat), (9, r.second.toNat)]
  | 2 => pack [(0, r.code.toNat), (10, r.fold.toNat)]
  | _ => pack [(0, r.attempts.toNat), (4, r.minute.toNat)]

/-! ### Output pins -/

/-- IRQ is asserted (R174, R18, R19). -/
def Part.irq (p : Part) : Bool := p.mode.live && (p.notice.causes &&& p.causeEnable) ≠ 0

/-- TROUBLE is asserted (R167; steadily under XRST and BYPASS, R18, R19). -/
def Part.troubleOut (p : Part) : Bool :=
  match p.mode with
  | .off => false
  | .xrst | .bypass => true
  | .loading | .unconfigured | .stopped | .running =>
    match p.notice.trouble with
    | .off => false
    | .steady => true
    | .pulsed => p.notice.pulseOn

/-- WAIT is asserted (R15, R16). -/
def Part.waitOut (p : Part) : Bool := p.bus.hold.isSome

/-- The seize relay and the hook relay of line n are energised (R102). -/
def Part.seize (p : Part) (n : LineNo) : Bool := (p.line n).state.seized
def Part.hook (p : Part) (n : LineNo) : Bool := (p.line n).state.offHook

end Sys2Proof.Machine
end

