-- ==== Sys2Proof/Machine/Ops.lean ====
section
/-! DEFINITION. The named operations over memory, the write-back queue, the log and the causes, and over
single fields of the blocks. -/

namespace Sys2Proof.Machine

/-! ### Memory -/

/-- Writes one word, keeping the canonical form: writing what an unlisted word reads as removes the entry. -/
def Memory.write : Memory → Nat → Word → Memory
  | [], a, w => if w = Memory.unlisted then [] else [(a, w)]
  | (b, v) :: m, a, w =>
    if a < b then (if w = Memory.unlisted then (b, v) :: m else (a, w) :: (b, v) :: m)
    else if a = b then (if w = Memory.unlisted then m else (a, w) :: m)
    else (b, v) :: Memory.write m a w

/-- Canonical form from an address on: addresses strictly rising, no entry equal to an unlisted word. -/
def Memory.wfFrom : Nat → Memory → Bool
  | _, [] => true
  | lo, (a, w) :: m => decide (lo ≤ a) && decide (w ≠ Memory.unlisted) && Memory.wfFrom (a + 1) m

/-- The canonical form of a memory. -/
def Memory.wf (m : Memory) : Bool := Memory.wfFrom 0 m

/-! ### Single fields -/

def Part.setLine (n : LineNo) (l : Line) (p : Part) : Part := { p with lines := p.lines.set n l }
def Part.setShadow (i : PointNo) (s : Shadow) (p : Part) : Part :=
  { p with points := { p.points with shadows := p.points.shadows.set i s } }
def Part.setRoute (r : RouteNo) (v : Route) (p : Part) : Part := { p with routes := p.routes.set r v }
def Part.setOffer (n : LineNo) (o : Option Offer) (p : Part) : Part :=
  { p with arbiter := { p.arbiter with offers := p.arbiter.offers.set n o } }
def Part.setMode (m : Mode) (p : Part) : Part := { p with mode := m }

/-- An occasion of decision (R127). -/
def Part.occasion (p : Part) : Part := { p with arbiter := { p.arbiter with decisionPending := true } }

/-- Hands a piece of work to the Point Engine; it waits behind those that arrived before (03 section 3.3). -/
def Part.tell (w : Work) (p : Part) : Part := { p with points := { p.points with work := p.points.work ++ [w] } }

/-- Takes a word into its mirror (R27). -/
def Part.setMirror (off : Nat) (w : Word) (p : Part) : Part :=
  { p with mirrors := { p.mirrors with words := p.mirrors.words.write off (w &&& mirrorMask off) } }

/-! ### Write-back queue -/

/-- An owner enters an address in the write-back queue (R12): nothing if it is there already; added as the
newest if a place is free and no owner waits; otherwise the owner waits with it, or keeps it for after
the one it already waits with (log 11). Nothing is entered under XRST or BYPASS (R18, R154). -/
def Part.enter (o : Owner) (off : Nat) (p : Part) : Part :=
  if !p.mode.live || p.bus.wbq.contains off then p
  else if p.bus.wbWait.any (·.owner = o) then
    { p with bus := { p.bus with wbWait := p.bus.wbWait.map fun w =>
        if w.owner = o ∧ w.first ≠ off ∧ off ∉ w.later then { w with later := w.later ++ [off] } else w } }
  else if p.bus.wbWait.isEmpty ∧ p.bus.wbq.length < Config.writeBackPlaces then
    { p with bus := { p.bus with wbq := p.bus.wbq ++ [off] } }
  else
    { p with bus := { p.bus with
        wbWait := p.bus.wbWait ++ [{ owner := o, ticket := p.bus.tickets, first := off, later := [] }]
        tickets := p.bus.tickets + 1 } }

/-- An address can be entered at once: it is there already, or no owner waits and a place is free (R12). -/
def Part.fits (off : Nat) (p : Part) : Bool :=
  p.bus.wbq.contains off || (p.bus.wbWait.isEmpty && decide (p.bus.wbq.length < Config.writeBackPlaces))

/-- The next address of one piece of work: entered if it fits and none of the piece is left, else left for later (R12). -/
def Part.enterNext (o : Owner) (off : Nat) (e : Part × List Nat) : Part × List Nat :=
  if e.2.isEmpty && e.1.fits off then (e.1.enter o off, e.2) else (e.1, e.2 ++ [off])

/-- Enters several addresses in turn. -/
def Part.enterAll (o : Owner) (offs : List Nat) (p : Part) : Part := offs.foldl (fun q a => q.enter o a) p

/-- The owner that has waited longest has its address admitted when there is a place; it then goes on to its
later addresses and may wait again, behind the others (R12). -/
def Part.admitWaiter (p : Part) : Part :=
  match p.bus.wbWait with
  | [] => p
  | w :: ws =>
    if p.bus.wbq.contains w.first then
      Part.enterAll w.owner w.later { p with bus := { p.bus with wbWait := ws } }
    else if p.bus.wbq.length < Config.writeBackPlaces then
      Part.enterAll w.owner w.later { p with bus := { p.bus with wbWait := ws, wbq := p.bus.wbq ++ [w.first] } }
    else p

/-- The Point Engine waits for a place in the write-back queue (03 section 3.3). -/
def Part.engineWaits (p : Part) : Bool := p.bus.wbWait.any (·.owner = .pointEngine)

/-! ### Causes and the completion log -/

/-- A block asks for a cause (R173). -/
def Part.raise (c : Cause) (p : Part) : Part :=
  if p.causeEnable.getLsbD c.index && !p.notice.causes.getLsbD c.index then
    Part.enter .noticeUnit 0x013 { p with notice := { p.notice with causes := p.notice.causes ||| c.bits } }
  else p

/-- The time of day (R154). -/
def Part.now (p : Part) : Stamp := { day := p.time.day, minute := p.time.minute, second := p.time.second }

/-- A log record with its minute of day and second. -/
def LogRecord.stamp (t : Stamp) (r : LogRecord) : LogRecord :=
  { r with minute := BitVec.ofNat 11 t.minute, second := BitVec.ofNat 6 t.second }

/-- A record enters the staging buffer, or waits for room behind those that wait (R14). -/
def Part.stage (s : Staged) (p : Part) : Part :=
  if p.bus.logWait.isEmpty ∧ p.bus.staging.length < Config.stagingPlaces then
    { p with bus := { p.bus with staging := p.bus.staging ++ [s] } }
  else
    { p with bus := { p.bus with
        logWait := p.bus.logWait ++ [(p.bus.tickets, s)], tickets := p.bus.tickets + 1 } }

/-- A block asks for a log record (R169): in STOPPED and RUNNING it takes the slot of the allocation head and
goes to the staging buffer; elsewhere nothing is made. -/
def Part.makeLog (r : LogRecord) (p : Part) : Part :=
  match p.mode.serving, p.notice.heads with
  | true, some h =>
    Part.stage { slot := h.alloc, record := r }
      { p with notice := { p.notice with heads := some { h with alloc := h.alloc + 1 } } }
  | _, _ => p

/-- A log record made with the time now (R169). -/
def Part.logNow (r : LogRecord) (p : Part) : Part := p.makeLog (r.stamp p.now)

/-! ### Command results -/

/-- Sets the command result and enters 012H. -/
def Part.setResult (tag : BitVec 8) (st : ResultStatus) (p : Part) : Part :=
  Part.enter .noticeUnit 0x012 { p with notice := { p.notice with resultTag := tag, resultStatus := st } }

/-- The final result of a command (R176): the result word, cause COMMAND, the COMMAND log record. -/
def Part.finalResult (c : Command) (st : ResultStatus) (p : Part) : Part :=
  Part.logNow
    { kind := .command, code := c.tag.setWidth 10, attempts := c.code, reason := BitVec.ofNat 3 st.code }
    (Part.raise .command (p.setResult c.tag st))

/-- The owner of the command in progress reports it complete (R176). -/
def Part.complete (st : ResultStatus) (p : Part) : Part :=
  match p.notice.inProgress with
  | some c => Part.finalResult c st { p with notice := { p.notice with inProgress := none } }
  | none => p

/-! ### What follows every step -/

/-- The Notice Unit derives the trouble pattern again; a pulse cycle begins asserted when the pattern becomes
pulsed (R166, R167). -/
def Part.retrouble (p : Part) : Part :=
  if p.troubleDue = p.notice.trouble then p
  else { p with notice := { p.notice with
    trouble := p.troubleDue, pulseOn := decide (p.troubleDue = .pulsed), pulseMs := 0 } }

/-- After a step: the trouble pattern is derived again, and 017H is entered if the status word is no longer
what it was before the step (R23, R166). -/
def Part.settle (old : Part) (p : Part) : Part :=
  let q := p.retrouble
  if q.statusWord = old.statusWord then q else q.enter .windowMirrors 0x017

/-- A step of a part that works: `f`, and what follows every step. Without power, under XRST and in BYPASS
nothing happens (R18, R19). -/
def Part.work (f : Part → Part) (p : Part) : Part :=
  if p.mode.live then Part.settle p (f p) else p

/-- A step of a part that is STOPPED or RUNNING. -/
def Part.serve (f : Part → Part) (p : Part) : Part :=
  if p.mode.serving then Part.settle p (f p) else p

end Sys2Proof.Machine
end

