-- ==== Sys2Proof/Machine/Detector.lean ====
section
/-! DEFINITION. The tone detector of a line (R111), sampled once a ms (log 25), and the symbols the part sends
(R139). -/

namespace Sys2Proof.Machine

/-- The tokens of R111, and the stopping of the READY tone (R143). -/
inductive Token where
  | dialTone
  | busy
  | ready
  | readyStopped
  | ack
  | repeatToken
deriving DecidableEq, Repr

/-- The three bands of R111, in Hz. -/
def inLowBand (f : Nat) : Bool := 300 ≤ f && f ≤ 500
def inReadyBand (f : Nat) : Bool := 1365 ≤ f && f ≤ 1435
def inBurstBand (f : Nat) : Bool := 2240 ≤ f && f ≤ 2360

/-- An on-period or a silence within the BUSY limits (R111). -/
def busyLength (n : Nat) : Bool := 150 ≤ n && n ≤ 650

/-- DIAL_TONE and BUSY after one more ms (R111). A ms without a tone of the band counts as silence, and a recognised
BUSY starts the count of on-periods again; a tone that goes on after DIAL_TONE gives no second one: the model's choices
(log 25). -/
def Detector.lowTick (tone : Bool) (d : Detector) : Detector × Option Token :=
  if tone then
    let fresh := d.lowTone == 0
    ({ d with lowTone := d.lowTone + 1, lowSilence := 0
              onPeriods := if fresh && !busyLength d.lowSilence then 0 else d.onPeriods },
      if d.lowTone + 1 = 700 then some .dialTone else none)
  else if d.lowTone = 0 then ({ d with lowSilence := d.lowSilence + 1 }, none)
  else
    let on := if busyLength d.lowTone then d.onPeriods + 1 else 0
    ({ d with lowTone := 0, lowSilence := 1, onPeriods := if on = 3 then 0 else on },
      if on = 3 then some .busy else none)

/-- READY and the stopping of its tone after one more ms (R111, R143). -/
def Detector.readyTick (tone : Bool) (d : Detector) : Detector × Option Token :=
  if tone then
    ({ d with readyTone := d.readyTone + 1, readySilence := 0 },
      if d.readyTone + 1 = 400 then some .ready else none)
  else
    ({ d with readyTone := 0, readySilence := d.readySilence + 1 },
      if d.readySilence + 1 = Config.readyStopMs then some .readyStopped else none)

/-- The end of a measurement that no second burst has followed (R111). -/
def ackOf (length : Nat) : Option Token := if 400 ≤ length then some .ack else none

/-- ACK and REPEAT after one more ms (R111). A burst shorter than 40 ms begins no measurement and does not
break a silence. A ms without a tone of the band counts as silence, and a burst that has begun within the 300 ms and is not
yet 40 ms long when they pass is waited for to its end: the model's choices (log 25). -/
def BurstMeasure.tick (tone : Bool) : BurstMeasure → BurstMeasure × Option Token
  | .quiet => (if tone then .first 1 else .quiet, none)
  | .first n =>
    if tone then (if 900 < n + 1 then .over else .first (n + 1), none)
    else if n < 40 ∨ (300 ≤ n ∧ n ≤ 399) then (.quiet, none)
    else (.gap n 1 0, none)
  | .gap n silence t =>
    if tone then (if 40 ≤ t + 1 then .second n (t + 1) else .gap n silence (t + 1), none)
    else if 300 ≤ silence + t + 1 then (.quiet, ackOf n)
    else (.gap n (silence + t + 1) 0, none)
  | .second n t =>
    if tone then (if 900 < t + 1 then .over else .second n (t + 1), none)
    else (.quiet, if n < 300 ∧ t < 300 then some .repeatToken else none)
  | .over => (if tone then .over else .quiet, none)

/-- A measurement in the burst band is in progress (R145). A tone of the band that is not yet 40 ms long counts as one, the
model's choice (log 25): it may still become a burst. -/
def BurstMeasure.measuring : BurstMeasure → Bool
  | .first _ | .gap _ _ _ | .second _ _ => true
  | .quiet | .over => false

/-- The detector after one ms of a frequency, and the tokens it then recognises. -/
def Detector.tick (f : Nat) (d : Detector) : Detector × List Token :=
  let a := d.lowTick (inLowBand f)
  let b := a.1.readyTick (inReadyBand f)
  let c := b.1.burst.tick (inBurstBand f)
  ({ b.1 with burst := c.1 }, [a.2, b.2, c.2].filterMap id)

/-- The dual tone of a symbol, low and high frequency in Hz (R139): 0 to 9 the digits, 10 to 13 A to D, 14 *,
15 #. -/
def symbolTones (v : Fin 16) : Nat × Nat :=
  match v.val with
  | 0 => (941, 1336)
  | 1 => (697, 1209)
  | 2 => (697, 1336)
  | 3 => (697, 1477)
  | 4 => (770, 1209)
  | 5 => (770, 1336)
  | 6 => (770, 1477)
  | 7 => (852, 1209)
  | 8 => (852, 1336)
  | 9 => (852, 1477)
  | 10 => (697, 1633)
  | 11 => (770, 1633)
  | 12 => (852, 1633)
  | 13 => (941, 1633)
  | 14 => (941, 1209)
  | _ => (941, 1477)

/-- The value of a dial symbol that is a tone; PAUSE and WAIT send none (R99, R139). -/
def DialSymbol.value : DialSymbol → Option Nat
  | .digit d => some d.val
  | .star => some 14
  | .hash => some 15
  | .pause | .wait => none

end Sys2Proof.Machine
end

