-- ==== Sys2Proof/Machine/Routes.lean ====
section
/-! DEFINITION. The Route Block (05): force, resolution, usability, and the account of deliveries. -/

namespace Sys2Proof.Machine

/-- A route is in force: it is enabled and its primary destination is enabled and valid (R26). -/
def Part.inForce (p : Part) (r : RouteNo) : Bool :=
  p.routeEnabled r && p.destEnabled (p.primaryDest r) && p.mirrors.valid[p.primaryDest r]

/-- The route chosen for a route given, with its unrouted mark (R48). -/
def Part.chooseRoute (p : Part) (given : RouteNo) : RouteNo × Bool :=
  if p.inForce given then (given, false) else (0, !p.inForce 0)

/-- The destination a leg of a route resolves to (R88). -/
def Part.resolve (p : Part) (r : RouteNo) : Leg → DestNo
  | .primary => p.primaryDest r
  | .backup => (p.backupDest r).getD (p.primaryDest r)

/-- A destination is usable (R89). -/
def Part.usable (p : Part) (d : DestNo) : Bool :=
  p.destEnabled d && p.mirrors.valid[d] &&
    (List.finRange 4).any fun n => p.destAllows d n && p.lineEnabled n && decide ((p.line n).state ≠ .fault)

/-- A route is held by its budget (R97). -/
def Part.heldByBudget (p : Part) (r : RouteNo) : Bool := (p.route r).spent && p.budgetHold r

/-- A route's values after a delivery on a leg (R94, R95). -/
def Route.afterDelivery (leg : Leg) (v : Route) : Route :=
  { v with
    budget := v.budget - 1
    spent := v.spent || v.budget == 1
    accessed := true
    lastLeg := leg }

/-- The Route Block takes a delivery: the budget and cause BUDGET (R94), then the flags, w3 once if any of them changed, and
cause DELIVERED (R95). With it go the addresses of the delivery that did not fit: they are the rest of that piece of work,
and so are those of w2 and w3 behind one that did not (R12). -/
def Part.countDelivery (r : RouteNo) (leg : Leg) (e : Part × List Nat) : Part × List Nat :=
  let p := e.1
  let v := p.route r
  let v' := v.afterDelivery leg
  let e := (p.setRoute r v', e.2)
  let e := if v'.budget = v.budget then e else Part.enterNext .routeBlock (routeOffset r.val 2) e
  let e := if v.budget = 1 && p.notifyBudget r then (e.1.raise .budget, e.2) else e
  let e := if v'.w3 = v.w3 then e else Part.enterNext .routeBlock (routeOffset r.val 3) e
  if p.notifyDelivery r then (e.1.raise .delivered, e.2) else e

/-- A budget write in STOPPED and RUNNING (R93): a differing budget replaces the one held, clears the spent
flag and is told to the Line Arbiter. -/
def Part.takeBudget (r : RouteNo) (w : Word) (p : Part) : Part :=
  let v := p.route r
  if budgetField w = v.budget then p
  else
    let p := p.setRoute r { v with budget := budgetField w, spent := false }
    Part.occasion (if v.spent then p.enter .routeBlock (routeOffset r.val 3) else p)

/-- A budget write in LOADING after LOAD has read w2 (R96). The clearing is kept for w3 if that has not been
read yet; otherwise a flag that was set has w3 entered at the end of LOAD. -/
def Part.takeBudgetLoading (r : RouteNo) (w : Word) (p : Part) : Part :=
  let v := p.route r
  if budgetField w = v.budget then p
  else if p.loadHasRead (routeOffset r.val 3) then
    p.setRoute r { v with budget := budgetField w, spent := false, w3AtEnd := v.w3AtEnd || v.spent }
  else p.setRoute r { v with budget := budgetField w, clearKept := true, w3AtEnd := true }

end Sys2Proof.Machine
end

