-- ==== Sys2Proof/Machine/Queue.lean ====
section
/-! DEFINITION. The Report Queue (04): requests and chains, a full queue, withdrawal, delivery, failed and
interrupted calls, retry and hold times. -/

namespace Sys2Proof.Machine

/-! ### Records -/

/-- A report request (R49). -/
structure Request where
  point : PointNo
  sense : Sense
  code : BitVec 10
  priority : Fin 8
  route : RouteNo
  unrouted : Bool
deriving DecidableEq, Repr

/-- The queue's answers to a request (R49). -/
inductive Answer where
  | admitted
  | folded
  | refused
deriving DecidableEq, Repr

/-- The reasons of a counted failure (04 section 4.7, 02 section 2.2). -/
inductive FailReason where
  | noDialTone
  | busy
  | noAnswer
  | noAck
  | farClear
deriving DecidableEq, Repr

/-- The failure reason field of a log record. -/
def FailReason.code : FailReason → BitVec 3
  | .noDialTone => 1
  | .busy => 2
  | .noAnswer => 3
  | .noAck => 4
  | .farClear => 5

/-- Replaces the records. -/
def Part.withRecords (rs : List Record) (p : Part) : Part := { p with queue := { p.queue with records := rs } }

/-- Replaces the records; 019H is entered when either count changes (R63). -/
def Part.setRecords (rs : List Record) (p : Part) : Part :=
  let q := p.withRecords rs
  if q.queue.occupancy = p.queue.occupancy then q else q.enter .reportQueue 0x019

/-- Removes one record, named by its admission number. -/
def Part.removeRecord (id : Nat) (p : Part) : Part := p.setRecords (p.queue.records.filter (·.id ≠ id))

/-- Changes one record in place. -/
def Part.changeRecord (id : Nat) (f : Record → Record) (p : Part) : Part :=
  p.setRecords (p.queue.records.map fun r => if r.id = id then f r else r)

/-- The record in a slot (R62). -/
def Queue.inSlot (q : Queue) (s : SlotNo) : Option Record := q.records.find? (·.slot = s)

/-- The records named by slots, in that order. -/
def Queue.inSlots (q : Queue) (ss : List SlotNo) : List Record := ss.filterMap q.inSlot

/-- A point's chain (R65). -/
def Queue.chain (q : Queue) (i : PointNo) : List Record := q.records.filter fun r => r.point = i ∧ r.chained

/-- The lowest-numbered free slot (R60). -/
def Queue.freeSlot (q : Queue) : SlotNo :=
  ((List.finRange 64).find? fun s => q.records.all (·.slot ≠ s)).getD 0

/-- No earlier-admitted record of its point stands in a record's way; `ahead` are those of the same call,
ahead of it (R75). -/
def Queue.mayAssign (q : Queue) (r : Record) (ahead : List Nat) : Bool :=
  q.records.all fun e => decide (e.point = r.point ∧ e.id < r.id → e.id ∈ ahead)

/-! ### Log records of the queue -/

/-- What a log record says of a report record. -/
def Record.log (r : Record) (kind : LogKind) : LogRecord :=
  { kind, sense := r.sense.code, leg := r.leg, point := BitVec.ofNat 9 r.point.val, code := r.code,
    fold := BitVec.ofNat 4 r.fold, attempts := BitVec.ofNat 4 r.attempts }

/-- A log record of a call's line and destination (R85). -/
def LogRecord.ofCall (n : LineNo) (d : DestNo) (l : LogRecord) : LogRecord :=
  { l with line := BitVec.ofNat 2 n.val, dest := BitVec.ofNat 3 d.val }

/-- The WITHDRAWN or EVICTED log record: line 0, the destination the record's leg resolves to now, the
record's creation time (R85). -/
def Part.droppedLog (p : Part) (kind : LogKind) (r : Record) : LogRecord :=
  LogRecord.stamp r.created { r.log kind with dest := BitVec.ofNat 3 (p.resolve r.route r.leg).val }

/-! ### Requests and chains -/

/-- Where a request of a sense goes (R65). -/
inductive Placement where
  | append
  | fold (x : Record)
  | foldTwice (x y : Record)
deriving DecidableEq, Repr

/-- The table of R65 (R69 for TEST). -/
def placement (s : Sense) : List Record → Placement
  | [] => .append
  | [x] => if x.sense = s then .fold x else .append
  | x :: y :: _ => if y.sense = s then .fold y else if x.sense = s then .foldTwice x y else .append

/-- A request folds into X of its sense (R66, R69); `own` is the fold count of a merged record (R81). -/
def Record.fold1 (rq : Request) (own : Nat) (x : Record) : Record :=
  let y := { x with code := rq.code, priority := min x.priority rq.priority
                    fold := min Config.maxFold (x.fold + 1 + own) }
  match rq.sense with
  | .test => y
  | .active | .normal => { y with route := rq.route, unrouted := rq.unrouted }

/-- A request folds into X twice over (R67); `own` is the fold count of a merged record (R81). -/
def Record.fold2 (rq : Request) (own : Nat) (x : Record) : Record :=
  let y := { x with priority := min x.priority rq.priority, fold := min Config.maxFold (x.fold + 2 + own) }
  match rq.sense with
  | .active => { y with code := rq.code, route := rq.route, unrouted := rq.unrouted }
  | .normal | .test => y

/-- The new record of an admitted request (R60, R68). -/
def Part.newRecord (p : Part) (rq : Request) : Record :=
  { id := p.queue.nextId, slot := p.queue.freeSlot, point := rq.point, sense := rq.sense, code := rq.code
    priority := rq.priority, route := rq.route, unrouted := rq.unrouted, fold := 0, state := .waiting
    leg := if p.stickyLeg rq.route then (p.route rq.route).lastLeg else .primary
    attempts := 0, cycles := 0, retry := none, holdUntil := none, created := p.now, call := none }

/-- A request is admitted as the newest record; the Line Arbiter is told (R68). -/
def Part.admission (rq : Request) (p : Part) : Part :=
  let r := p.newRecord rq
  let p := { p with queue := { p.queue with nextId := p.queue.nextId + 1 } }
  Part.occasion (p.setRecords (p.queue.records ++ [r]))

/-- A record is withdrawn: removed, logged WITHDRAWN, told to the Point Engine (R74). -/
def Part.withdraw (r : Record) (p : Part) : Part :=
  Part.tell (.notice .withdrawal r.point) (Part.makeLog (p.droppedLog .withdrawn r) (p.removeRecord r.id))

/-- Every WAITING and HELD record of a point is withdrawn, in admission order (R74). -/
def Part.withdrawPoint (i : PointNo) (p : Part) : Part := (p.queue.chain i).foldl (fun q r => q.withdraw r) p

/-- The victim of a full queue: the WAITING or HELD record last in service order (R71). -/
def Queue.victim (q : Queue) : Option Record :=
  (q.records.filter (·.chained)).foldl
    (fun best r => match best with
      | some b => if b.priority ≤ r.priority then some r else some b
      | none => some r) none

/-- The victim and the later-admitted records of its chain (R72). -/
def Queue.victims (q : Queue) (v : Record) : List Record := (q.chain v.point).filter (v.id ≤ ·.id)

/-- Admission by eviction (R72). -/
def Part.evict (v : Record) (rq : Request) (p : Part) : Part :=
  let vs := p.queue.victims v
  let logs := vs.map (p.droppedLog .evicted)
  let p := p.setRecords (p.queue.records.filter (· ∉ vs))
  let p := logs.foldl (fun q l => q.makeLog l) p
  Part.admission rq (Part.tell (.notice .eviction v.point) (p.raise .queue))

/-- Refusal (R73). -/
def Part.refuse (rq : Request) (p : Part) : Part :=
  Part.raise .queue (p.logNow
    { kind := .refused, dest := BitVec.ofNat 3 (p.primaryDest rq.route).val, sense := rq.sense.code
      point := BitVec.ofNat 9 rq.point.val, code := rq.code })

/-- A record was folded: the Line Arbiter is told when it is WAITING (R66). -/
def Part.foldTold (x : Record) (p : Part) : Part := if x.state = .waiting then p.occasion else p

/-- The queue takes a request and answers it (R65 to R73). -/
def Part.request (rq : Request) (p : Part) : Part × Answer :=
  match placement rq.sense (p.queue.chain rq.point) with
  | .fold x => (Part.foldTold x (p.changeRecord x.id (Record.fold1 rq 0)), .folded)
  | .foldTwice x y => (Part.foldTold x ((p.withdraw y).changeRecord x.id (Record.fold2 rq 0)), .folded)
  | .append =>
    if p.queue.count < Config.queuePlaces then (p.admission rq, .admitted)
    else match p.queue.victim with
      | some v =>
        if rq.priority < v.priority ∧ v.point ≠ rq.point then (p.evict v rq, .admitted)
        else (p.refuse rq, .refused)
      | none => (p.refuse rq, .refused)

/-- The unrouted marks are judged again (R70). -/
def Part.judgeUnrouted (p : Part) : Part :=
  if p.inForce 0 && p.queue.unroutedExist then
    Part.occasion (p.setRecords (p.queue.records.map fun r => { r with unrouted := false }))
  else p

/-! ### Calls -/

/-- A record joins a call (R76). -/
def Record.assign (n : LineNo) (pos : Nat) (r : Record) : Record :=
  { r with state := .assigned, call := some { line := n, position := pos } }

/-- Records are placed in a call from a position on; the Point Engine is told of each (R76). -/
def Part.assign (n : LineNo) (pos : Nat) (rs : List Record) (p : Part) : Part :=
  rs.zipIdx.foldl
    (fun q e => Part.tell (.notice .assignment e.1.point) (q.changeRecord e.1.id (Record.assign n (pos + e.2)))) p

/-- The first send of a record begins (R76). -/
def Part.markSending (s : SlotNo) (p : Part) : Part :=
  match p.queue.inSlot s with
  | some r =>
    if r.state = .assigned then
      Part.tell (.notice .assignment r.point) (p.changeRecord r.id fun r => { r with state := .sending })
    else p
  | none => p

/-- A record delivered leaves the queue; with it the occupancy word, if it does not fit: it is the rest of the delivery (R12,
R63, R77). -/
def Part.removeDelivered (id : Nat) (p : Part) : Part × List Nat :=
  Part.enterNext .reportQueue 0x019 (p.withRecords (p.queue.records.filter (·.id ≠ id)), [])

/-- A SENDING record is delivered (R77). The notice of it carries the addresses that have not been entered: the occupancy word,
w2 and w3 of the route (log 11). -/
def Part.deliver (n : LineNo) (d : DestNo) (s : SlotNo) (p : Part) : Part :=
  match p.queue.inSlot s with
  | some r =>
    let e := Part.countDelivery r.route r.leg (p.removeDelivered r.id)
    let p := e.1.tell (.delivery r.point r.sense.code r.code (BitVec.ofNat 4 r.fold) e.2)
    Part.occasion (p.logNow (LogRecord.ofCall n d
      { r.log .delivered with attempts := BitVec.ofNat 4 (r.attempts + 1) }))
  | none => p

/-- Steps 1 and 2 of a counted failure (R78): the record moved on when its leg attempts reach the limit. -/
def Part.failLegs (p : Part) (r : Record) : Record :=
  let a := r.attempts + 1
  if a < p.legLimit r.route then { r with attempts := a }
  else match r.leg, p.backupDest r.route with
    | .primary, some _ => { r with attempts := 0, leg := .backup }
    | .primary, none => { r with attempts := 0, cycles := r.cycles + 1 }
    | .backup, _ => { r with attempts := 0, leg := .primary, cycles := r.cycles + 1 }

/-- A record after a counted failure (R78, R79): HELD at its cycle limit, otherwise WAITING with a retry
time; a retry delay of 0 gives a time already passed. -/
def Part.failed (p : Part) (r : Record) : Record :=
  let r' := { p.failLegs r with call := none }
  if p.cycleLimit r.route ≤ r'.cycles then
    { r' with state := .held, leg := .primary, attempts := 0, cycles := 0, retry := none
              holdUntil := some (p.queue.clock + 60 * p.holdInterval r.route) }
  else
    { r' with state := .waiting
              retry := if p.retryDelay r.route = 0 then none else some (p.queue.clock + p.retryDelay r.route) }

/-- The log record of a counted failure: the leg before step 2 of R78, the attempts after step 1 (R85). -/
def Record.failureLog (r : Record) (kind : LogKind) (n : LineNo) (d : DestNo) (why : FailReason) : LogRecord :=
  LogRecord.ofCall n d { r.log kind with attempts := BitVec.ofNat 4 (r.attempts + 1), reason := why.code }

/-- A report record as a request of its own (R81). -/
def Record.asRequest (r : Record) : Request :=
  { point := r.point, sense := r.sense, code := r.code, priority := r.priority, route := r.route
    unrouted := r.unrouted }

/-- One record is applied to the list of R81: the records that stay so far, and those withdrawn. -/
def mergeStep (acc : List Record × List Record) (r : Record) : List Record × List Record :=
  let into (x : Record) (f : Record → Record) (l : List Record) : List Record :=
    l.map fun z => if z.id = x.id then f z else z
  match placement r.sense acc.1 with
  | .append => (acc.1 ++ [r], acc.2)
  | .fold x => (into x (Record.fold1 r.asRequest r.fold) acc.1, acc.2)
  | .foldTwice x y =>
    (into x (Record.fold2 r.asRequest r.fold) (acc.1.filter (·.id ≠ y.id)), acc.2 ++ [y])

/-- A point's chain is restored after records have returned to it (R81, log 21). -/
def Part.mergePoint (i : PointNo) (p : Part) : Part :=
  let chain := p.queue.chain i
  let m := chain.foldl mergeStep ([], [])
  if m.1 = chain then p
  else
    let logs := m.2.map (p.droppedLog .withdrawn)
    let p := p.setRecords (p.queue.records.filterMap fun r =>
      if r.point = i ∧ r.chained then m.1.find? (·.id = r.id) else some r)
    let p := logs.foldl (fun q l => Part.tell (.notice .withdrawal i) (q.makeLog l)) p
    p.tell (.notice .merged i)

/-- Records have returned from a call: the Point Engine is told of each, the chains are restored, the Line
Arbiter is told (R79 to R81). `rs` are the records as they now stand. The points are taken in the order in which their last
records stand in the call, the model's choice (log 34). -/
def Part.returned (rs : List Record) (p : Part) : Part :=
  let p := rs.foldl (fun q r =>
    q.tell (.notice (if r.state = .held then .exhaustion else .returned) r.point)) p
  Part.occasion ((rs.map (·.point)).dedup.foldl (fun q i => q.mergePoint i) p)

/-- Puts changed records in place of those with their admission numbers. -/
def Part.replaceRecords (rs : List Record) (p : Part) : Part :=
  p.setRecords (p.queue.records.map fun r => (rs.find? (·.id = r.id)).getD r)

/-- A call ends with a counted failure (R78, R79, R85). -/
def Part.failCall (n : LineNo) (c : Call) (why : FailReason) (p : Part) : Part :=
  let rs := p.queue.inSlots c.undelivered
  let rs' := rs.map p.failed
  let named := match rs.find? (·.state = .sending) with
    | some r => some r
    | none => rs.head?
  let p := p.replaceRecords rs'
  let p := match named with
    | some r => p.logNow (r.failureLog .callFailed n c.dest why)
    | none => p
  let p := (rs.zip rs').foldl (fun q e =>
    if e.2.state = .held then Part.raise .exhausted (q.logNow (e.1.failureLog .exhausted n c.dest why)) else q) p
  p.returned rs'

/-- A call ends PREEMPTED or ABORTED (R80). -/
def Part.interruptCall (n : LineNo) (c : Call) (kind : LogKind) (p : Part) : Part :=
  let rs := p.queue.inSlots c.undelivered
  let rs' := rs.map fun r => { r with state := .waiting, call := none }
  let p := p.replaceRecords rs'
  let p := match rs.head? with
    | some r => p.logNow (LogRecord.ofCall n c.dest (r.log kind))
    | none => p
  p.returned rs'

/-! ### Times -/

/-- The queue clock has reached a WAITING record's retry time (R82). -/
def Part.retryPassed (s : SlotNo) (p : Part) : Part :=
  match p.queue.inSlot s with
  | some r =>
    match r.state, r.retry with
    | .waiting, some t =>
      if t ≤ p.queue.clock then Part.occasion (p.changeRecord r.id fun r => { r with retry := none }) else p
    | _, _ => p
  | none => p

/-- A HELD record becomes WAITING (R83). -/
def Record.release (r : Record) : Record :=
  { r with state := .waiting, holdUntil := none, retry := none }

/-- A HELD record is released: the Point Engine and the Line Arbiter are told (R83). -/
def Part.releaseRecord (r : Record) (p : Part) : Part :=
  Part.occasion (Part.tell (.notice .release r.point) (p.changeRecord r.id Record.release))

/-- The queue clock has reached a HELD record's hold expiry (R83). -/
def Part.holdExpires (s : SlotNo) (p : Part) : Part :=
  match p.queue.inSlot s with
  | some r =>
    match r.state, r.holdUntil with
    | .held, some t => if t ≤ p.queue.clock then p.releaseRecord r else p
    | _, _ => p
  | none => p

/-- RELEASE HELD: every HELD record is released, in admission order (R84). -/
def Part.releaseAll (p : Part) : Part :=
  (p.queue.records.filter (·.state = .held)).foldl (fun q r => q.releaseRecord r) p

/-! ### Commands of this chapter -/

/-- RETRY_TIME_PASSED (R82). -/
def execRetryTimePassed (slot : SlotNo) (s : State) : Host.Outcome State Fault Refusal :=
  .next { s with part := s.part.serve (Part.retryPassed slot) }

/-- HOLD_EXPIRY (R83). -/
def execHoldExpiry (slot : SlotNo) (s : State) : Host.Outcome State Fault Refusal :=
  .next { s with part := s.part.serve (Part.holdExpires slot) }

end Sys2Proof.Machine
end

