-- ==== Sys2Proof/Machine/Lines.lean ====
section
/-! DEFINITION. The Line Engines (06): line states, office use, loop supervision, calls up to LINKED, the ends of
calls, and the offers a line takes (R113, R114, R122, R134). -/

namespace Sys2Proof.Machine

/-! ### Line states -/

/-- A line takes a state: its timers are those of that state (R102, R105, R107, R110, R111). The debounce
begins with the sense as it stands; the loop-loss count is carried among the states in which it runs. -/
def Line.become (st : LineState) (timer : Option Nat) (l : Line) : Line :=
  { l with
    state := st
    timer
    debounce :=
      match st with
      | .idle => if l.officeSense then some 0 else none
      | .office => if l.officeSense then none else some 0
      | .disabled | .fault | .breaking | .dialtone | .dialing | .ringback | .linked | .release => none
    loopLoss := if st.lossTimed && !l.loopSense then some (l.loopLoss.getD 0) else none
    lossExpired := false
    currentLoss := if st.offHook && !l.loopSense then some (l.currentLoss.getD 0) else none
    presence := if st = .fault then some 0 else none
    call := if st.inCall then l.call else none
    detector := if l.state.offHook && st.offHook then l.detector else Detector.empty }

/-- The state a line returns to by its office sense (R106). -/
def Line.bySense (l : Line) : LineState := if l.officeSense then .office else .idle

/-- Changes a line; a change of its state enters 018H and is an occasion (R102, R127). -/
def Part.moveLine (n : LineNo) (f : Line → Line) (p : Part) : Part :=
  let l := p.line n
  let q := p.setLine n (f l)
  if (f l).state = l.state then q else Part.occasion (q.enter .lineEngines 0x018)

/-- Changes what a call holds. -/
def Line.onCall (f : Call → Call) (l : Line) : Line := { l with call := l.call.map f }

/-- The condition point of a line (R108). -/
def faultPoint (n : LineNo) : PointNo := ⟨258 + n.val, by omega⟩

/-- Entry to FAULT after the line's call, if any, has ended (R108 steps 2 to 5). -/
def Part.enterFault (n : LineNo) (p : Part) : Part :=
  let p := p.moveLine n (Line.become .fault none)
  let p := p.raise .line
  if p.mode.serving then
    Part.logNow { kind := .lineFault, line := BitVec.ofNat 2 n.val, sense := 1
                  point := BitVec.ofNat 9 (faultPoint n).val }
      (p.tell (.condition (faultPoint n) true))
  else p

/-- A line leaves FAULT when battery has returned (R109). -/
def Part.leaveFault (n : LineNo) (p : Part) : Part :=
  let p := p.moveLine n fun l => l.become l.bySense none
  let p := p.raise .line
  if p.mode.serving then
    Part.logNow { kind := .lineRestored, line := BitVec.ofNat 2 n.val, sense := 2
                  point := BitVec.ofNat 9 (faultPoint n).val }
      (p.tell (.condition (faultPoint n) false))
  else p

/-- A line enters DISABLED; its disable pending mark is cleared (R104, R121). -/
def Line.disable (l : Line) : Line := { l.become .disabled none with disablePending := false }

/-- A line enters RELEASE for its guard (R120, R121). -/
def Line.toRelease (l : Line) : Line := l.become .release (some Config.guardMs)

/-! ### The line enabled field -/

/-- The engine acts on its line's enabled field (R104). -/
def Part.takeLineEnable (n : LineNo) (on : Bool) (p : Part) : Part :=
  let l := p.line n
  if l.takenEnable = on then p
  else if on then
    p.moveLine n fun l =>
      let l := { l with takenEnable := true, disablePending := false }
      if l.state = .disabled then l.become .idle none else l
  else
    match l.state with
    | .idle | .office => p.moveLine n fun l => { l with takenEnable := false }.disable
    | .fault =>
      let p := p.moveLine n fun l => { l with takenEnable := false }.disable
      if p.mode.serving then p.tell (.condition (faultPoint n) false) else p
    | .breaking | .dialtone | .dialing | .ringback | .linked | .release =>
      p.moveLine n fun l => { l with takenEnable := false, disablePending := true }
    | .disabled => p.moveLine n fun l => { l with takenEnable := false }

/-! ### The end of a call -/

/-- The ways a call ends (R120). -/
inductive CallEnd where
  | complete
  | failed (why : FailReason)
  | preempted
  | aborted
deriving DecidableEq, Repr

/-- The outcome of a call is handed to the Report Queue; a call whose every report is delivered hands nothing
(R120 step 2, R152). -/
def Part.handOutcome (n : LineNo) (c : Call) (e : CallEnd) (p : Part) : Part :=
  if c.complete then p
  else match e with
    | .complete => p
    | .failed why => p.failCall n c why
    | .preempted => p.interruptCall n c .preempted
    | .aborted => p.interruptCall n c .aborted

/-- A call ends and its line takes its next state (R120); nothing when the line carries no call. -/
def Part.endCall (n : LineNo) (e : CallEnd) (next : Line → Line) (p : Part) : Part :=
  match (p.line n).call with
  | some c => (p.handOutcome n c e).moveLine n fun l => next { l with call := none }
  | none => p

/-- A call ends with a counted failure and the line goes to RELEASE. -/
def Part.failLine (n : LineNo) (why : FailReason) (p : Part) : Part := p.endCall n (.failed why) Line.toRelease

/-- An abort at one line (R123). -/
def Part.abortLine (n : LineNo) (p : Part) : Part := p.endCall n .aborted Line.toRelease

/-- An abort at every line (R123), in the order of the lines' numbers, the model's choice (log 41). -/
def Part.abortAll (p : Part) : Part := (List.finRange 4).foldl (fun q n => q.abortLine n) p

/-! ### Dialling -/

/-- The dial symbol in progress. -/
def Call.symbol (c : Call) : Option DialSymbol := c.dial[c.dialPos]?

/-- How long a dial symbol takes, or a WAIT waits (R99). -/
def DialSymbol.time : DialSymbol → Nat
  | .digit _ | .star | .hash => Config.toneSymbolMs
  | .pause => Config.pauseSymbolMs
  | .wait => Config.waitSymbolMs

/-- The line is in DIALING at a WAIT symbol. -/
def Line.inWait (l : Line) : Bool :=
  decide (l.state = .dialing) && (l.call.bind Call.symbol == some .wait)

/-- The line is in DIALING at another symbol. -/
def Line.inSymbol (l : Line) : Bool :=
  decide (l.state = .dialing) && ((l.call.bind Call.symbol).any (· ≠ .wait))

/-- Dialling goes on at a position of the string, or is over and RINGBACK begins (R117). Listening
carries on from DIALTONE and from a WAIT, and begins afresh otherwise (R111): a tone that goes on is not measured afresh, the
model's choice (log 25). -/
def Line.dialAt (pos : Nat) (l : Line) : Line :=
  match l.call with
  | some c =>
    let m :=
      match c.dial[pos]? with
      | some d => l.become .dialing (some d.time)
      | none => l.become .ringback (some Config.ringbackMs)
    { m with call := some { c with dialPos := pos }, detector := if l.inWait || l.state = .dialtone then l.detector else Detector.empty }
  | none => l

/-- The next dial symbol begins. -/
def Line.dialNext (l : Line) : Line := l.dialAt ((l.call.map (·.dialPos + 1)).getD 0)

/-! ### Offers -/

/-- A record may be taken with an offer to a destination: it is WAITING, carries no unrouted mark and resolves
there (R134). -/
def Part.takeable (p : Part) (d : DestNo) (r : Record) : Bool :=
  decide (r.state = .waiting) && !r.unrouted && decide (p.resolve r.route r.leg = d)

/-- The record with an admission number. -/
def Queue.byId (q : Queue) (id : Nat) : Option Record := q.records.find? (·.id = id)

/-- The records of an offer that may be taken now, in the offer's order (R134). -/
def Part.takeableOf (p : Part) (o : Offer) : List Record :=
  (o.records.filterMap p.queue.byId).filter (p.takeable o.dest)

/-- The most urgent priority of a list of records. -/
def urgent (start : Fin 8) (rs : List Record) : Fin 8 := rs.foldl (fun a r => min a r.priority) start

/-- The call context of a new call (R100, R113, R142). Of an entry that is not valid, the codes 14 and 15 and the slots
beyond the 24th are no symbols and are not copied, and account digits above 9 are copied as they stand (log 18). -/
def Part.newCall (p : Part) (d : DestNo) (rs : List Record) : Call :=
  { dest := d, account := p.account d, dial := (p.dialCodes d).filterMap dialSymbol, dialPos := 0
    reports := rs.map (·.slot), priority := urgent 7 rs, mark := p.arbiter.formations, endMark := false
    phase := .none, current := none, sequence := 0, sends := 0, delivered := 0, symbols := [] }

/-- A call is formed on a line with the records taken, in a break of a length (R114). -/
def Part.formCall (n : LineNo) (d : DestNo) (rs : List Record) (len : Nat) (p : Part) : Part :=
  let c := p.newCall d rs
  let p := { p with arbiter := { p.arbiter with formations := p.arbiter.formations + 1 } }
  (p.assign n 1 rs).moveLine n fun l => { l.become .breaking (some len) with call := some c }

/-- The break a grant gives in a line state; none when it is refused (R114). -/
def grantBreak : OfferKind → LineState → Option Nat
  | .idleGrant, .idle | .bargeGrant, .idle => some Config.shortBreakMs
  | .bargeGrant, .office => some Config.longBreakMs
  | _, _ => none

/-- An offer is a grant for a new call. -/
def Offer.isGrant (o : Offer) : Bool := decide (o.kind = .idleGrant ∨ o.kind = .bargeGrant)

/-- An engine answers a grant (R114, R134). The tests of R134 are the only ones made: an entry that has become invalid since
the offer was made is copied as its mirror holds it (R25, log 18). -/
def Part.takeGrant (n : LineNo) (p : Part) : Part :=
  match p.arbiter.offers[n] with
  | some o =>
    if o.isGrant then
      let q := p.setOffer n none
      match grantBreak o.kind (p.line n).state with
      | some len =>
        if (q.takeableOf o).isEmpty then q.occasion
        else q.formCall n o.dest (q.takeableOf o) len
      | none => q.occasion
    else p
  | none => p

/-- A call can be preempted in these states (R122, R133). -/
def LineState.preemptible : LineState → Bool
  | .breaking | .dialtone | .dialing | .ringback => true
  | .disabled | .idle | .office | .fault | .linked | .release => false

/-- An engine answers a preemption (R122, R134): the victim ends PREEMPTED and the new call is formed in a break
of 2 s. As for a grant, the tests of R134 are the only ones made (log 18). -/
def Part.takePreemption (n : LineNo) (p : Part) : Part :=
  match p.arbiter.offers[n] with
  | some o =>
    if o.kind = .preemption then
      let q := p.setOffer n none
      let rs := q.takeableOf o
      if !(q.line n).state.preemptible || rs.isEmpty then q.occasion
      else
        let q := match (q.line n).call with
          | some c => q.handOutcome n c .preempted
          | none => q
        q.formCall n o.dest rs Config.longBreakMs
    else p
  | none => p

/-- A call takes a join (R113, R129). -/
def Call.open (c : Call) (d : DestNo) : Bool :=
  decide (c.dest = d ∧ c.reports.length < Config.callPlaces) && !c.endMark

/-- One record of a join (R113, R134); the flag says that the call refused it. -/
def Part.joinOne (n : LineNo) (d : DestNo) (e : Part × Bool) (id : Nat) : Part × Bool :=
  let p := e.1
  match p.queue.byId id, (p.line n).call with
  | some r, some c =>
    if !p.takeable d r then e
    else if c.open d then
      ((p.assign n (c.reports.length + 1) [r]).setLine n ((p.line n).onCall fun c =>
        { c with reports := c.reports ++ [r.slot], priority := min c.priority r.priority }), e.2)
    else (p, true)
  | some r, none => if p.takeable d r then (p, true) else e
  | none, _ => e

/-- An engine answers a join, one record at a time in the offer's order (R113, R129, R134). -/
def Part.takeJoin (n : LineNo) (p : Part) : Part :=
  match p.arbiter.offers[n] with
  | some o =>
    if o.kind = .join then
      let q := p.setOffer n none
      let e := o.records.foldl (Part.joinOne n o.dest) (q, false)
      if e.2 || (q.takeableOf o).isEmpty then e.1.occasion else e.1
    else p
  | none => p

/-! ### Events -/

/-- The office sense of a line (R105): the debounce of IDLE counts assertion, that of OFFICE release. -/
def Line.setOffice (judged asserted : Bool) (l : Line) : Line :=
  if l.officeSense = asserted then l
  else
    { l with
      officeSense := asserted
      debounce :=
        if judged && ((decide (l.state = .idle) && asserted) || (decide (l.state = .office) && !asserted)) then some 0
        else none }

/-- The loop sense of a line (R107, R109, R110). -/
def Line.setLoop (judged present : Bool) (l : Line) : Line :=
  if l.loopSense = present then l
  else
    { l with
      loopSense := present
      loopLoss := if judged && !present && l.state.lossTimed then some 0 else none
      currentLoss := if judged && !present && l.state.offHook then some 0 else none
      presence := if judged && decide (l.state = .fault) then some 0 else none }

/-- The expiry of the loop-loss timer (R107, R108). Off-hook it has no effect of its own. -/
def Part.loopLossExpires (n : LineNo) (p : Part) : Part :=
  let l := p.line n
  if !reached l.loopLoss Config.loopLossMs then p
  else match l.state with
    | .idle | .office => p.enterFault n
    | .breaking =>
      match l.call with
      | some c =>
        let p := p.handOutcome n c (.failed .noDialTone)
        if l.disablePending then p.moveLine n Line.disable else p.enterFault n
      | none => p
    | .release => p.setLine n { l with lossExpired := true }
    | .dialtone | .dialing | .ringback | .linked | .disabled | .fault => p

/-- The end of the release guard (R121). -/
def Part.guardEnds (n : LineNo) (p : Part) : Part :=
  let l := p.line n
  if l.state ≠ .release ∨ !l.timeUp then p
  else if l.disablePending then p.moveLine n Line.disable
  else if l.lossExpired then p.enterFault n
  else p.moveLine n fun l => l.become l.bySense none

/-! ### Commands of this chapter -/

/-- GRANT_OFFER (R114, R134). -/
def execGrantOffer (n : LineNo) (s : State) : Host.Outcome State Fault Refusal :=
  .next { s with part := s.part.work (Part.takeGrant n) }

/-- PREEMPTION_OFFER (R122, R134). -/
def execPreemptionOffer (n : LineNo) (s : State) : Host.Outcome State Fault Refusal :=
  .next { s with part := s.part.work (Part.takePreemption n) }

/-- JOIN_OFFER (R113, R134). -/
def execJoinOffer (n : LineNo) (s : State) : Host.Outcome State Fault Refusal :=
  .next { s with part := s.part.work (Part.takeJoin n) }

/-- OFFICE_SENSE_CHANGE (R105): the pin changes always; a part that does not work judges no sense (R103). -/
def execOfficeSenseChange (n : LineNo) (asserted : Bool) (s : State) : Host.Outcome State Fault Refusal :=
  let p := s.part
  .next { s with part := p.setLine n ((p.line n).setOffice p.mode.live asserted) }

/-- OFFICE_USE_BEGINS (R105). -/
def execOfficeUseBegins (n : LineNo) (s : State) : Host.Outcome State Fault Refusal :=
  .next { s with part := s.part.work fun p =>
    let l := p.line n
    if l.state = .idle ∧ l.officeSense ∧ reached l.debounce Config.officeOnMs then p.moveLine n (Line.become .office none) else p }

/-- OFFICE_USE_ENDS (R105). -/
def execOfficeUseEnds (n : LineNo) (s : State) : Host.Outcome State Fault Refusal :=
  .next { s with part := s.part.work fun p =>
    let l := p.line n
    if l.state = .office ∧ !l.officeSense ∧ reached l.debounce Config.officeOffMs then p.moveLine n (Line.become .idle none) else p }

/-- LOOP_SENSE_CHANGE (R107): the pin changes always; a part that does not work judges no sense (R103). -/
def execLoopSenseChange (n : LineNo) (present : Bool) (s : State) : Host.Outcome State Fault Refusal :=
  let p := s.part
  .next { s with part := p.setLine n ((p.line n).setLoop p.mode.live present) }

/-- LOOP_LOSS_EXPIRY (R107, R108). -/
def execLoopLossExpiry (n : LineNo) (s : State) : Host.Outcome State Fault Refusal :=
  .next { s with part := s.part.work (Part.loopLossExpires n) }

/-- PRESENCE_TIMER_EXPIRY (R109). -/
def execPresenceTimerExpiry (n : LineNo) (s : State) : Host.Outcome State Fault Refusal :=
  .next { s with part := s.part.work fun p =>
    let l := p.line n
    if l.state = .fault ∧ l.loopSense ∧ reached l.presence Config.presenceMs then p.leaveFault n else p }

/-- FAR_CLEAR (R110). -/
def execFarClear (n : LineNo) (s : State) : Host.Outcome State Fault Refusal :=
  .next { s with part := s.part.work fun p =>
    if (p.line n).state.offHook && reached (p.line n).currentLoss Config.farClearMs then p.failLine n .farClear else p }

/-- BREAK_EXPIRY (R115). -/
def execBreakExpiry (n : LineNo) (s : State) : Host.Outcome State Fault Refusal :=
  .next { s with part := s.part.work fun p =>
    if (p.line n).state = .breaking ∧ (p.line n).timeUp then p.moveLine n (Line.become .dialtone (some Config.dialToneWaitMs)) else p }

/-- DIAL_TONE (R112, R116, R117). -/
def execDialTone (n : LineNo) (s : State) : Host.Outcome State Fault Refusal :=
  .next { s with part := s.part.work fun p =>
    if (p.line n).state = .dialtone then p.moveLine n (Line.dialAt 0)
    else if (p.line n).inWait then p.moveLine n Line.dialNext
    else p }

/-- DIAL_TONE_WAIT_EXPIRY (R116). -/
def execDialToneWaitExpiry (n : LineNo) (s : State) : Host.Outcome State Fault Refusal :=
  .next { s with part := s.part.work fun p =>
    if (p.line n).state = .dialtone ∧ (p.line n).timeUp then
      if p.blindDial n then p.moveLine n (Line.dialAt 0) else p.failLine n .noDialTone
    else p }

/-- DIAL_SYMBOL_END (R117). -/
def execDialSymbolEnd (n : LineNo) (s : State) : Host.Outcome State Fault Refusal :=
  .next { s with part := s.part.work fun p =>
    if (p.line n).inSymbol && (p.line n).timeUp then p.moveLine n Line.dialNext else p }

/-- WAIT_SYMBOL_EXPIRY (R117). -/
def execWaitSymbolExpiry (n : LineNo) (s : State) : Host.Outcome State Fault Refusal :=
  .next { s with part := s.part.work fun p =>
    if (p.line n).inWait && (p.line n).timeUp then p.failLine n .noDialTone else p }

/-- BUSY (R118). -/
def execBusy (n : LineNo) (s : State) : Host.Outcome State Fault Refusal :=
  .next { s with part := s.part.work fun p =>
    if (p.line n).state = .ringback then p.failLine n .busy else p }

/-- The Burst Engine takes a phase; an interval begins. -/
def Line.toPhase (ph : Phase) (timer : Nat) (l : Line) : Line :=
  { l.onCall (fun c => { c with phase := ph }) with timer := some timer }

/-- TURNAROUND (R144). Listening begins afresh after a sending only (R111). -/
def Line.turnaround (l : Line) : Line := l.toPhase .turnaround Config.turnaroundMs

/-- The detector finds no READY tone, and has found none for 50 ms (R143). -/
def Line.readyStopped (l : Line) : Bool := decide (Config.readyStopMs ≤ l.detector.readySilence)

/-- A line is LINKED and its Burst Engine is in HANDSHAKE, or in TURNAROUND at once where the READY tone has already stopped
(R118, R143). -/
def Line.link (l : Line) : Line :=
  let m := l.become .linked none
  if l.readyStopped then m.turnaround else m.toPhase .handshake Config.handshakeMs

/-- READY (R118, R143). -/
def execReady (n : LineNo) (s : State) : Host.Outcome State Fault Refusal :=
  .next { s with part := s.part.work fun p =>
    if (p.line n).state = .ringback then p.moveLine n Line.link else p }

/-- RINGBACK_EXPIRY (R118). -/
def execRingbackExpiry (n : LineNo) (s : State) : Host.Outcome State Fault Refusal :=
  .next { s with part := s.part.work fun p =>
    if (p.line n).state = .ringback ∧ (p.line n).timeUp then p.failLine n .noAnswer else p }

/-- RELEASE_GUARD_END (R121). -/
def execReleaseGuardEnd (n : LineNo) (s : State) : Host.Outcome State Fault Refusal :=
  .next { s with part := s.part.work (Part.guardEnds n) }

end Sys2Proof.Machine
end

