-- ==== Sys2Proof/Machine/Arbiter.lean ====
section
/-! DEFINITION. The Line Arbiter (07): eligibility and the decision. -/

namespace Sys2Proof.Machine

/-- The offers of a decision in progress: those in flight, the lines with a join offer made in this decision,
and the records named by it (R128). -/
structure Plan where
  offers : Vector (Option Offer) 4
  joins : List LineNo
  used : List Nat
deriving DecidableEq, Repr

/-- A record is named by an offer in flight (R125). -/
def Arbiter.names (a : Arbiter) (id : Nat) : Bool :=
  a.offers.toList.any fun o => match o with
    | some o => o.records.contains id
    | none => false

/-- Battery restriction allows a record (R126). -/
def Part.batteryAllows (p : Part) (r : Record) : Bool :=
  !p.time.mainsActive || (decide (r.priority.val ≤ p.batteryThreshold) && decide (r.sense ≠ .test))

/-- A record is eligible, point order apart (R125). -/
def Part.eligible (p : Part) (r : Record) : Bool :=
  decide (p.mode = .running) && p.mirrors.reload.isNone && decide (r.state = .waiting) &&
    !p.arbiter.names r.id && !r.unrouted && p.inForce r.route && !p.heldByBudget r.route && r.retry.isNone &&
    p.usable (p.resolve r.route r.leg) && p.batteryAllows r

/-- Service order: priority number ascending, then admission order (R62). -/
def serviceOrder (rs : List Record) : List Record :=
  (List.finRange 8).flatMap fun k => rs.filter (·.priority = k)

/-- The records of the call on a line and of the join offer made to it in this decision (R129). -/
def Plan.aboard (plan : Plan) (p : Part) (n : LineNo) : List Nat :=
  (p.queue.records.filter fun r => r.call.any (·.line = n)).map (·.id) ++
    (match plan.offers[n] with
      | some o => o.records
      | none => [])

/-- A record may join the call on a line (R129); the call's formation mark if it may. -/
def Plan.joinMark (plan : Plan) (p : Part) (r : Record) (n : LineNo) : Option Nat :=
  match (p.line n).call with
  | some c =>
    let waiting := match plan.offers[n] with
      | some o => o.records.length
      | none => 0
    if c.dest = p.resolve r.route r.leg ∧ !c.endMark ∧ c.reports.length + waiting < Config.callPlaces ∧
        (plan.offers[n].isNone ∨ n ∈ plan.joins) ∧ p.queue.mayAssign r (plan.aboard p n) then
      some c.mark
    else none
  | none => none

/-- The line to join: the call with the earliest formation mark (R129). -/
def Plan.joinLine (plan : Plan) (p : Part) (r : Record) : Option LineNo :=
  (List.finRange 4).foldl
    (fun best n => match plan.joinMark p r n, best.bind (plan.joinMark p r) with
      | some m, some b => if m < b then some n else best
      | some _, none => some n
      | none, _ => best) none

/-- A record is added to the join offer to a line (R129). -/
def Plan.join (plan : Plan) (p : Part) (r : Record) (n : LineNo) : Plan :=
  let o := match plan.offers[n] with
    | some o => { o with records := o.records ++ [r.id], priority := min o.priority r.priority }
    | none => { kind := .join, records := [r.id], dest := p.resolve r.route r.leg, priority := r.priority }
  { offers := plan.offers.set n (some o), joins := n :: plan.joins, used := r.id :: plan.used }

/-- The batch of a new call: the records gathered so far, and the walk through those that follow in service
order (R130). -/
def Part.gather (p : Part) (d : DestNo) (used : List Nat) : List Record → List Record → List Record
  | [], batch => batch
  | r :: rest, batch =>
    if batch.length < Config.callPlaces ∧ r.id ∉ used ∧ p.resolve r.route r.leg = d ∧
        p.queue.mayAssign r (batch.map (·.id)) then
      Part.gather p d used rest (batch ++ [r])
    else Part.gather p d used rest batch

/-- The lowest-numbered allowed idle line (R131). -/
def Plan.idleLine (plan : Plan) (p : Part) (d : DestNo) : Option LineNo :=
  (List.finRange 4).find? fun n =>
    p.destAllows d n && plan.offers[n].isNone && decide ((p.line n).state = .idle)

/-- The lowest-numbered allowed line to barge (R132). -/
def Plan.bargeLine (plan : Plan) (p : Part) (d : DestNo) (pr : Fin 8) : Option LineNo :=
  (List.finRange 4).find? fun n =>
    p.destAllows d n && plan.offers[n].isNone && decide ((p.line n).state = .office) &&
      (p.bargeThreshold n).any (pr.val ≤ ·)

/-- A call that can give way to a new one (R133). -/
def Plan.victim (plan : Plan) (p : Part) (d : DestNo) (pr : Fin 8) (n : LineNo) : Option Call :=
  match (p.line n).call with
  | some c =>
    if p.destAllows d n ∧ plan.offers[n].isNone ∧ (p.line n).state.preemptible ∧ pr < c.priority then some c else none
  | none => none

/-- The line to preempt: the greatest priority number, then the latest formation mark (R133). -/
def Plan.victimLine (plan : Plan) (p : Part) (d : DestNo) (pr : Fin 8) : Option LineNo :=
  (List.finRange 4).foldl
    (fun best n => match plan.victim p d pr n, best.bind (plan.victim p d pr) with
      | some c, some b => if b.priority < c.priority ∨ (b.priority = c.priority ∧ b.mark < c.mark) then some n else best
      | some _, none => some n
      | none, _ => best) none

/-- The line and the kind of offer a new call finds: idle, barge, preemption, in that order (R128). -/
def Plan.lineFor (plan : Plan) (p : Part) (d : DestNo) (pr : Fin 8) : Option (LineNo × OfferKind) :=
  match plan.idleLine p d with
  | some n => some (n, .idleGrant)
  | none =>
    match plan.bargeLine p d pr with
    | some n => some (n, .bargeGrant)
    | none => (plan.victimLine p d pr).map fun n => (n, .preemption)

/-- One record is judged (R128): a join, or a new call with its batch, or it waits. -/
def Plan.judge (plan : Plan) (p : Part) (r : Record) (rest : List Record) : Plan :=
  match plan.joinLine p r with
  | some n => plan.join p r n
  | none =>
    let d := p.resolve r.route r.leg
    match plan.lineFor p d r.priority with
    | some (n, kind) =>
      if p.queue.mayAssign r [] then
        let ids := (p.gather d plan.used rest [r]).map (·.id)
        { plan with
          offers := plan.offers.set n (some { kind, records := ids, dest := d, priority := r.priority })
          used := ids ++ plan.used }
      else plan
    | none => plan

/-- The eligible records are judged in service order (R128). -/
def Part.decideFrom (p : Part) : List Record → Plan → Plan
  | [], plan => plan
  | r :: rest, plan =>
    if plan.used.contains r.id then Part.decideFrom p rest plan
    else Part.decideFrom p rest (plan.judge p r rest)

/-- A decision (R127, R128): the mark is cleared and the offers are made. -/
def Part.decision (p : Part) : Part :=
  if p.arbiter.decisionPending then
    let plan := p.decideFrom (serviceOrder (p.queue.records.filter p.eligible))
      { offers := p.arbiter.offers, joins := [], used := [] }
    { p with arbiter := { p.arbiter with decisionPending := false, offers := plan.offers } }
  else p

/-- DECISION (R128). -/
def execDecision (s : State) : Host.Outcome State Fault Refusal :=
  .next { s with part := s.part.serve Part.decision }

end Sys2Proof.Machine
end

