-- ==== Sys2Proof/Machine/Burst.lean ====
section
/-! DEFINITION. The Burst Engine (08): the burst and its check, the handshake, sending, the answer window, the end
symbol. -/

namespace Sys2Proof.Machine

/-- The sense symbol of a burst: A, B or C (R140). -/
def Sense.symbol : Sense → Nat
  | .active => 10
  | .normal => 11
  | .test => 12

/-- A number below 1000 as three decimal digits, hundreds first. -/
def threeDigits (n : Nat) : List Nat := [n / 100 % 10, n / 10 % 10, n % 10]

/-- The symbols at positions 2 to 16 of a burst (R140). -/
def burstBody (account : List Nat) (sequence : Nat) (r : Record) : List Nat :=
  account ++ [sequence, r.sense.symbol] ++ threeDigits r.code.toNat ++ threeDigits r.point.val ++ [r.fold]

/-- The check: the sum of positions 2 to 16 modulo 97 (R141). -/
def burstCheck (body : List Nat) : Nat := body.sum % 97

/-- The 18 symbols of a burst (R140); the lead is `*`, of value 14. -/
def burst (account : List Nat) (sequence : Nat) (r : Record) : List Nat :=
  let body := burstBody account sequence r
  14 :: body ++ [burstCheck body / 10, burstCheck body % 10]

/-- The end symbol pair `#` `#` (R148). -/
def endSymbols : List Nat := [15, 15]

/-- The Burst Engine of a line in LINKED is in a phase. -/
def Part.inPhase (p : Part) (n : LineNo) (ph : Phase) : Bool :=
  decide ((p.line n).state = .linked) && (p.line n).call.any (·.phase = ph)

/-- A sending begins (R139): the detector does not listen. -/
def Line.send (symbols : List Nat) (f : Call → Call) (l : Line) : Line :=
  { l.onCall (fun c => { f c with symbols }) with
    timer := some (Config.burstSymbolMs * symbols.length), detector := Detector.empty }

/-- The burst of the record in a slot, as the queue holds it at the beginning of the sending (R140). -/
def Part.burstOf (p : Part) (c : Call) (sequence : Nat) (slot : SlotNo) : List Nat :=
  match p.queue.inSlot slot with
  | some r => burst c.account sequence r
  | none => []

/-- The end of the turnaround: the current report again, the next report, or the end symbol (R144, R148). -/
def Part.turnaroundEnds (n : LineNo) (p : Part) : Part :=
  match (p.line n).call with
  | some c =>
    match c.current with
    | some slot =>
      if c.sends < Config.maxSends then
        p.setLine n ((p.line n).send (p.burstOf c c.sequence slot) fun c =>
          { c with phase := .sending, sends := c.sends + 1 })
      else p
    | none =>
      match c.reports[c.delivered]? with
      | some slot =>
        (p.setLine n ((p.line n).send (p.burstOf c (c.delivered + 1) slot) fun c =>
          { c with phase := .sending, current := some slot, sequence := c.delivered + 1, sends := 1 })).markSending slot
      | none =>
        p.setLine n ((p.line n).send endSymbols fun c => { c with phase := .ending, endMark := true })
  | none => p

/-- The current report is acknowledged (R146): the delivery, then TURNAROUND. -/
def Part.acknowledge (n : LineNo) (p : Part) : Part :=
  match (p.line n).call with
  | some c =>
    match c.current with
    | some slot =>
      let q := p.deliver n c.dest slot
      q.setLine n ((q.line n).onCall fun c =>
        { c with delivered := c.delivered + 1, current := none, sends := 0 }).turnaround
    | none => p
  | none => p

/-- The current report is not acknowledged: it is sent again, or the call ends NO_ACK after the third send
(R147). -/
def Part.unanswered (n : LineNo) (p : Part) : Part :=
  match (p.line n).call with
  | some c =>
    if c.sends < Config.maxSends then p.setLine n (p.line n).turnaround else p.failLine n .noAck
  | none => p

/-- A step of the Burst Engine of a line in a phase. -/
def Part.inPhaseDo (n : LineNo) (ph : Phase) (f : Part → Part) (p : Part) : Part :=
  if p.inPhase n ph then f p else p

/-- A step of the Burst Engine at the end of the interval of its phase. -/
def Part.afterPhaseDo (n : LineNo) (ph : Phase) (f : Part → Part) (p : Part) : Part :=
  if (p.line n).timeUp then p.inPhaseDo n ph f else p

/-- The answer window opens (R145). -/
def Part.openWindow (n : LineNo) (p : Part) : Part := p.setLine n ((p.line n).toPhase .window Config.windowMs)

/-- The window closes unless the detector measures a burst (R145). -/
def Part.windowCloses (n : LineNo) (p : Part) : Part :=
  if (p.line n).detector.burst.measuring then p else p.unanswered n

/-! ### The tone on the line -/

/-- The symbol a line is sending and the ms since it began: a symbol of the dial string in DIALING, or of the sending in
progress in LINKED (R99, R139). -/
def Line.symbolNow (l : Line) : Option (Nat × Nat) :=
  match l.timer, l.call with
  | some left, some c =>
    match l.state, c.phase with
    | .dialing, _ => (c.symbol.bind DialSymbol.value).map fun v => (v, Config.toneSymbolMs - left)
    | .linked, .sending | .linked, .ending =>
      let spent := Config.burstSymbolMs * c.symbols.length - left
      c.symbols[spent / Config.burstSymbolMs]?.map fun v => (v, spent % Config.burstSymbolMs)
    | _, _ => none
  | _, _ => none

/-- How long the tone of a symbol lasts, from its beginning: 80 ms while dialling, 50 ms in a sending (R99, R139). -/
def Line.toneMs (l : Line) : Nat := if l.state = .dialing then Config.dialToneMs else Config.burstToneMs

/-- The dual tone the part puts on a line now: low and high frequency in Hz, or none (R99, R117, R139). -/
def Line.toneOut (l : Line) : Option (Nat × Nat) :=
  match l.symbolNow with
  | some (v, spent) => if spent < l.toneMs then some (symbolTones (Fin.ofNat 16 v)) else none
  | none => none

/-! ### Commands of this chapter -/

/-- READY_TONE_STOPPED (R143). -/
def execReadyToneStopped (n : LineNo) (s : State) : Host.Outcome State Fault Refusal :=
  .next { s with part := s.part.work (Part.inPhaseDo n .handshake fun p => p.setLine n (p.line n).turnaround) }

/-- HANDSHAKE_EXPIRY (R143). -/
def execHandshakeExpiry (n : LineNo) (s : State) : Host.Outcome State Fault Refusal :=
  .next { s with part := s.part.work (Part.afterPhaseDo n .handshake (Part.failLine n .noAck)) }

/-- TURNAROUND_END (R144). -/
def execTurnaroundEnd (n : LineNo) (s : State) : Host.Outcome State Fault Refusal :=
  .next { s with part := s.part.work (Part.afterPhaseDo n .turnaround (Part.turnaroundEnds n)) }

/-- BURST_SENDING_END (R145). -/
def execBurstSendingEnd (n : LineNo) (s : State) : Host.Outcome State Fault Refusal :=
  .next { s with part := s.part.work (Part.afterPhaseDo n .sending (Part.openWindow n)) }

/-- ACK (R146). -/
def execAck (n : LineNo) (s : State) : Host.Outcome State Fault Refusal :=
  .next { s with part := s.part.work (Part.inPhaseDo n .window (Part.acknowledge n)) }

/-- REPEAT (R147). -/
def execRepeatToken (n : LineNo) (s : State) : Host.Outcome State Fault Refusal :=
  .next { s with part := s.part.work (Part.inPhaseDo n .window (Part.unanswered n)) }

/-- WINDOW_EXPIRY (R145, R147). -/
def execWindowExpiry (n : LineNo) (s : State) : Host.Outcome State Fault Refusal :=
  .next { s with part := s.part.work (Part.afterPhaseDo n .window (Part.windowCloses n)) }

/-- END_SYMBOL_END (R148): the call ends complete. -/
def execEndSymbolEnd (n : LineNo) (s : State) : Host.Outcome State Fault Refusal :=
  .next { s with part := s.part.work (Part.afterPhaseDo n .ending (Part.endCall n .complete Line.toRelease)) }

end Sys2Proof.Machine
end

