-- ==== Sys2Proof/Machine/Points.lean ====
section
/-! DEFINITION. The Point Engine (03): capture, requests, notices, virtual points, group writes, the owed sweep
and ADOPT BASELINE. -/

namespace Sys2Proof.Machine

/-! ### Shadow entries -/

/-- Changes one shadow entry. -/
def Part.onShadow (i : PointNo) (f : Shadow → Shadow) (p : Part) : Part := p.setShadow i (f (p.shadow i))

/-- The engine derives a point's report status again and enters its word when it differs (R41). -/
def Part.restatus (i : PointNo) (p : Part) : Part :=
  if (p.shadow i).status = p.derivedStatus i then p
  else Part.enter .pointEngine (statusOffset i)
    (p.onShadow i fun s => { s with status := p.derivedStatus i })

/-- Marks a point OWED or clears the mark; point 263 is never OWED (R41, R56). -/
def Part.setOwed (i : PointNo) (b : Bool) (p : Part) : Part :=
  p.onShadow i fun s => { s with owed := b && decide (i.val < 263) }

/-- Marks a point OWED and derives its status again (R56, R41). -/
def Part.oweNow (i : PointNo) (p : Part) : Part := (p.setOwed i true).restatus i

/-- A virtual point's condition as its holder holds it (R52). -/
def Part.condition (p : Part) (i : PointNo) : Bool :=
  match i.val with
  | 256 => p.heartbeat.silent
  | 257 => p.time.mainsActive
  | 258 => (p.line 0).state = .fault
  | 259 => (p.line 1).state = .fault
  | 260 => (p.line 2).state = .fault
  | 261 => (p.line 3).state = .fault
  | 262 => p.points.latch
  | _ => false

/-- Intended of NONE. -/
def Intended.none : Intended := Shadow.empty.intended

/-- Intended as the translation of a state code gives it, with the route chosen by R48; nothing for IGNORE
(R47). -/
def Part.translated (p : Part) (i : PointNo) (code : BitVec 6) : Option Intended :=
  let c := p.pointClass i
  let s := code.toNat
  if p.transSense c s = 0 then Option.none
  else
    let ch := p.chooseRoute (p.transRoute c s)
    some { sense := p.transSense c s, code := p.transCode c s, priority := p.transPriority c s
           route := ch.1, unrouted := ch.2 }

/-- Intended of a virtual point from a condition and its record (R52). -/
def Part.virtualIntended (p : Part) (i : PointNo) (active : Bool) : Intended :=
  let v := virtualNo i
  let ch := p.chooseRoute (p.virtualRoute v)
  { sense := if active then 1 else 2, code := p.virtualCode v, priority := p.virtualPriority v
    route := ch.1, unrouted := ch.2 }

/-- A shadow with its processed state set and translated; IGNORE leaves intended, or sets `ignored`
(R47, R54, R57). -/
def Part.processedAs (p : Part) (i : PointNo) (code : BitVec 6) (ignored : Option Intended) (s : Shadow) : Shadow :=
  { s with processed := code, intended := (p.translated i code).getD (ignored.getD s.intended) }

/-- Intended set afresh from the present state: a real point's state code, or a virtual point's condition and
record (R54, R57, R59). -/
def Part.refresh (ignored : Option Intended) (i : PointNo) (p : Part) : Part :=
  if isReal i then p.onShadow i (p.processedAs i (p.stateCode i) ignored)
  else if i.val < 263 then p.onShadow i fun s => { s with intended := p.virtualIntended i (p.condition i) }
  else p

/-- The report intended calls for, if any (R40). -/
def Part.callsFor (p : Part) (i : PointNo) : Option Request :=
  let n := (p.shadow i).intended
  let c := p.committed i
  if n.sense = 1 then
    if c.1 ≠ 1 ∨ c.2 ≠ n.code then
      some { point := i, sense := .active, code := n.code, priority := n.priority, route := n.route
             unrouted := n.unrouted }
    else Option.none
  else if n.sense = 2 then
    if c.1 = 1 then
      some { point := i, sense := .normal, code := c.2, priority := n.priority, route := n.route
             unrouted := n.unrouted }
    else Option.none
  else Option.none

/-- The engine makes the request intended calls for, if any; a refusal marks the point OWED (R49). -/
def Part.makeRequest (i : PointNo) (p : Part) : Part :=
  match p.callsFor i with
  | some rq =>
    match p.request rq with
    | (q, .refused) => q.oweNow i
    | (q, _) => q.restatus i
  | Option.none => p

/-! ### Capture -/

/-- Replaces the FIFO; OVERRUN ends when it becomes empty (R46). -/
def Part.setFifo (f : List Capture) (p : Part) : Part :=
  { p with points := { p.points with fifo := f, overrun := p.points.overrun && !f.isEmpty } }

/-- OVERRUN begins at a capture (R45, R172). The change of condition 262 is a piece of the engine's work and waits in its turn;
the latch is ACTIVE at once (R165, log 40). -/
def Part.beginOverrun (i : PointNo) (code : BitVec 6) (p : Part) : Part :=
  let p := p.oweNow i
  let p := { p with points := { p.points with overrun := true, latch := true } }
  let p := p.logNow { kind := .overrun, point := BitVec.ofNat 9 i.val, code := code.setWidth 10 }
  Part.tell (.condition 262 true) (p.raise .overrun)

/-- A capture (R44, R45, R46). -/
def Part.capture (i : PointNo) (code : BitVec 6) (p : Part) : Part :=
  if p.points.overrun then p.oweNow i
  else if p.points.fifo.length < Config.fifoPlaces then
    { p with points := { p.points with fifo := p.points.fifo ++ [{ point := i, code }] } }
  else p.beginOverrun i code

/-- The engine takes the oldest FIFO entry (R47). -/
def Part.takeFifo (p : Part) : Part :=
  match p.points.fifo with
  | [] => p
  | c :: rest =>
    let p := p.setFifo rest
    let ignored := (p.translated c.point c.code).isNone
    let p := p.onShadow c.point (p.processedAs c.point c.code Option.none)
    if ignored || (p.shadow c.point).isolated then p else p.makeRequest c.point

/-! ### Isolation -/

/-- Sets or clears isolated and enters the point's w1 (R39). -/
def Part.setIsolated (i : PointNo) (b : Bool) (p : Part) : Part :=
  Part.enter .pointEngine (statusOffset i) (p.onShadow i fun s => { s with isolated := b })

/-- ISOLATE on one point (R55). The lock and the class are judged when the engine comes to the point, the model's choice
(log 33). -/
def Part.isolatePoint (i : PointNo) (p : Part) : Part :=
  if p.classLocked (p.pointClass i) || (p.shadow i).isolated then p
  else (((p.setIsolated i true).setOwed i false).withdrawPoint i).restatus i

/-- DEISOLATE on one point (R56). -/
def Part.deisolatePoint (i : PointNo) (p : Part) : Part :=
  let p := if (p.shadow i).isolated then p.setIsolated i false else p
  if p.pointEnabled i then p.oweNow i else p

/-- RESCAN on one point (R56). -/
def Part.rescanPoint (i : PointNo) (p : Part) : Part :=
  if p.pointEnabled i && !(p.shadow i).isolated then p.oweNow i else p

/-- A group action on one point (R24). -/
def Part.groupPoint : GroupAction → PointNo → Part → Part
  | .isolate => Part.isolatePoint
  | .deisolate => Part.deisolatePoint
  | .rescan => Part.rescanPoint

/-! ### ADOPT BASELINE -/

/-- The baseline of one point (R59). Intended calls for a report only where a record in a call, or a delivery of one that
waits (log 39), has set committed otherwise. -/
def Part.baseline (i : PointNo) (p : Part) : Part :=
  let p := if isReal i && !p.pointEnabled i then p else p.refresh Option.none i
  let p := p.withdrawPoint i
  let n := (p.shadow i).intended
  let p := p.onShadow i fun s =>
    { s with delivered := { sense := n.sense, fold := 0, code := if n.sense = 0 then 0 else n.code } }
  let p := p.setOwed i (p.callsFor i).isSome
  let p := p.restatus i
  Part.enterAll .pointEngine [statusOffset i, codeOffset i] p

/-- The FIFO is taken until it is empty or the engine has to wait; the number bounds the takings (R59). -/
def Part.drainFifo : Nat → Part → Part
  | 0, p => p
  | n + 1, p => if p.engineWaits || p.points.fifo.isEmpty then p else Part.drainFifo n p.takeFifo

/-- The latch of point 262 is its condition (R165). -/
def Part.latchAs (i : PointNo) (active : Bool) (p : Part) : Part :=
  if i = 262 then { p with points := { p.points with latch := active } } else p

/-- A change of a virtual point's condition (R52). The latch of point 262 becomes what the change says: where CLEAR TROUBLE has
been taken since OVERRUN began, the beginning makes it ACTIVE again (R165, log 40). -/
def Part.takeCondition (i : PointNo) (active : Bool) (p : Part) : Part :=
  let p := (p.onShadow i fun s => { s with intended := p.virtualIntended i active }).latchAs i active
  if p.pointEnabled i then p.makeRequest i else p

/-- CLEAR TROUBLE in the Point Engine: the latch ends once OVERRUN has ended, and the condition of point 262 changes (R165). -/
def Part.clearLatch (p : Part) : Part :=
  if p.points.latch && !p.points.overrun then p.takeCondition 262 false else p

/-- One part of a piece of work. -/
def Part.doOp : PointOp → Part → Part
  | .group a i, p => p.groupPoint a i
  | .drainFifo, p => p.drainFifo Config.fifoPlaces
  | .baseline i, p => p.baseline i
  | .clearLatch, p => p.clearLatch
  | .commandDone, p => p.complete .done

/-- A piece of work is done part by part until it is done or the engine has to wait for a place in the
write-back queue (03 section 3.3). -/
def Part.runOps : List PointOp → Part → Part
  | [], p => { p with points := { p.points with todo := [] } }
  | op :: rest, p =>
    if p.engineWaits then { p with points := { p.points with todo := op :: rest } }
    else
      let q := p.doOp op
      if op = .drainFifo ∧ q.points.fifo ≠ [] then { q with points := { q.points with todo := op :: rest } }
      else Part.runOps rest q

/-- The parts of ADOPT BASELINE (R59); the points in ascending order, the model's choice (log 42). -/
def baselineOps : List PointOp :=
  .drainFifo :: ((List.finRange 263).map fun i => .baseline i.castSucc) ++ [.commandDone]

/-- The parts of CLEAR TROUBLE: the latch, and then the result (R165). -/
def clearTroubleOps : List PointOp := [.clearLatch, .commandDone]

/-! ### Pieces of work -/

/-- The engine takes a new piece of work: it is in none, and it does not wait (03 section 3.3). -/
def Part.engineFree (p : Part) : Bool := p.points.todo.isEmpty && !p.engineWaits

/-- The two pieces with no row of their own, ADOPT BASELINE and CLEAR TROUBLE, are taken as soon as they are
the oldest that waits and the engine is free (log 10). -/
def Part.pump (p : Part) : Part :=
  if p.engineFree then
    match p.points.work with
    | .adopt :: ws => Part.runOps baselineOps { p with points := { p.points with work := ws } }
    | .clearTrouble :: ws => Part.runOps clearTroubleOps { p with points := { p.points with work := ws } }
    | _ => p
  else p

/-- The engine goes on with the piece it is in, if it no longer waits. -/
def Part.resume (p : Part) : Part := if p.engineWaits then p else (Part.runOps p.points.todo p).pump

/-- The engine takes the oldest waiting piece of work, if `f` says what that piece does. -/
def Part.takeWork (f : Work → Option (Part → Part)) (p : Part) : Part :=
  if p.engineFree then
    match p.points.work with
    | w :: ws =>
      match f w with
      | some g => (g { p with points := { p.points with work := ws } }).pump
      | Option.none => p
    | [] => p
  else p

/-- A point is disabled (R54). -/
def Part.disablePoint (i : PointNo) (p : Part) : Part :=
  let p := p.setFifo (p.points.fifo.filter (·.point ≠ i))
  ((p.setOwed i false).withdrawPoint i).restatus i

/-- A point is enabled (R54). -/
def Part.enablePoint (i : PointNo) (p : Part) : Part := (p.refresh (some Intended.none) i).oweNow i

/-- A group write is taken (R55, R56). -/
def Part.takeGroup (a : GroupAction) (is : List PointNo) (p : Part) : Part := Part.runOps (is.map (.group a)) p

/-- A TEST request (R53, R158). -/
def Part.takeTest (r : RouteNo) (command : Bool) (p : Part) : Part :=
  let q :=
    if p.virtualEnabled 7 then
      let ch := p.chooseRoute r
      Part.restatus 263 (p.request
        { point := 263, sense := .test, code := p.virtualCode 7, priority := p.virtualPriority 7
          route := ch.1, unrouted := ch.2 }).1
    else p
  if command then q.complete .done else q

/-- A delivery (R50): the delivered part is set for ACTIVE and NORMAL; the addresses of the delivery that did not fit follow
the point's own, one at a time (R12, R77). -/
def Part.takeDelivery (i : PointNo) (sense : BitVec 2) (code : BitVec 10) (fold : BitVec 4) (words : List Nat) (p : Part) :
    Part :=
  let p :=
    if sense = 1 ∨ sense = 2 then
      Part.enterAll .pointEngine [statusOffset i, codeOffset i]
        (p.onShadow i fun s => { s with delivered := { sense, fold, code } })
    else p
  (p.restatus i).enterAll .pointEngine words

/-- A notice of the Report Queue (R51): an eviction marks the point OWED; a return or an exhaustion of an
isolated or disabled point is withdrawn. -/
def Part.takeNotice (k : NoticeKind) (i : PointNo) (p : Part) : Part :=
  match k with
  | .eviction => p.oweNow i
  | .returned | .exhaustion =>
    if (p.shadow i).isolated || !p.pointEnabled i then (p.withdrawPoint i).restatus i else p.restatus i
  | .withdrawal | .assignment | .release | .merged => p.restatus i

/-! ### The owed sweep -/

/-- The next owed point: the lowest at or above the position, else the lowest (R58). -/
def Points.nextOwed (q : Points) : Option PointNo :=
  let owed (i : PointNo) : Bool := q.shadows[i].owed
  match (List.finRange 264).find? fun i => decide (q.sweepPos ≤ i.val) && owed i with
  | some i => some i
  | Option.none => (List.finRange 264).find? owed

/-- A sweep step may be made (R58, and 03 section 3.3: no other piece waits). -/
def Part.maySweep (p : Part) : Bool :=
  p.engineFree && p.points.work.isEmpty && p.points.fifo.isEmpty &&
    decide (p.queue.count < Config.queuePlaces)

/-- A sweep step on one point (R57). -/
def Part.sweepPoint (i : PointNo) (p : Part) : Part :=
  let p := p.setOwed i false
  if p.pointEnabled i && !(p.shadow i).isolated then ((p.refresh Option.none i).makeRequest i).restatus i
  else p.restatus i

/-- A step of the owed sweep (R57, R58). -/
def Part.sweep (p : Part) : Part :=
  match p.maySweep, p.points.nextOwed with
  | true, some i =>
    let q := p.sweepPoint i
    { q with points := { q.points with sweepPos := if i.val < 262 then i.val + 1 else 0 } }
  | _, _ => p

/-- The engine takes a FIFO entry when it is free. Entries are not ordered against the other pieces of work
(log 9). -/
def Part.fifoStep (p : Part) : Part := if p.engineFree then p.takeFifo.pump else p

/-! ### The end of LOAD and of RELOAD -/

/-- A shadow entry at stage 4 of LOAD (R42, R36). -/
def Part.rebuilt (p : Part) (i : PointNo) : Shadow :=
  let s := p.shadow i
  let on := p.pointEnabled i
  let owed := on && decide (i.val < 263)
  let s :=
    if isReal i then p.processedAs i (p.stateCode i) (some Intended.none) s
    else if i.val < 263 then { s with intended := p.virtualIntended i (p.condition i) }
    else s
  { s with owed, status := if !on then 5 else if owed then 3 else 0 }

/-- Stage 4 of LOAD: every entry is built (R36, R42). -/
def Part.rebuildPoints (p : Part) : Part :=
  { p with points := { p.points with shadows := tabulate p.rebuilt } }

/-- Every enabled point 0 to 262 is marked OWED (R38). -/
def Part.oweAll (p : Part) : Part :=
  (List.finRange 264).foldl
    (fun q i => if q.pointEnabled i && decide (i.val < 263) then q.oweNow i else q) p

/-! ### Commands of this chapter -/

/-- POINT_ENABLE (R54). -/
def execPointEnable (s : State) : Host.Outcome State Fault Refusal :=
  .next { s with part := s.part.serve (Part.takeWork fun
    | .enable i => some (Part.enablePoint i)
    | _ => Option.none) }

/-- ISOLATE (R55). -/
def execIsolate (s : State) : Host.Outcome State Fault Refusal :=
  .next { s with part := s.part.serve (Part.takeWork fun
    | .group .isolate is => some (Part.takeGroup .isolate is)
    | _ => Option.none) }

/-- DEISOLATE (R56). -/
def execDeisolate (s : State) : Host.Outcome State Fault Refusal :=
  .next { s with part := s.part.serve (Part.takeWork fun
    | .group .deisolate is => some (Part.takeGroup .deisolate is)
    | _ => Option.none) }

/-- RESCAN (R56). -/
def execRescan (s : State) : Host.Outcome State Fault Refusal :=
  .next { s with part := s.part.serve (Part.takeWork fun
    | .group .rescan is => some (Part.takeGroup .rescan is)
    | _ => Option.none) }

/-- OWED_SWEEP_STEP (R57, R58). -/
def execOwedSweepStep (s : State) : Host.Outcome State Fault Refusal :=
  .next { s with part := s.part.serve Part.sweep }

/-- CONDITION_CHANGE (R52). -/
def execConditionChange (s : State) : Host.Outcome State Fault Refusal :=
  .next { s with part := s.part.serve (Part.takeWork fun
    | .condition i active => some (Part.takeCondition i active)
    | _ => Option.none) }

/-- TEST_REQUEST (R53). -/
def execTestRequest (s : State) : Host.Outcome State Fault Refusal :=
  .next { s with part := s.part.serve (Part.takeWork fun
    | .test r command => some (Part.takeTest r command)
    | _ => Option.none) }

/-- DELIVERY_NOTICE (R50). -/
def execDeliveryNotice (s : State) : Host.Outcome State Fault Refusal :=
  .next { s with part := s.part.serve (Part.takeWork fun
    | .delivery i sense code fold words => some (Part.takeDelivery i sense code fold words)
    | _ => Option.none) }

/-- QUEUE_NOTICE (R51). -/
def execQueueNotice (s : State) : Host.Outcome State Fault Refusal :=
  .next { s with part := s.part.serve (Part.takeWork fun
    | .notice k i => some (Part.takeNotice k i)
    | _ => Option.none) }

end Sys2Proof.Machine
end

