-- ==== Sys2Proof/Machine/Time.lean ====
section
/-! DEFINITION. The Time Base, the Heartbeat Monitor, the mains supervision and the TROUBLE pulse (09). -/

namespace Sys2Proof.Machine

/-- A step of a block that works whenever the part has power; a part that is also live settles (R154, R162). -/
def Part.powered (f : Part → Part) (p : Part) : Part :=
  match p.mode with
  | .off => p
  | .xrst | .bypass => f p
  | .loading | .unconfigured | .stopped | .running => Part.settle p (f p)

/-! ### The clock and the test schedule -/

/-- The time of day one second later (R154). -/
def TimeBase.advance (t : TimeBase) : TimeBase :=
  if t.second < 59 then { t with second := t.second + 1, elapsedMs := 0 }
  else if t.minute < 1439 then { t with second := 0, minute := t.minute + 1, elapsedMs := 0 }
  else { t with second := 0, minute := 0, day := t.day + 1, elapsedMs := 0 }

/-- The next test day is set afresh (R156). -/
def Part.setNextTest (p : Part) : Part :=
  let day :=
    if testInterval (p.mirror 0x007) = 0 then none
    else if p.time.minute < testMinute (p.mirror 0x006) then some p.time.day
    else some (p.time.day + 1)
  { p with time := { p.time with nextTest := day } }

/-- A test falls due at a change of minute (R157). -/
def Part.testDue (p : Part) : Part :=
  if p.mode.serving && decide (p.time.minute = testMinute (p.mirror 0x006) ∧ p.time.nextTest = some p.time.day) then
    Part.tell (.test (p.virtualRoute 7) false)
      { p with time := { p.time with
        nextTest := some (p.time.day + BitVec.ofNat 16 (testInterval (p.mirror 0x007))) } }
  else p

/-- The three time words are entered (R154). -/
def Part.enterTime (p : Part) : Part := p.enterAll .timeBase [0x01A, 0x01B, 0x01C]

/-- A second elapses (R154, R157). -/
def Part.secondPasses (p : Part) : Part :=
  if p.time.elapsedMs < Config.secondMs then p
  else
    let q := { p with time := p.time.advance }
    if q.time.second = 0 then q.enterTime.testDue else q

/-- The time set words are judged and loaded (R155). -/
def Part.setClock (day minute second : Word) (p : Part) : Part :=
  if 1439 < field minute 0 11 ∨ 59 < field second 0 6 then p.complete .badArgument
  else
    let p := { p with time := { p.time with
      day, minute := field minute 0 11, second := field second 0 6, elapsedMs := 0 } }
    let p := p.enterTime
    let p := if p.mode.serving then p.setNextTest else p
    p.complete .done

/-! ### The Heartbeat Monitor -/

/-- The heartbeat timer and the panel silent condition are set; a change of the condition is told (R160). -/
def Part.setHeartbeat (timer : Option Nat) (silent : Bool) (p : Part) : Part :=
  let q := { p with heartbeat := { timer, silent } }
  if silent = p.heartbeat.silent then q else q.tell (.condition 256 silent)

/-- The timer running from zero, or stopped with a period of 0. -/
def Part.freshTimer (p : Part) : Option Nat := if p.heartbeatPeriod = 0 then none else some 0

/-- A heartbeat (R160). -/
def Part.beat (p : Part) : Part := p.setHeartbeat p.freshTimer false

/-- The heartbeat period has changed (R161). -/
def Part.periodChanged (p : Part) : Part :=
  if p.heartbeatPeriod = 0 then p.setHeartbeat none false
  else if p.heartbeat.silent then p
  else p.setHeartbeat (some 0) false

/-- The heartbeat timer reaches the period and expires; a heartbeat taken before has restarted it, and then the expiry does
not happen (R160). -/
def Part.heartbeatExpires (p : Part) : Part :=
  if reached p.heartbeat.timer (Config.secondMs * p.heartbeatPeriod) then
    Part.setHeartbeat none true (p.raise .heartbeat)
  else p

/-! ### Mains supervision -/

/-- The mains timer runs from zero while input and condition disagree (R162). -/
def TimeBase.restartMains (t : TimeBase) : TimeBase :=
  { t with mainsTimer := if t.mainsLost = t.mainsActive then none else some 0 }

/-- The MAINS LOST input changes (R162). -/
def TimeBase.setMainsLost (asserted : Bool) (t : TimeBase) : TimeBase :=
  if t.mainsLost = asserted then t else { t with mainsLost := asserted }.restartMains

/-- The mains timer reaches 60 s: the condition changes and is told; 017H is entered in every communicator state (R162,
R163). -/
def Part.mainsExpires (p : Part) : Part :=
  if !reached p.time.mainsTimer Config.mainsMs then p
  else
    let p := { p with time := { p.time with mainsActive := !p.time.mainsActive }.restartMains }
    let p := if p.mode.live then Part.occasion (p.enter .windowMirrors 0x017) else p
    if p.mode.serving then p.tell (.condition 257 p.time.mainsActive) else p

/-- The pulse of TROUBLE changes its level after 1 s (R167). -/
def Part.pulseToggles (p : Part) : Part :=
  if p.notice.trouble = .pulsed ∧ Config.pulseMs ≤ p.notice.pulseMs then
    { p with notice := { p.notice with pulseOn := !p.notice.pulseOn, pulseMs := 0 } }
  else p

/-! ### Commands of this chapter -/

/-- CLOCK_SECOND (R154). -/
def execClockSecond (s : State) : Host.Outcome State Fault Refusal :=
  .next { s with part := s.part.powered Part.secondPasses }

/-- HEARTBEAT_EXPIRY (R160). -/
def execHeartbeatExpiry (s : State) : Host.Outcome State Fault Refusal :=
  .next { s with part := s.part.serve Part.heartbeatExpires }

/-- MAINS_LOST_CHANGE (R162): the pin changes always. -/
def execMainsLostChange (asserted : Bool) (s : State) : Host.Outcome State Fault Refusal :=
  .next { s with part := { s.part with time := s.part.time.setMainsLost asserted } }

/-- MAINS_TIMER_EXPIRY (R162, R163). -/
def execMainsTimerExpiry (s : State) : Host.Outcome State Fault Refusal :=
  .next { s with part := s.part.powered Part.mainsExpires }

/-- TROUBLE_PULSE_TOGGLE (R167). -/
def execTroublePulseToggle (s : State) : Host.Outcome State Fault Refusal :=
  .next { s with part := s.part.work Part.pulseToggles }

end Sys2Proof.Machine
end

