-- ==== Sys2Proof/Machine/Notice.lean ====
section
/-! DEFINITION. The commands of the command word and their judgement by the Notice Unit (10 section 10.3), with the
effects that are not a block's own chapter. -/

namespace Sys2Proof.Machine

/-- START (R29, R136). -/
def Part.startEffect (p : Part) : Part :=
  (if p.mode = .stopped then (p.setMode .running).occasion else p).complete .done

/-- STOP (R29, R136). -/
def Part.stopEffect (p : Part) : Part := (p.setMode .stopped).complete .done

/-- ABORT CALLS (R123, R138). -/
def Part.abortEffect (p : Part) : Part := p.abortAll.complete .done

/-- LOAD begins (R33); the heads are discarded (R168). -/
def Part.beginLoad (kind : LoadKind) (p : Part) : Part :=
  { p with
    mode := .loading
    mirrors := { p.mirrors with load := some { kind, next := 0 } }
    notice := { p.notice with heads := none } }

/-- RELOAD (R37; R36 in UNCONFIGURED). -/
def Part.reloadEffect (p : Part) : Part :=
  if p.mode = .unconfigured then p.beginLoad .reload
  else { p with mirrors := { p.mirrors with reload := some { next := 0, waiting := none } } }

/-- ADOPT BASELINE is handed to the Point Engine (R59). -/
def Part.adoptEffect (p : Part) : Part := (p.tell .adopt).pump

/-- TEST CALL judges its argument (R158). -/
def Part.testEffect (arg : Word) (p : Part) : Part :=
  if arg.toNat ≤ 15 then p.tell (.test (Fin.ofNat 16 arg.toNat) true)
  else if arg.toNat = 16 then p.tell (.test (p.virtualRoute 7) true)
  else p.complete .badArgument

/-- SET TIME (R155): from the mirrors, or by inserted reads in UNCONFIGURED. -/
def Part.setTimeEffect (p : Part) : Part :=
  if p.mode = .unconfigured then { p with mirrors := { p.mirrors with timeReads := some [] } }
  else p.setClock (p.mirror 0x01D) (p.mirror 0x01E) (p.mirror 0x01F)

/-- CLEAR TROUBLE is handed to the Point Engine (R165); in UNCONFIGURED it is done with no change. -/
def Part.clearTroubleEffect (p : Part) : Part :=
  if p.mode = .unconfigured then p.complete .done else (p.tell .clearTrouble).pump

/-- RELEASE HELD (R84). -/
def Part.releaseEffect (p : Part) : Part := p.releaseAll.complete .done

/-- An owner waits with an address, or will enter it after the one it waits with. -/
def Bus.awaits (b : Bus) (off : Nat) : Bool := b.wbWait.any fun w => (w.first :: w.later).contains off

/-- The result of a refused command. While a RESTART's final result is being finished the Notice Unit keeps it for after;
during the drain it is noted whether it raises COMMAND (R175, R176, R178). -/
def Part.answerRefused (c : Command) (st : ResultStatus) (p : Part) : Part :=
  match p.bus.drain with
  | none => p.finalResult c st
  | some (.finishing es before later) =>
    { p with bus := { p.bus with drain := some (.finishing es before (later ++ [(c, st)])) } }
  | some (.draining n offs raised) =>
    let q := p.finalResult c st
    let i := Cause.command.index
    let new := q.notice.causes.getLsbD i && !p.notice.causes.getLsbD i
    { q with bus := { q.bus with drain := some (.draining n offs (raised || new)) } }

/-- The drain of a RESTART begins when 012H, 013H and the COMMAND record of its final result have entered: what is then in
the queue and the staging buffer is to be written (R20). The results kept are then written. -/
def Part.beginDrain (p : Part) : Part :=
  match p.bus.drain with
  | some (.finishing es before later) =>
    let es := es.filter p.bus.awaits
    if es.isEmpty && p.bus.logWait.all (before ≤ ·.1) then
      later.foldl (fun q a => q.answerRefused a.1 a.2)
        { p with bus := { p.bus with drain := some (.draining p.bus.staging.length p.bus.wbq false) } }
    else { p with bus := { p.bus with drain := some (.finishing es before later) } }
  | _ => p

/-- RESTART (R20, R178): the result DONE, then the drain; RESTART stays in progress. -/
def Part.restartEffect (c : Command) (p : Part) : Part :=
  let p := p.finalResult c .done
  Part.beginDrain { p with bus := { p.bus with drain := some (.finishing [0x012, 0x013] p.bus.tickets []) } }

/-- The communicator state accepts a command (R175). -/
def accepts (m : Mode) (code : Nat) : Bool :=
  match m with
  | .running => code ≠ 5
  | .stopped => true
  | .unconfigured => code == 4 || code == 7 || code == 8 || code == 10
  | .off | .xrst | .bypass | .loading => false

/-- The refusal R175 gives a command, if any: its first line that applies. -/
def Part.refusal (p : Part) (code : BitVec 4) : Option ResultStatus :=
  if unknownCode code then some .unknown
  else if p.mode = .loading then some (if code = 10 then .refusedBusy else .refusedState)
  else if p.notice.inProgress.isSome then some .refusedBusy
  else if !accepts p.mode code.toNat then some .refusedState
  else none

/-- The effect of an accepted command (R22, R175). -/
def Part.effect (c : Command) (arg : Word) (p : Part) : Part :=
  match c.code.toNat with
  | 1 => p.startEffect
  | 2 => p.stopEffect
  | 3 => p.abortEffect
  | 4 => p.reloadEffect
  | 5 => p.adoptEffect
  | 6 => p.testEffect arg
  | 7 => p.setTimeEffect
  | 8 => p.clearTroubleEffect
  | 9 => p.releaseEffect
  | 10 => p.restartEffect c
  | _ => p

/-- The command of a command word (R22, 02 section 2.2, 010H). -/
def commandOf (w : Word) : Command := { code := w.extractLsb' 8 4, tag := w.extractLsb' 0 8 }

/-- The command word with a code, a tag and the bits outside every field. -/
def commandWord (code : BitVec 4) (tag : BitVec 8) (spare : BitVec 4) : Word := spare ++ code ++ tag

/-- The Notice Unit judges a command: it is refused with its final result, or accepted and handed to the owner of
its effect (R175, R176). -/
def Part.judge (c : Command) (arg : Word) (p : Part) : Part :=
  match p.refusal c.code with
  | some st => p.answerRefused c st
  | none =>
    Part.effect c arg
      (Part.setResult c.tag .inProgress { p with notice := { p.notice with inProgress := some c } })

/-- A panel write of the command word: its mirror takes it and the command is judged with the mirror of 011H (R22). -/
def Part.takeCommand (w : Word) (p : Part) : Part :=
  let p := p.setMirror 0x010 w
  p.judge (commandOf w) (p.mirror 0x011)

end Sys2Proof.Machine
end

