-- ==== Sys2Proof/Machine/Window.lean ====
section
/-! DEFINITION. The Window Mirrors (02): what a panel write does in each communicator state, LOAD and RELOAD, and the
entry to UNCONFIGURED. -/

namespace Sys2Proof.Machine

/-! ### Panel writes in STOPPED and RUNNING -/

/-- The bits of a word whose change its owner acts on (R27). -/
def fieldMask (off : Nat) : Word :=
  match windowWord off with
  | .config n =>
    match n.val with
    | 0x05 => 0x0007
    | 0x06 => 0x07FF
    | 0x07 => 0x000F
    | _ => 0x003F
  | .directory _ w => if w.val = 0 then 0x03FF else if w.val = 2 then 0xFF00 else 0xFFFF
  | .group _ | .virtual _ _ | .route _ _ | .log _ _ | .translation _ _ | .point _ _ | .ordinary => 0xFFFF

/-- A written word differs from its mirror in a field (R27). -/
def Part.changes (p : Part) (off : Nat) (w : Word) : Bool := (p.mirror off ^^^ w) &&& fieldMask off ≠ 0

/-- The validity of a directory entry is judged from its mirrors (R25). -/
def Part.judgeValid (d : DestNo) (p : Part) : Part :=
  { p with mirrors := { p.mirrors with valid := p.mirrors.valid.set d (p.entryValid d) } }

/-- A directory entry has changed: its validity, the unrouted marks if it is route 0's primary, the Line Arbiter
(R25, R70, R101). -/
def Part.directoryChanged (d : DestNo) (p : Part) : Part :=
  let p := p.judgeValid d
  Part.occasion (if p.primaryDest 0 = d then p.judgeUnrouted else p)

/-- The points a group alias write selects (02 section 2.2), in the order they are taken: ascending, the model's choice
(log 42). -/
def groupPoints (g : Fin 16) (w : Word) : List PointNo :=
  (List.finRange 16).filterMap fun i => if w.getLsbD i.val then some (Fin.ofNat 264 (16 * g.val + i.val)) else none

/-- A group alias write (R24). -/
def Part.takeGroupWrite (g : Fin 16) (w : Word) (p : Part) : Part :=
  match p.groupAction, groupPoints g w with
  | some a, i :: is => p.tell (.group a (i :: is))
  | _, _ => p

/-- An enabled field changes, or not (R54). -/
def Part.takeEnabled (i : PointNo) (before after : Bool) (p : Part) : Part :=
  if before = after then p else p.tell (if after then .enable i else .disable i)

/-- A write of w0 of a point entry, against the mirror as it stood before (R43). -/
def Part.takePoint (i : Fin 256) (old w : Word) (p : Part) : Part :=
  let i : PointNo := i.castLE (by omega)
  if enabledField old && enabledField w then
    if stateCodeField old = stateCodeField w then p else p.capture i (stateCodeField w)
  else p.takeEnabled i (enabledField old) (enabledField w)

/-- A write of a line configuration word (R104). -/
def Part.takeLineConfig (n : LineNo) (changed : Bool) (w : Word) (p : Part) : Part :=
  let p := p.takeLineEnable n (lineEnabledField w)
  if changed then p.occasion else p

/-- A write of w0 of a route descriptor (R87, R70). -/
def Part.routeChanged (r : RouteNo) (p : Part) : Part := Part.occasion (if r = 0 then p.judgeUnrouted else p)

/-- A word is taken into its mirror in STOPPED or RUNNING and handed to the owner of its meaning (R27). A change of 004H is
judged by the period taken, of every other field by its bits, the model's choice (log 31). A directory word found different
by RELOAD is judged as one the panel writes, at once, the model's choice (log 32). -/
def Part.takeServing (off : Nat) (w : Word) (p : Part) : Part :=
  let old := p.mirror off
  let changed := p.changes off w
  let q := p.setMirror off w
  match windowWord off with
  | .config n =>
    match n.val with
    | 0x03 => q.beat
    | 0x04 => if Machine.heartbeatPeriod old = Machine.heartbeatPeriod w then q else q.periodChanged
    | 0x05 => if changed then q.occasion else q
    | 0x06 | 0x07 => if changed then q.setNextTest else q
    | 0x08 => q.takeLineConfig 0 changed w
    | 0x09 => q.takeLineConfig 1 changed w
    | 0x0A => q.takeLineConfig 2 changed w
    | 0x0B => q.takeLineConfig 3 changed w
    | 0x10 => p.takeCommand w
    | _ => q
  | .group g => q.takeGroupWrite g w
  | .virtual v k =>
    if k.val = 0 then q.takeEnabled (Fin.ofNat 264 (256 + v.val)) (bit old 0) (bit w 0) else q
  | .route r k =>
    if k.val = 0 then (if changed then q.routeChanged r else q)
    else if k.val = 2 then q.takeBudget r w
    else q
  | .directory d _ => if changed then q.directoryChanged d else q
  | .point i k => if k.val = 0 then q.takePoint i old w else q
  | .log _ _ | .translation _ _ | .ordinary => q

/-! ### Panel writes in the other states -/

/-- A panel write in LOADING (R28, R30): mirrors of words already read, and the exceptions R30 lists. -/
def Part.takeLoading (off : Nat) (w : Word) (p : Part) : Part :=
  if off = 0x010 then p.takeCommand w
  else if off = 0x014 then p.setMirror off w
  else if p.loadHasRead off then
    let q := p.setMirror off w
    match windowWord off with
    | .directory d _ => q.judgeValid d
    | .route r k => if k.val = 2 then q.takeBudgetLoading r w else q
    | .config _ | .group _ | .virtual _ _ | .log _ _ | .translation _ _ | .point _ _ | .ordinary => q
  else p

/-- A panel write in UNCONFIGURED (R31). -/
def Part.takeUnconfigured (off : Nat) (w : Word) (p : Part) : Part :=
  if off = 0x010 then p.takeCommand w
  else if off = 0x011 ∨ off = 0x014 then p.setMirror off w
  else p

/-! ### Entry to UNCONFIGURED -/

/-- The addresses of a waiter that lie in the configuration block (R14). -/
def Waiter.inConfig (w : Waiter) : Option Waiter :=
  match (w.first :: w.later).filter (· < 0x020) with
  | a :: as => some { w with first := a, later := as }
  | [] => none

/-- What the entry to UNCONFIGURED keeps of the Bus Path (R14). -/
def Bus.unconfigured (b : Bus) : Bus :=
  { b with
    wbq := b.wbq.filter (· < 0x020)
    wbWait := b.wbWait.filterMap Waiter.inConfig
    staging := []
    stagePos := 0
    logWait := [] }

/-- Every call is dropped and its line goes to its guard (R32). -/
def Part.dropCalls (p : Part) : Part :=
  (List.finRange 4).foldl (fun q n => if (q.line n).call.isSome then q.moveLine n Line.toRelease else q) p

/-- The addresses that deliveries carry which the Point Engine has not taken (R12, log 11). -/
def Points.carried (q : Points) : List Nat :=
  q.work.flatMap fun
    | .delivery _ _ _ _ words => words
    | _ => []

/-- The communicator enters UNCONFIGURED: all work is dropped, and every mirror but those of 010H, 011H and 014H; the
occupancy word of a delivery still waits (R14, R27, R32, R42, R64, R86, R156, R159, R168). -/
def Part.enterUnconfigured (p : Part) : Part :=
  let p := p.dropCalls
  let p := (p.setRecords []).enterAll .reportQueue (p.points.carried.filter (· < 0x020))
  { p with
    mode := .unconfigured
    bus := p.bus.unconfigured
    mirrors := { Mirrors.empty with
      words := ([0x010, 0x011, 0x014] : List Nat).foldl (fun m a => m.write a (p.mirror a)) [] }
    points := Points.empty
    routes := Vector.replicate 16 Route.empty
    time := { p.time with nextTest := none }
    heartbeat := { timer := none, silent := false }
    notice := { p.notice with heads := p.notice.heads.map fun h => { h with alloc := h.shown } } }

/-- The configuration check (R34). -/
def Part.configOk (p : Part) : Bool :=
  decide (p.mirror 0x000 = 0x6C5A) && decide (((List.range 16).map p.mirror).sum = 0)

/-! ### LOAD -/

/-- The correction of delivered fields found by LOAD (R35). -/
def Delivered.corrected (d : Delivered) : Delivered :=
  if d.sense = 3 ∨ 9 < d.fold ∨ 999 < d.code then { sense := 0, fold := 0, code := 0 }
  else if d.sense = 0 then { d with fold := 0, code := 0 }
  else d

/-- LOAD takes a word it has read (R33, R35). -/
def Part.loadTake (off : Nat) (w : Word) (p : Part) : Part :=
  match windowWord off with
  | .config n =>
    if n.val = 0x15 then
      let h : Fin 32 := if field w 0 8 ≤ 31 then Fin.ofNat 32 (field w 0 8) else 0
      { p with notice := { p.notice with heads := some { alloc := h, shown := h } } }
    else p.setMirror off w
  | .virtual v k =>
    let i : PointNo := Fin.ofNat 264 (256 + v.val)
    if k.val = 2 then
      p.onShadow i fun s =>
        { s with status := w.extractLsb' 0 3
                 delivered := { sense := w.extractLsb' 3 2, fold := w.extractLsb' 5 4, code := 0 } }
    else if k.val = 3 then
      p.onShadow i fun s =>
        { s with delivered := { s.delivered with code := w.extractLsb' 0 10 }.corrected }
    else p.setMirror off w
  | .route r k =>
    let v := p.route r
    if k.val = 2 then (p.setMirror off w).setRoute r { v with budget := budgetField w }
    else if k.val = 3 then
      p.setRoute r { v with
        accessed := bit w 0, lastLeg := if bit w 1 then .backup else .primary
        spent := bit w 2 && !v.clearKept, clearKept := false }
    else p.setMirror off w
  | .directory d k => if k.val = 8 then (p.setMirror off w).judgeValid d else p.setMirror off w
  | .point q k =>
    let i : PointNo := q.castLE (by omega)
    if k.val = 1 then
      p.onShadow i fun s =>
        { s with isolated := bit w 0, status := w.extractLsb' 1 3
                 delivered := { sense := w.extractLsb' 4 2, fold := w.extractLsb' 6 4, code := 0 } }
    else if k.val = 2 then
      p.onShadow i fun s =>
        { s with delivered := { s.delivered with code := w.extractLsb' 0 10 }.corrected }
    else p.setMirror off w
  | .group _ | .log _ _ | .translation _ _ | .ordinary => p.setMirror off w

/-- The result of a LOAD that has ended, in UNCONFIGURED or at stage 6 (R34, R36, R178): DONE after RELOAD, otherwise
RESTARTED with the tag of the RESTART, or 0. -/
def Part.loadResult (kind : LoadKind) (p : Part) : Part :=
  match kind with
  | .reload => p.complete .done
  | .powerOn | .xrst | .restart =>
    let tag := match p.notice.inProgress with
      | some c => c.tag
      | none => 0
    Part.setResult tag .restarted { p with notice := { p.notice with inProgress := none } }

/-- LOAD fails its configuration check (R34): the causes are cleared, LOADFAIL is raised, the result is written. -/
def Part.loadFails (kind : LoadKind) (p : Part) : Part :=
  let p := p.enterUnconfigured
  let p := if p.notice.causes = 0 then p
    else Part.enter .noticeUnit 0x013 { p with notice := { p.notice with causes := 0 } }
  (p.raise .loadfail).loadResult kind

/-- The offsets outside the configuration block that hold part-owned fields LOAD reads, ascending; and 015H. -/
def loadedOwned : List Nat :=
  (List.range 16).map (fun k => virtualOffset (k / 2) (2 + k % 2)) ++
    (List.range 32).map (fun k => routeOffset (k / 2) (2 + k % 2)) ++
    (List.range 512).map (fun k => pointOffset (k / 2) (1 + k % 2)) ++ [0x015]

/-- The owner that enters a part-owned word (01 section 1.6). -/
def ownerOf (off : Nat) : Owner :=
  match windowWord off with
  | .route _ _ => .routeBlock
  | .virtual _ _ | .point _ _ => .pointEngine
  | .config _ | .group _ | .directory _ _ | .log _ _ | .translation _ _ | .ordinary => .noticeUnit

/-- The part's fields of a word differ from memory's, or w3 of its route was marked in LOADING (R35, R96). -/
def Part.differs (mem : Memory) (p : Part) (off : Nat) : Bool :=
  decide ((p.ownedWord off ^^^ mem.read (windowBase p.straps + off)) &&& ownedMask off ≠ 0) ||
    (match windowWord off with
      | .route r k => decide (k.val = 3) && (p.route r).w3AtEnd
      | _ => false)

/-- The marks of R96 are done with. -/
def Part.clearMarks (p : Part) : Part :=
  { p with routes := tabulate fun r => { p.routes[r] with clearKept := false, w3AtEnd := false } }

/-- LOAD ends (R36): the six stages, then the words whose taken value differs from memory (R35).
At stage 5 the lines act in the order of their numbers, the model's choice (log 41). -/
def Part.loadEnds (mem : Memory) (kind : LoadKind) (p : Part) : Part :=
  let p := Part.enter .noticeUnit 0x013 { p with notice := { p.notice with causes := 0 } }
  let p := { p with
    mode := if p.startOnLoad then .running else .stopped
    mirrors := { p.mirrors with load := none } }
  let p := p.logNow { kind := .loaded, attempts := BitVec.ofNat 4 kind.code }
  let p := Part.enter .reportQueue 0x019 p.rebuildPoints
  let p := Part.setNextTest { p with heartbeat := { timer := p.freshTimer, silent := false } }
  let p := (List.finRange 4).foldl
    (fun q n => if (q.line n).takenEnable = q.lineEnabled n then q
      else (q.takeLineEnable n (q.lineEnabled n)).occasion) p
  let p := p.loadResult kind
  let p := (loadedOwned.filter (p.differs mem)).foldl (fun q a => q.enter (ownerOf a) a) p
  let p := p.clearMarks
  if p.mode = .running then p.occasion else p

/-- LOAD has read a word (R33, R34, R36). -/
def Part.loadStep (mem : Memory) (w : Word) (p : Part) : Part :=
  match p.mirrors.load with
  | some l =>
    let q := p.loadTake (loadOffset l.next) w
    let q := { q with mirrors := { q.mirrors with load := some { l with next := l.next + 1 } } }
    if l.next + 1 = Config.checkReads ∧ !q.configOk then q.loadFails l.kind
    else if l.next + 1 = Config.loadReads then q.loadEnds mem l.kind
    else q
  | none => p

/-! ### RELOAD -/

/-- A RELOAD whose check fails (R32, R34, R173): all work is dropped, the causes are kept, the result is DONE. -/
def Part.reloadFails (p : Part) : Part := (p.enterUnconfigured.raise .loadfail).complete .done

/-- RELOAD ends (R38, R70, R127). -/
def Part.reloadEnds (p : Part) : Part :=
  let p := { p with mirrors := { p.mirrors with reload := none } }
  Part.occasion (p.oweAll.judgeUnrouted.complete .done)

/-- RELOAD takes a word it has read (R37): 003H, 010H, 011H and w2 of a route only fill the mirror. -/
def Part.reloadTake (off : Nat) (w : Word) (p : Part) : Part :=
  if off = 0x003 ∨ off = 0x010 ∨ off = 0x011 then p.setMirror off w
  else match windowWord off with
    | .route _ k => if k.val = 2 then p.setMirror off w else p.takeServing off w
    | .config _ | .group _ | .virtual _ _ | .directory _ _ | .log _ _ | .translation _ _ | .point _ _ | .ordinary =>
      p.takeServing off w

/-- Taking a word would make a capture in the FIFO (R43, R44). -/
def Part.captures (p : Part) (off : Nat) (w : Word) : Bool :=
  match windowWord off with
  | .point _ k =>
    decide (k.val = 0) && enabledField (p.mirror off) && enabledField w &&
      decide (stateCodeField (p.mirror off) ≠ stateCodeField w) && !p.points.overrun
  | .config _ | .group _ | .virtual _ _ | .route _ _ | .directory _ _ | .log _ _ | .translation _ _ | .ordinary => false

/-- The FIFO has a place for one of two that may wait; the one that began to wait first is served first (R44). -/
def Part.placeFor (p : Part) (mine other : Option Nat) : Bool :=
  decide (p.points.fifo.length < Config.fifoPlaces) &&
    match other, mine with
    | some t, some m => decide (m < t)
    | some _, none => false
    | none, _ => true

/-- When the panel's held capture began to wait, if one is held (R16). -/
def Bus.stalled (b : Bus) : Option Nat := b.hold.bind (·.stalled)

/-- The last read of RELOAD has been taken: the check, the end, or the next read (R37, R38). -/
def Part.reloadNext (next : Nat) (p : Part) : Part :=
  let p := { p with mirrors := { p.mirrors with reload := some { next, waiting := none } } }
  if next = Config.checkReads ∧ !p.configOk then p.reloadFails
  else if next = Config.reloadReads then p.reloadEnds
  else p

/-- RELOAD has read a word. A capture that finds the FIFO full, or a panel's capture waiting before it, waits; its mirror
has the value read (R37, R44, log 35). -/
def Part.reloadStep (w : Word) (p : Part) : Part :=
  match p.mirrors.reload with
  | some l =>
    if l.waiting.isSome then p
    else
      let off := reloadOffset l.next
      if p.captures off w && !p.placeFor none p.bus.stalled then
        let p := p.setMirror off w
        let c := { point := Fin.ofNat 264 (l.next - 671), code := stateCodeField w }
        { p with
          mirrors := { p.mirrors with reload := some { l with waiting := some { since := p.bus.tickets, capture := c } } }
          bus := { p.bus with tickets := p.bus.tickets + 1 } }
      else (p.reloadTake off w).reloadNext (l.next + 1)
  | none => p

/-- The capture of RELOAD that waits can be made now: a place is there for it, or OVERRUN is in force; or its point has been
disabled and there is none to make (R44, R46, R54, log 35). -/
def Part.reloadReady (p : Part) (w : WaitingCapture) : Bool :=
  !p.pointEnabled w.capture.point || p.points.overrun || p.placeFor (some w.since) p.bus.stalled

/-- RELOAD goes on when the capture that waits can be made (R44). -/
def Part.reloadResume (p : Part) : Part :=
  match p.mirrors.reload with
  | some { next, waiting := some w } =>
    if p.reloadReady w then
      Part.reloadNext (next + 1) (if p.pointEnabled w.capture.point then p.capture w.capture.point w.capture.code else p)
    else p
  | _ => p

/-- The capture of RELOAD that waits is dropped when its point is disabled (R54). -/
def Part.reloadForgets (i : PointNo) (p : Part) : Part :=
  match p.mirrors.reload with
  | some { next, waiting := some w } => if w.capture.point = i then p.reloadNext (next + 1) else p
  | _ => p

/-- A panel write is handed to the Window Mirrors (R4). A capture of RELOAD that waits is made if a write of a point's w0
begins OVERRUN, or goes if it disables that point (R44). -/
def Part.takeWrite (off : Nat) (w : Word) (p : Part) : Part :=
  match p.mode with
  | .stopped | .running =>
    match windowWord off with
    | .point _ k => if k.val = 0 then (p.takeServing off w).reloadResume else p.takeServing off w
    | .config _ | .group _ | .virtual _ _ | .route _ _ | .directory _ _ | .log _ _ | .translation _ _ | .ordinary =>
      p.takeServing off w
  | .loading => p.takeLoading off w
  | .unconfigured => p.takeUnconfigured off w
  | .off | .xrst | .bypass => p

/-! ### Commands that free a place in the FIFO -/

/-- POINT_DISABLE (R54, R44). -/
def execPointDisable (s : State) : Host.Outcome State Fault Refusal :=
  .next { s with part := s.part.serve fun p => (p.takeWork fun
    | .disable i => some fun q => (q.disablePoint i).reloadForgets i
    | _ => none).reloadResume }

/-- FIFO_ENTRY_TAKEN (R47, R44). -/
def execFifoEntryTaken (s : State) : Host.Outcome State Fault Refusal :=
  .next { s with part := s.part.serve fun p => p.fifoStep.reloadResume }

end Sys2Proof.Machine
end

