-- ==== Sys2Proof/Machine/Bus.lean ====
section
/-! DEFINITION. The Bus Path (01): panel cycles, WAIT, and the inserted cycles. -/

namespace Sys2Proof.Machine

/-! ### Making a cycle -/

/-- The data of a panel write as it goes downstream, assembled by ownership class (R4 to R9). -/
def Part.downstream (p : Part) (off : Nat) (w : Word) : Word :=
  if p.actsOn off then
    match windowWord off with
    | .log _ _ => w
    | .route _ k => if k.val = 2 then w else p.ownedWord off
    | .config _ | .group _ | .virtual _ _ | .directory _ _ | .translation _ _ | .point _ _ | .ordinary =>
      p.ownedWord off
  else w

/-- What a panel write clears before its downstream data is assembled: causes (R7), the accessed flag (R8). It clears the
flag in LOADING too, once LOAD has read w3 and the part acts on it (R5), the model's choice (log 37). -/
def Part.clearByWrite (off : Nat) (w : Word) (p : Part) : Part :=
  if p.actsOn off then
    match windowWord off with
    | .config n =>
      if n.val = 0x13 then
        { p with notice := { p.notice with causes := p.notice.causes &&& ~~~ (w.setWidth 10) } }
      else p
    | .route r k =>
      if k.val = 3 && !bit w 0 then p.setRoute r { p.route r with accessed := false } else p
    | .group _ | .virtual _ _ | .directory _ _ | .log _ _ | .translation _ _ | .point _ _ | .ordinary => p
  else p

/-- A panel write is made by a part that works (R1, R4). -/
def State.writeWord (a : Addr) (w : Word) (s : State) : State :=
  match windowOffset s.part.straps a.toNat with
  | some off =>
    { s with
      mem := s.mem.write a.toNat ((s.part.clearByWrite off w).downstream off w)
      part := s.part.work fun p => (p.clearByWrite off w).takeWrite off w }
  | none => { s with mem := s.mem.write a.toNat w }

/-- What a panel read shows at an address (R4, R10). -/
def State.shown (s : State) (a : Addr) : Word :=
  match windowOffset s.part.straps a.toNat with
  | some off => s.part.overlay off (s.mem.read a.toNat)
  | none => s.mem.read a.toNat

/-- A cycle is made by a part that works. -/
def State.make (c : Cycle) (s : State) : State :=
  match c with
  | .read a => { s with upData := some (s.shown a) }
  | .write a w => s.writeWord a w

/-- A cycle is passed unchanged, under XRST and in BYPASS (R18, R19). -/
def State.pass (c : Cycle) (s : State) : State :=
  match c with
  | .read a => { s with upData := some (s.mem.read a.toNat) }
  | .write a w => { s with mem := s.mem.write a.toNat w }

/-! ### WAIT -/

/-- An upstream cycle that begins now is held for the queues (R15). -/
def Bus.full (b : Bus) : Bool :=
  (decide (Config.writeBackPlaces ≤ b.wbq.length) && !b.wbWait.isEmpty) ||
    (decide (Config.stagingPlaces ≤ b.staging.length) && !b.logWait.isEmpty)

/-- Every entry that waited when the held cycle began has entered (R15). -/
def Bus.entered (b : Bus) (before : Nat) : Bool :=
  b.wbWait.all (before ≤ ·.ticket) && b.logWait.all (before ≤ ·.1)

/-- Replaces the held cycle. -/
def State.setHold (h : Option Hold) (s : State) : State :=
  { s with part := { s.part with bus := { s.part.bus with hold := h } } }

/-- A write would make a capture that finds the FIFO full with STALL strapped (R16). -/
def Part.stalls (p : Part) (c : Cycle) : Bool :=
  match c with
  | .read _ => false
  | .write a w =>
    match windowOffset p.straps a.toNat with
    | some off =>
      p.straps.stall && p.mode.serving && p.captures off w &&
        decide (Config.fifoPlaces ≤ p.points.fifo.length)
    | none => false

/-- The cycle is made, or held for a place in the FIFO (R16). -/
def State.attempt (c : Cycle) (s : State) : State :=
  if s.part.stalls c then
    let t := s.part.bus.tickets
    State.setHold (some { cycle := c, before := 0, stalled := some t })
      { s with part := { s.part with bus := { s.part.bus with tickets := t + 1 } } }
  else s.make c

/-- No data is driven upstream while a read is held (R17, log 28). -/
def State.undriven (c : Cycle) (s : State) : State :=
  match c with
  | .read _ => { s with upData := none }
  | .write _ _ => s

/-- A panel cycle begins (R1, R15, R16, R18, R19). The panel has one cycle at a time, so one that was held has
been abandoned (R180, log 12). -/
def State.begin (c : Cycle) (s : State) : State :=
  match s.part.mode with
  | .off => s
  | .xrst | .bypass => s.pass c
  | .loading | .unconfigured | .stopped | .running =>
    let s := (s.setHold none).undriven c
    if s.part.bus.full then
      s.setHold (some { cycle := c, before := s.part.bus.tickets, stalled := none })
    else s.attempt c

/-- When the capture of RELOAD began to wait, if one waits (R44). -/
def Mirrors.waitsSince (m : Mirrors) : Option Nat := (m.reload.bind (·.waiting)).map (·.since)

/-- The hold ends if what it waits for has come; the cycle is then made as if it had begun at that moment (R15, R16,
R17). -/
def State.endHold (s : State) : State :=
  match s.part.bus.hold with
  | some h =>
    match h.stalled with
    | none => if s.part.bus.entered h.before then (s.setHold none).attempt h.cycle else s
    | some t =>
      if s.part.placeFor (some t) s.part.mirrors.waitsSince then (s.setHold none).make h.cycle else s
  | none => s

/-- The window address of an offset. -/
def State.address (s : State) (off : Nat) : Addr := BitVec.ofNat 17 (windowBase s.part.straps + off)

/-- A panel write to a window offset begins. -/
def State.panelWriteAt (off : Nat) (w : Word) (s : State) : State := s.begin (.write (s.address off) w)

/-! ### Inserted writes -/

/-- The address the next write-back takes: the oldest; during the drain of a RESTART the oldest of those to be
written (R13, R20). -/
def Bus.nextBack (b : Bus) : Option Nat :=
  match b.drain with
  | some (.draining _ offs _) => b.wbq.find? (offs.contains ·)
  | none | some (.finishing _ _ _) => b.wbq.head?

/-- An address leaves the write-back queue. -/
def Bus.takeBack (off : Nat) (b : Bus) : Bus :=
  { b with
    wbq := b.wbq.filter (· ≠ off)
    drain := b.drain.map fun
      | .draining n offs raised => .draining n (offs.filter (· ≠ off)) raised
      | d => d }

/-- Staged records may be written: in the drain of a RESTART only those it waits for (R20). -/
def Bus.mayStage (b : Bus) : Bool :=
  match b.drain with
  | some (.draining n _ _) => decide (0 < n)
  | none | some (.finishing _ _ _) => true

/-- The word a write-back writes. From the DONE of a RESTART to its reset 012H is written as that DONE, and 013H without a
COMMAND that a command refused during the drain has raised: such a command's result and cause are not written (R178). -/
def Part.backWord (p : Part) (off : Nat) : Word :=
  match p.bus.drain, p.notice.inProgress with
  | some d, some c =>
    if off = 0x012 then { p.notice with resultTag := c.tag, resultStatus := .done }.resultWord
    else if off = 0x013 then
      match d with
      | .draining _ _ true => (p.notice.causes &&& ~~~ Cause.command.bits).setWidth 16
      | _ => p.ownedWord off
    else p.ownedWord off
  | _, _ => p.ownedWord off

/-- A write-back may be made: no staged record is to be written before it (R11, R20). -/
def Bus.mayBack (b : Bus) : Bool := b.staging.isEmpty || !b.mayStage

/-- An inserted write serves the write-back queue (R11, R13). A word the part does not act on is left as memory
has it (log 16). -/
def State.writeBack (s : State) : State :=
  match s.part.mode.live && s.part.bus.mayBack, s.part.bus.nextBack with
  | true, some off =>
    let s' := { s with part := { s.part with bus := s.part.bus.takeBack off } }
    if s.part.actsOn off then
      { s' with mem := s.mem.write (windowBase s.part.straps + off) (s.part.backWord off) }
    else s'
  | _, _ => s

/-- The shown head advances past a slot (R170). -/
def Part.advanceShown (slot : Fin 32) (p : Part) : Part :=
  match p.notice.heads with
  | some h =>
    let p := Part.enter .noticeUnit 0x015 { p with notice := { p.notice with heads := some { h with shown := slot + 1 } } }
    if (slot + 1).val = p.logTail then p.raise .logwrap else p
  | none => p

/-- A record leaves the staging buffer. -/
def Bus.takeStaged (b : Bus) : Bus :=
  { b with
    staging := b.staging.tail, stagePos := 0
    drain := b.drain.map fun
      | .draining n offs raised => .draining (n - 1) offs raised
      | d => d }

/-- An inserted write serves the log staging buffer: the next word of the oldest record (R14). -/
def State.stagingWrite (s : State) : State :=
  match s.part.mode.live && s.part.bus.mayStage, s.part.bus.staging with
  | true, r :: _ =>
    let pos := s.part.bus.stagePos
    { s with
      mem := s.mem.write (windowBase s.part.straps + logOffset r.slot.val pos) (r.record.word pos)
      part := s.part.work fun p =>
        if pos < 3 then { p with bus := { p.bus with stagePos := pos + 1 } }
        else Part.advanceShown r.slot { p with bus := p.bus.takeStaged } }
  | _, _ => s

/-- A record that waits for room enters the staging buffer (R14). -/
def Part.admitLog (p : Part) : Part :=
  match p.bus.logWait with
  | (_, r) :: rest =>
    if p.bus.staging.length < Config.stagingPlaces then
      { p with bus := { p.bus with staging := p.bus.staging ++ [r], logWait := rest } }
    else p
  | [] => p

/-- The owner that waited longest is admitted and goes on with its work: its next addresses, the Point Engine's piece, the
drain of a RESTART (R12, R20). -/
def Part.admitEntry (p : Part) : Part := p.admitWaiter.beginDrain.resume

/-! ### Inserted reads -/

/-- An inserted read may be made: no inserted write waits (R11). -/
def Bus.mayRead (b : Bus) : Bool := b.staging.isEmpty && b.wbq.isEmpty

/-- The word of the window at an offset, as memory has it. -/
def State.windowMem (s : State) (off : Nat) : Word := s.mem.read (windowBase s.part.straps + off)

/-- An inserted read of LOAD (R33). -/
def State.loadRead (s : State) : State :=
  match decide (s.part.mode = .loading) && s.part.bus.mayRead, s.part.mirrors.load with
  | true, some l => { s with part := s.part.work (Part.loadStep s.mem (s.windowMem (loadOffset l.next))) }
  | _, _ => s

/-- An inserted read of RELOAD (R37), or the capture of the last one if it has waited and need not any more (R44). -/
def State.reloadRead (s : State) : State :=
  match s.part.bus.mayRead, s.part.mirrors.reload with
  | _, some { waiting := some _, .. } => { s with part := s.part.serve Part.reloadResume }
  | true, some l => { s with part := s.part.serve (Part.reloadStep (s.windowMem (reloadOffset l.next))) }
  | _, _ => s

/-- SET TIME in UNCONFIGURED has read a word; the third is judged (R155). -/
def Part.timeStep (w : Word) (p : Part) : Part :=
  match p.mirrors.timeReads with
  | some [] => { p with mirrors := { p.mirrors with timeReads := some [w] } }
  | some [a] => { p with mirrors := { p.mirrors with timeReads := some [a, w] } }
  | some (a :: b :: _) => Part.setClock a b w { p with mirrors := { p.mirrors with timeReads := none } }
  | none => p

/-- An inserted read of SET TIME (R155). -/
def State.timeRead (s : State) : State :=
  match decide (s.part.mode = .unconfigured) && s.part.bus.mayRead, s.part.mirrors.timeReads with
  | true, some l => { s with part := s.part.work (Part.timeStep (s.windowMem (0x01D + l.length))) }
  | _, _ => s

/-! ### Commands of this chapter -/

/-- PANEL_WRITE (R1, R4). -/
def execPanelWrite (st : Strobes) (a : Addr) (w : Word) (s : State) : Host.Outcome State Fault Refusal :=
  match st with
  | .cycle => .next (s.begin (.write a w))
  | .both | .deselected => .next (s.setHold none)

/-- PANEL_READ (R1, R10, R15). -/
def execPanelRead (st : Strobes) (a : Addr) (s : State) : Host.Outcome State Fault Refusal :=
  match st with
  | .cycle => .next (s.begin (.read a))
  | .both | .deselected => .next { s.setHold none with upData := none }

/-- WAIT_HOLD_END (R17). -/
def execWaitHoldEnd (s : State) : Host.Outcome State Fault Refusal := .next s.endHold

/-- HELD_CYCLE_ABANDONED (R180). -/
def execHeldCycleAbandoned (s : State) : Host.Outcome State Fault Refusal := .next (s.setHold none)

/-- WRITE_BACK (R13). -/
def execWriteBack (s : State) : Host.Outcome State Fault Refusal := .next s.writeBack

/-- WRITE_BACK_ENTRY_ADMITTED (R12). -/
def execWriteBackEntryAdmitted (s : State) : Host.Outcome State Fault Refusal :=
  .next { s with part := s.part.work Part.admitEntry }

/-- LOG_STAGING_WRITE (R14). -/
def execLogStagingWrite (s : State) : Host.Outcome State Fault Refusal := .next s.stagingWrite

/-- LOG_RECORD_ADMITTED (R14). -/
def execLogRecordAdmitted (s : State) : Host.Outcome State Fault Refusal :=
  .next { s with part := s.part.work fun p => p.admitLog.beginDrain }

/-- LOAD_READ (R33). -/
def execLoadRead (s : State) : Host.Outcome State Fault Refusal := .next s.loadRead

/-- RELOAD_READ (R37). -/
def execReloadRead (s : State) : Host.Outcome State Fault Refusal := .next s.reloadRead

/-- SET_TIME_READ (R155). -/
def execSetTimeRead (s : State) : Host.Outcome State Fault Refusal := .next s.timeRead

/-- A panel write of the command word. -/
def State.commandWrite (code : BitVec 4) (tag : BitVec 8) (spare : BitVec 4) (s : State) : State :=
  s.panelWriteAt 0x010 (commandWord code tag spare)

/-- START (R22, R29). -/
def execStart (tag : BitVec 8) (spare : BitVec 4) (s : State) : Host.Outcome State Fault Refusal :=
  .next (s.commandWrite 1 tag spare)

/-- STOP (R22, R29). -/
def execStop (tag : BitVec 8) (spare : BitVec 4) (s : State) : Host.Outcome State Fault Refusal :=
  .next (s.commandWrite 2 tag spare)

/-- ABORT CALLS (R22, R123). -/
def execAbortCalls (tag : BitVec 8) (spare : BitVec 4) (s : State) : Host.Outcome State Fault Refusal :=
  .next (s.commandWrite 3 tag spare)

/-- RELOAD (R22, R37). -/
def execReload (tag : BitVec 8) (spare : BitVec 4) (s : State) : Host.Outcome State Fault Refusal :=
  .next (s.commandWrite 4 tag spare)

/-- ADOPT BASELINE (R22, R59). -/
def execAdoptBaseline (tag : BitVec 8) (spare : BitVec 4) (s : State) : Host.Outcome State Fault Refusal :=
  .next (s.commandWrite 5 tag spare)

/-- TEST CALL (R22, R158). -/
def execTestCall (tag : BitVec 8) (spare : BitVec 4) (s : State) : Host.Outcome State Fault Refusal :=
  .next (s.commandWrite 6 tag spare)

/-- SET TIME (R22, R155). -/
def execSetTime (tag : BitVec 8) (spare : BitVec 4) (s : State) : Host.Outcome State Fault Refusal :=
  .next (s.commandWrite 7 tag spare)

/-- CLEAR TROUBLE (R22, R165). -/
def execClearTrouble (tag : BitVec 8) (spare : BitVec 4) (s : State) : Host.Outcome State Fault Refusal :=
  .next (s.commandWrite 8 tag spare)

/-- RELEASE HELD (R22, R84). -/
def execReleaseHeld (tag : BitVec 8) (spare : BitVec 4) (s : State) : Host.Outcome State Fault Refusal :=
  .next (s.commandWrite 9 tag spare)

/-- RESTART (R22, R20). -/
def execRestart (tag : BitVec 8) (spare : BitVec 4) (s : State) : Host.Outcome State Fault Refusal :=
  .next (s.commandWrite 10 tag spare)

/-- UNKNOWN_COMMAND (R22, R175). -/
def execUnknownCommand (code : BitVec 4) (tag : BitVec 8) (spare : BitVec 4) (s : State) :
    Host.Outcome State Fault Refusal :=
  .next (s.commandWrite code tag spare)

/-- CAUSE_WORD_WRITE (R7). -/
def execCauseWordWrite (w : Word) (s : State) : Host.Outcome State Fault Refusal := .next (s.panelWriteAt 0x013 w)

/-- CAUSE_ENABLE_WRITE (R174). -/
def execCauseEnableWrite (w : Word) (s : State) : Host.Outcome State Fault Refusal := .next (s.panelWriteAt 0x014 w)

/-- HEARTBEAT (R160). -/
def execHeartbeat (w : Word) (s : State) : Host.Outcome State Fault Refusal := .next (s.panelWriteAt 0x003 w)

/-- HEARTBEAT_PERIOD_CHANGE (R161). -/
def execHeartbeatPeriodChange (w : Word) (s : State) : Host.Outcome State Fault Refusal :=
  .next (s.panelWriteAt 0x004 w)

/-- BATTERY_THRESHOLD_CHANGE (R126). -/
def execBatteryThresholdChange (w : Word) (s : State) : Host.Outcome State Fault Refusal :=
  .next (s.panelWriteAt 0x005 w)

/-- TEST_SCHEDULE_CHANGE (R156). -/
def execTestScheduleChange (k : ScheduleWord) (w : Word) (s : State) : Host.Outcome State Fault Refusal :=
  match k with
  | .minute => .next (s.panelWriteAt 0x006 w)
  | .interval => .next (s.panelWriteAt 0x007 w)

/-- LOG_TAIL_WRITE (R171). -/
def execLogTailWrite (w : Word) (s : State) : Host.Outcome State Fault Refusal := .next (s.panelWriteAt 0x016 w)

/-- LINE_ENABLE_CHANGE (R104). -/
def execLineEnableChange (n : LineNo) (w : Word) (s : State) : Host.Outcome State Fault Refusal :=
  .next (s.panelWriteAt (0x008 + n.val) w)

/-- ROUTE_DESCRIPTOR_WRITE (R87). -/
def execRouteDescriptorWrite (r : RouteNo) (k : RouteWord) (w : Word) (s : State) :
    Host.Outcome State Fault Refusal :=
  match k with
  | .w0 => .next (s.panelWriteAt (routeOffset r.val 0) w)
  | .w1 => .next (s.panelWriteAt (routeOffset r.val 1) w)

/-- BUDGET_WRITE (R93, R96). -/
def execBudgetWrite (r : RouteNo) (w : Word) (s : State) : Host.Outcome State Fault Refusal :=
  .next (s.panelWriteAt (routeOffset r.val 2) w)

/-- ACCESSED_FLAG_CLEAR (R8). -/
def execAccessedFlagClear (r : RouteNo) (w : Word) (s : State) : Host.Outcome State Fault Refusal :=
  .next (s.panelWriteAt (routeOffset r.val 3) w)

/-- DIRECTORY_WRITE (R101). -/
def execDirectoryWrite (d : DestNo) (k : Fin 9) (w : Word) (s : State) : Host.Outcome State Fault Refusal :=
  .next (s.panelWriteAt (directoryOffset d.val k.val) w)

/-- POINT_ENTRY_WRITE (R43). -/
def execPointEntryWrite (i : Fin 256) (w : Word) (s : State) : Host.Outcome State Fault Refusal :=
  .next (s.panelWriteAt (pointOffset i.val 0) w)

end Sys2Proof.Machine
end

