-- ==== Sys2Proof/Machine/Resets.lean ====
section
/-! DEFINITION. The resets (01 section 1.9, R103, R178), BYPASS and the loss of power. -/

namespace Sys2Proof.Machine

/-- A line as every reset leaves it: no call, no timer, no mark; it keeps its taken enable and its inputs (R103). -/
def Line.cleared (l : Line) : Line :=
  { Line.atReset with
    state := if l.takenEnable then .idle else .disabled
    takenEnable := l.takenEnable
    officeSense := l.officeSense
    loopSense := l.loopSense
    farEnd := l.farEnd }

/-- A line starts afresh when the hold of a reset ends (R103, R106, R107). -/
def Line.start (l : Line) : Line := l.cleared.become l.cleared.state none

/-- Every block as a reset leaves it (R12, R14, R18, R27, R42, R64, R86, R103, R124, R156, R159, R168, R173, R178). The
clock, the mains supervision and the straps are kept. -/
def Part.cleared (p : Part) : Part :=
  { mode := p.mode
    straps := p.straps
    bus := Bus.empty
    mirrors := Mirrors.empty
    points := Points.empty
    queue := { records := [], clock := 0, clockMs := 0, nextId := 0 }
    routes := Vector.replicate 16 Route.empty
    lines := tabulate fun n => p.lines[n].cleared
    arbiter := { decisionPending := false, offers := Vector.replicate 4 none, formations := 0 }
    time := { p.time with nextTest := none }
    heartbeat := { timer := none, silent := false }
    notice :=
      { heads := none, causes := 0, inProgress := none, resultTag := 0, resultStatus := .inProgress,
        trouble := .off, pulseOn := false, pulseMs := 0 } }

/-- LOADING is entered after a reset: the lines start, the status word and the line state word are entered (R18, R23,
R102, R103, log 15). -/
def Part.startLoading (kind : LoadKind) (p : Part) : Part :=
  let p := { p with lines := tabulate fun n => p.lines[n].start }
  ((p.beginLoad kind).enter .windowMirrors 0x017).enter .lineEngines 0x018

/-- Every line's taken enable is on (R103). -/
def Part.enableAll (p : Part) : Part :=
  { p with lines := tabulate fun n => { p.lines[n] with takenEnable := true } }

/-- The straps are sampled (R2): inert under BYPASS, else LOADING with the result IN_PROGRESS, tag 0 (R18, R19, R178). -/
def Part.sample (straps : Straps) (kind : LoadKind) (p : Part) : Part :=
  if straps.bypass then { p.cleared with mode := .bypass, straps }
  else
    let p := if p.straps.bypass then p.enableAll else p
    Part.enter .noticeUnit 0x012 (Part.startLoading kind { p.cleared with straps })

/-- XRST becomes asserted (R18): a held cycle is passed unchanged (R17). -/
def State.assertXrst (s : State) : State :=
  match s.part.mode with
  | .off | .xrst => s
  | .bypass | .loading | .unconfigured | .stopped | .running =>
    let q := match s.part.bus.hold with
      | some h => s.pass h.cycle
      | none => s
    { q with part := { s.part.cleared with mode := .xrst } }

/-- The reset that ends the drain of a RESTART (R20, R178): DONE and the RESTART's tag stand, the straps are not sampled.
RESTART stays the command in progress, so that its tag is at hand for RESTARTED, the model's choice (log 38). -/
def Part.restartReset (p : Part) : Part :=
  let q := Part.startLoading .restart p.cleared
  { q with notice := { q.notice with
    inProgress := p.notice.inProgress
    resultTag := (p.notice.inProgress.map (·.tag)).getD 0
    resultStatus := .done } }

/-- The drain of a RESTART has nothing left to write (R20). -/
def Bus.drained (b : Bus) : Bool :=
  match b.drain with
  | some (.draining n offs _) => n == 0 && offs.isEmpty
  | none | some (.finishing _ _ _) => false

/-- The drain of a RESTART is done (R20). A cycle still held is passed unchanged, as when XRST is asserted, the model's
choice (log 30). -/
def State.drainDone (s : State) : State :=
  if s.part.bus.drained then
    let q := match s.part.bus.hold with
      | some h => s.pass h.cycle
      | none => s
    { q with part := s.part.restartReset }
  else s

/-- Power is applied (R18, R103, R154, R162): every block is reset, the clock is 0, the mains condition is NORMAL. -/
def Part.powerUp (straps : Straps) (p : Part) : Part :=
  let p := { p.enableAll with
    straps := strapsPulledDown
    time := { p.time with day := 0, minute := 0, second := 0, elapsedMs := 0, mainsActive := false }.restartMains }
  p.sample straps .powerOn

/-! ### Commands of this chapter -/

/-- POWER_ON (R18). -/
def execPowerOn (straps : Straps) (s : State) : Host.Outcome State Fault Refusal :=
  .next { s with upData := none, part := s.part.powerUp straps }

/-- POWER_LOSS (R103): every relay drops; the part holds nothing until power returns (log 20). -/
def execPowerLoss (s : State) : Host.Outcome State Fault Refusal :=
  .next { s with upData := none, part := { s.part.cleared with mode := .off } }

/-- XRST_ASSERT (R18). -/
def execXrstAssert (s : State) : Host.Outcome State Fault Refusal := .next s.assertXrst

/-- XRST_RELEASE (R18, R19). -/
def execXrstRelease (straps : Straps) (s : State) : Host.Outcome State Fault Refusal :=
  if s.part.mode = .xrst then .next { s with part := s.part.sample straps .xrst } else .next s

/-- RESTART_DRAIN_DONE (R20). -/
def execRestartDrainDone (s : State) : Host.Outcome State Fault Refusal := .next s.drainDone

end Sys2Proof.Machine
end

