-- ==== Sys2Proof/Machine/Idle.lean ====
section
/-! DEFINITION. What the part does of itself when no command waits (log 5): the next of its own steps that can be
taken, or else one ms of time, at the end of which the steps then due wait. -/

namespace Sys2Proof.Machine

/-! ### Steps that wait on no time -/

/-- The row that takes a piece of Point Engine work; ADOPT BASELINE and CLEAR TROUBLE have none (log 10). -/
def Work.row : Work → Option Instr
  | .disable _ => some .pointDisable
  | .enable _ => some .pointEnable
  | .group .isolate _ => some .isolate
  | .group .deisolate _ => some .deisolate
  | .group .rescan _ => some .rescan
  | .condition _ _ => some .conditionChange
  | .test _ _ => some .testRequest
  | .delivery _ _ _ _ _ => some .deliveryNotice
  | .notice _ _ => some .queueNotice
  | .adopt | .clearTrouble => none

/-- The row that takes an offer (R124). -/
def Offer.row (n : LineNo) (o : Offer) : Instr :=
  match o.kind with
  | .idleGrant | .bargeGrant => .grantOffer n
  | .preemption => .preemptionOffer n
  | .join => .joinOffer n

/-- The oldest waiter of the write-back queue can be admitted (R12). -/
def Bus.canAdmit (b : Bus) : Bool :=
  match b.wbWait with
  | w :: _ => decide (b.wbq.length < Config.writeBackPlaces) || b.wbq.contains w.first
  | [] => false

/-- The oldest waiting log record can enter (R14). -/
def Bus.canStage (b : Bus) : Bool := !b.logWait.isEmpty && decide (b.staging.length < Config.stagingPlaces)

/-- The hold can end (R15, R16). -/
def Part.canEndHold (p : Part) : Bool :=
  match p.bus.hold with
  | some h =>
    match h.stalled with
    | none => p.bus.entered h.before
    | some t => p.placeFor (some t) p.mirrors.waitsSince
  | none => false

/-- RELOAD can go on: with its next read, or with the capture that has waited (R37, R44). -/
def State.canReload (s : State) : Bool :=
  s.part.mode.serving &&
  match s.part.mirrors.reload with
  | some { waiting := some w, .. } => s.part.reloadReady w
  | some { waiting := none, .. } => s.part.bus.mayRead
  | none => false

/-- The Point Engine's next piece of work, when the engine is free. -/
def Part.nextWork (p : Part) : Option Instr :=
  if p.mode.serving && p.engineFree then
    match p.points.work with
    | w :: _ => w.row
    | [] => if p.points.fifo.isEmpty then none else some .fifoEntryTaken
  else none

/-- The first offer in flight. -/
def Part.nextOffer (p : Part) : Option Instr :=
  if p.mode.live then (List.finRange 4).findSome? fun n => p.arbiter.offers[n].map (Offer.row n) else none

/-- The next inserted cycle, in the order of R11. -/
def State.nextInserted (s : State) : Option Instr :=
  let b := s.part.bus
  if !s.part.mode.live then none
  else if b.mayStage && !b.staging.isEmpty then some .logStagingWrite
  else if b.mayBack && b.nextBack.isSome then some .writeBack
  else if s.part.mode = .loading ∧ s.part.mirrors.load.isSome ∧ b.mayRead then some .loadRead
  else if s.canReload then some .reloadRead
  else if s.part.mode = .unconfigured ∧ s.part.mirrors.timeReads.isSome ∧ b.mayRead then some .setTimeRead
  else none

/-- The first of a list of steps that can be taken. -/
def firstOf (cs : List (Option Instr)) : Option Instr := cs.findSome? id

/-- A step that can be taken under a condition. -/
def onlyIf (b : Bool) (c : Instr) : Option Instr := if b then some c else none

/-- The next of the part's own steps that waits on no time. -/
def State.nextOwn (s : State) : Option Instr :=
  let p := s.part
  firstOf
    [onlyIf (p.mode.live && p.bus.canAdmit) .writeBackEntryAdmitted,
     onlyIf (p.mode.live && p.bus.canStage) .logRecordAdmitted,
     onlyIf (p.mode.live && p.canEndHold) .waitHoldEnd,
     onlyIf (p.mode.live && p.bus.drained) .restartDrainDone,
     p.nextWork,
     p.nextOffer,
     onlyIf (p.mode.serving && p.arbiter.decisionPending) .decision,
     s.nextInserted,
     onlyIf (p.mode.serving && p.maySweep && p.points.nextOwed.isSome) .owedSweepStep]

/-! ### One ms of time -/

/-- The detector of a line listens (R111). -/
def Line.listens (l : Line) : Bool :=
  match l.state with
  | .dialtone | .ringback => true
  | .dialing => l.inWait
  | .linked => l.call.any fun c => decide (c.phase ≠ .sending ∧ c.phase ≠ .ending)
  | .disabled | .idle | .office | .fault | .breaking | .release => false

/-- The frequency on the line pair in this ms, and what follows it. -/
def farEndTick : List (Nat × Nat) → Nat × List (Nat × Nat)
  | [] => (0, [])
  | (f, ms) :: rest => (f, if ms ≤ 1 then rest else (f, ms - 1) :: rest)

/-- The step a token calls for in the state of its line (R112). -/
def Line.onToken (n : LineNo) (l : Line) (t : Token) : Option Instr :=
  match l.state, t with
  | .dialtone, .dialTone | .dialing, .dialTone => some (.dialTone n)
  | .ringback, .busy => some (.busy n)
  | .ringback, .ready => some (.ready n)
  | .linked, .ack => if l.call.any (·.phase = .window) then some (.ack n) else none
  | .linked, .repeatToken => if l.call.any (·.phase = .window) then some (.repeatToken n) else none
  | _, _ => none

/-- The step the end of the interval in progress calls for. -/
def Line.onTimer (n : LineNo) (l : Line) : Option Instr :=
  match l.state with
  | .breaking => some (.breakExpiry n)
  | .dialtone => some (.dialToneWaitExpiry n)
  | .dialing => some (if l.inWait then .waitSymbolExpiry n else .dialSymbolEnd n)
  | .ringback => some (.ringbackExpiry n)
  | .linked =>
    match l.call.map Call.phase with
    | some .handshake => some (.handshakeExpiry n)
    | some .turnaround => some (.turnaroundEnd n)
    | some .sending => some (.burstSendingEnd n)
    | some .window => if l.detector.burst.measuring then none else some (.windowExpiry n)
    | some .ending => some (.endSymbolEnd n)
    | some .none | none => none
  | .release => some (.releaseGuardEnd n)
  | .disabled | .idle | .office | .fault => none

/-- A line after one ms in a part that works. -/
def Line.tick (l : Line) : Line × List Token :=
  let far := farEndTick l.farEnd
  let d := if l.listens then l.detector.tick far.1 else (Detector.empty, [])
  ({ l with
    farEnd := far.2
    detector := d.1
    timer := l.timer.map (· - 1)
    debounce := l.debounce.map (· + 1)
    loopLoss := l.loopLoss.map (· + 1)
    currentLoss := l.currentLoss.map (· + 1)
    presence := if l.loopSense then l.presence.map (· + 1) else l.presence }, d.2)

/-- The steps due on a line after a ms, in the order they are taken (log 29). A loop-loss count that reached 10 s off-hook
and is carried into RELEASE, or by a preemption into BREAK, expires there, the model's choice (log 36). -/
def Line.due (n : LineNo) (l : Line) (tokens : List Token) : List Instr :=
  tokens.filterMap (l.onToken n) ++
    (firstOf [onlyIf (l.call.any (·.phase = .handshake) && l.readyStopped)
      (.readyToneStopped n)]).toList ++
    (onlyIf (l.state.offHook && reached l.currentLoss Config.farClearMs) (.farClear n)).toList ++
    (onlyIf (!l.state.offHook && !l.lossExpired && reached l.loopLoss Config.loopLossMs) (.loopLossExpiry n)).toList ++
    (if l.timeUp then (l.onTimer n).toList else []) ++
    (onlyIf (reached l.presence Config.presenceMs && l.loopSense) (.presenceTimerExpiry n)).toList ++
    (onlyIf (decide (l.state = .idle) && reached l.debounce Config.officeOnMs) (.officeUseBegins n)).toList ++
    (onlyIf (decide (l.state = .office) && reached l.debounce Config.officeOffMs) (.officeUseEnds n)).toList

/-- The queue clock after one ms (R82). -/
def Queue.tick (q : Queue) : Queue :=
  if q.clockMs + 1 < Config.secondMs then { q with clockMs := q.clockMs + 1 }
  else { q with clock := q.clock + 1, clockMs := 0 }

/-- The retry and hold times that have come (R82, R83). -/
def Queue.due (q : Queue) : List Instr :=
  q.records.filterMap fun r =>
    match r.state with
    | .waiting => onlyIf (r.retry.any (· ≤ q.clock)) (.retryTimePassed r.slot)
    | .held => onlyIf (r.holdUntil.any (· ≤ q.clock)) (.holdExpiry r.slot)
    | .assigned | .sending => none

/-- The time base after one ms (R154, R162). -/
def TimeBase.tick (t : TimeBase) : TimeBase :=
  { t with elapsedMs := t.elapsedMs + 1, mainsTimer := t.mainsTimer.map (· + 1) }

/-- The steps the time base has due. -/
def TimeBase.due (t : TimeBase) : List Instr :=
  (onlyIf (decide (Config.secondMs ≤ t.elapsedMs)) .clockSecond).toList ++
    (onlyIf (reached t.mainsTimer Config.mainsMs) .mainsTimerExpiry).toList

/-- One ms passes in a part that works. -/
def Part.tickLive (p : Part) : Part :=
  { p with
    time := p.time.tick
    queue := p.queue.tick
    lines := tabulate fun n => (p.lines[n].tick).1
    heartbeat := { p.heartbeat with timer := p.heartbeat.timer.map (· + 1) }
    notice := { p.notice with
      pulseMs := if p.notice.trouble = .pulsed then p.notice.pulseMs + 1 else p.notice.pulseMs } }

/-- The steps due after a ms in a part that works (log 29). -/
def Part.dueLive (old new : Part) : List Instr :=
  new.time.due ++
    (List.finRange 4).flatMap (fun n => Line.due n new.lines[n] (old.lines[n].tick).2) ++
    new.queue.due ++
    (onlyIf (new.mode.serving && reached new.heartbeat.timer (Config.secondMs * new.heartbeatPeriod))
      .heartbeatExpiry).toList ++
    (onlyIf (decide (new.notice.trouble = .pulsed ∧ Config.pulseMs ≤ new.notice.pulseMs)) .troublePulseToggle).toList

/-- One ms of time (log 5). Under XRST and in BYPASS only the time base counts (R18, R19, R154, R162); without power
nothing does. -/
def State.tick (s : State) : State :=
  match s.part.mode with
  | .off => s
  | .xrst | .bypass =>
    let t := s.part.time.tick
    { s with part := { s.part with time := t }, pending := t.due }
  | .loading | .unconfigured | .stopped | .running =>
    let p := s.part.tickLive
    { s with part := p, pending := Part.dueLive s.part p }

/-- What a step does when no command waits (log 5). -/
def State.idle (s : State) : State :=
  match s.nextOwn with
  | some c => { s with pending := [c] }
  | none => s.tick

end Sys2Proof.Machine
end

