-- ==== Sys2Proof/Machine/Dispatch.lean ====
section
/-! DEFINITION. One arm per command. -/

namespace Sys2Proof.Machine

def exec (i : Instr) (s : State) : Host.Outcome State Fault Refusal :=
  match i with
  | .powerOn straps => Sys2Proof.Machine.execPowerOn straps s
  | .powerLoss => Sys2Proof.Machine.execPowerLoss s
  | .xrstAssert => Sys2Proof.Machine.execXrstAssert s
  | .xrstRelease straps => Sys2Proof.Machine.execXrstRelease straps s
  | .panelWrite strobes addr data => Sys2Proof.Machine.execPanelWrite strobes addr data s
  | .waitHoldEnd => Sys2Proof.Machine.execWaitHoldEnd s
  | .heldCycleAbandoned => Sys2Proof.Machine.execHeldCycleAbandoned s
  | .writeBack => Sys2Proof.Machine.execWriteBack s
  | .writeBackEntryAdmitted => Sys2Proof.Machine.execWriteBackEntryAdmitted s
  | .logStagingWrite => Sys2Proof.Machine.execLogStagingWrite s
  | .logRecordAdmitted => Sys2Proof.Machine.execLogRecordAdmitted s
  | .loadRead => Sys2Proof.Machine.execLoadRead s
  | .reloadRead => Sys2Proof.Machine.execReloadRead s
  | .setTimeRead => Sys2Proof.Machine.execSetTimeRead s
  | .start tag spare => Sys2Proof.Machine.execStart tag spare s
  | .stop tag spare => Sys2Proof.Machine.execStop tag spare s
  | .abortCalls tag spare => Sys2Proof.Machine.execAbortCalls tag spare s
  | .reload tag spare => Sys2Proof.Machine.execReload tag spare s
  | .adoptBaseline tag spare => Sys2Proof.Machine.execAdoptBaseline tag spare s
  | .testCall tag spare => Sys2Proof.Machine.execTestCall tag spare s
  | .setTime tag spare => Sys2Proof.Machine.execSetTime tag spare s
  | .clearTrouble tag spare => Sys2Proof.Machine.execClearTrouble tag spare s
  | .releaseHeld tag spare => Sys2Proof.Machine.execReleaseHeld tag spare s
  | .restart tag spare => Sys2Proof.Machine.execRestart tag spare s
  | .unknownCommand code tag spare => Sys2Proof.Machine.execUnknownCommand code tag spare s
  | .restartDrainDone => Sys2Proof.Machine.execRestartDrainDone s
  | .causeWordWrite data => Sys2Proof.Machine.execCauseWordWrite data s
  | .causeEnableWrite data => Sys2Proof.Machine.execCauseEnableWrite data s
  | .heartbeat data => Sys2Proof.Machine.execHeartbeat data s
  | .heartbeatPeriodChange data => Sys2Proof.Machine.execHeartbeatPeriodChange data s
  | .batteryThresholdChange data => Sys2Proof.Machine.execBatteryThresholdChange data s
  | .testScheduleChange which data => Sys2Proof.Machine.execTestScheduleChange which data s
  | .logTailWrite data => Sys2Proof.Machine.execLogTailWrite data s
  | .lineEnableChange line data => Sys2Proof.Machine.execLineEnableChange line data s
  | .routeDescriptorWrite route which data => Sys2Proof.Machine.execRouteDescriptorWrite route which data s
  | .budgetWrite route data => Sys2Proof.Machine.execBudgetWrite route data s
  | .accessedFlagClear route data => Sys2Proof.Machine.execAccessedFlagClear route data s
  | .directoryWrite dest word data => Sys2Proof.Machine.execDirectoryWrite dest word data s
  | .pointEntryWrite point data => Sys2Proof.Machine.execPointEntryWrite point data s
  | .pointDisable => Sys2Proof.Machine.execPointDisable s
  | .pointEnable => Sys2Proof.Machine.execPointEnable s
  | .isolate => Sys2Proof.Machine.execIsolate s
  | .deisolate => Sys2Proof.Machine.execDeisolate s
  | .rescan => Sys2Proof.Machine.execRescan s
  | .fifoEntryTaken => Sys2Proof.Machine.execFifoEntryTaken s
  | .owedSweepStep => Sys2Proof.Machine.execOwedSweepStep s
  | .conditionChange => Sys2Proof.Machine.execConditionChange s
  | .testRequest => Sys2Proof.Machine.execTestRequest s
  | .deliveryNotice => Sys2Proof.Machine.execDeliveryNotice s
  | .queueNotice => Sys2Proof.Machine.execQueueNotice s
  | .retryTimePassed slot => Sys2Proof.Machine.execRetryTimePassed slot s
  | .holdExpiry slot => Sys2Proof.Machine.execHoldExpiry slot s
  | .decision => Sys2Proof.Machine.execDecision s
  | .grantOffer line => Sys2Proof.Machine.execGrantOffer line s
  | .preemptionOffer line => Sys2Proof.Machine.execPreemptionOffer line s
  | .joinOffer line => Sys2Proof.Machine.execJoinOffer line s
  | .officeSenseChange line asserted => Sys2Proof.Machine.execOfficeSenseChange line asserted s
  | .officeUseBegins line => Sys2Proof.Machine.execOfficeUseBegins line s
  | .officeUseEnds line => Sys2Proof.Machine.execOfficeUseEnds line s
  | .loopSenseChange line present => Sys2Proof.Machine.execLoopSenseChange line present s
  | .loopLossExpiry line => Sys2Proof.Machine.execLoopLossExpiry line s
  | .presenceTimerExpiry line => Sys2Proof.Machine.execPresenceTimerExpiry line s
  | .farClear line => Sys2Proof.Machine.execFarClear line s
  | .breakExpiry line => Sys2Proof.Machine.execBreakExpiry line s
  | .dialTone line => Sys2Proof.Machine.execDialTone line s
  | .dialToneWaitExpiry line => Sys2Proof.Machine.execDialToneWaitExpiry line s
  | .dialSymbolEnd line => Sys2Proof.Machine.execDialSymbolEnd line s
  | .waitSymbolExpiry line => Sys2Proof.Machine.execWaitSymbolExpiry line s
  | .busy line => Sys2Proof.Machine.execBusy line s
  | .ready line => Sys2Proof.Machine.execReady line s
  | .ringbackExpiry line => Sys2Proof.Machine.execRingbackExpiry line s
  | .readyToneStopped line => Sys2Proof.Machine.execReadyToneStopped line s
  | .handshakeExpiry line => Sys2Proof.Machine.execHandshakeExpiry line s
  | .turnaroundEnd line => Sys2Proof.Machine.execTurnaroundEnd line s
  | .burstSendingEnd line => Sys2Proof.Machine.execBurstSendingEnd line s
  | .ack line => Sys2Proof.Machine.execAck line s
  | .repeatToken line => Sys2Proof.Machine.execRepeatToken line s
  | .windowExpiry line => Sys2Proof.Machine.execWindowExpiry line s
  | .endSymbolEnd line => Sys2Proof.Machine.execEndSymbolEnd line s
  | .releaseGuardEnd line => Sys2Proof.Machine.execReleaseGuardEnd line s
  | .clockSecond => Sys2Proof.Machine.execClockSecond s
  | .heartbeatExpiry => Sys2Proof.Machine.execHeartbeatExpiry s
  | .mainsLostChange asserted => Sys2Proof.Machine.execMainsLostChange asserted s
  | .mainsTimerExpiry => Sys2Proof.Machine.execMainsTimerExpiry s
  | .troublePulseToggle => Sys2Proof.Machine.execTroublePulseToggle s
  | .panelRead strobes addr => Sys2Proof.Machine.execPanelRead strobes addr s

end Sys2Proof.Machine
end

