-- ==== Sys2Proof/Machine/Step.lean ====
section
/-! DEFINITION. One step: the command at the front of the queue, or what the part does of itself. -/

namespace Sys2Proof.Machine

/-- A step takes the command at the front of the queue; with no command waiting the part goes on of itself (log 5). -/
def step (s : State) : Host.Outcome State Fault Refusal :=
  match s.pending with
  | c :: q => exec c { s with pending := q }
  | [] => .next s.idle

/-- The command a table word spells, put at the front of the queue; no word spells one. -/
def State.withFetchWord (s : State) (nbits w : Nat) : State :=
  match decodeTableWord nbits w with
  | some c => { s with pending := c :: s.pending }
  | none => s

end Sys2Proof.Machine
end

