-- ==== Sys2Proof/Safety.lean ====
section
/-! DEFINITION. The terms claims are stated in: what a step leaves unchanged, the invariants, and the conditions under
which a command has its effect at once. -/

namespace Sys2Proof.Machine

/-! ### What a step leaves unchanged -/

/-- The blocks of the part. -/
inductive Block where
  | mode
  | straps
  | bus
  | mirrors
  | points
  | queue
  | routes
  | lines
  | arbiter
  | time
  | heartbeat
  | notice
deriving DecidableEq, Repr

/-- A block holds the same in two states of the part. -/
def Block.same (p q : Part) : Block → Prop
  | .mode => q.mode = p.mode
  | .straps => q.straps = p.straps
  | .bus => q.bus = p.bus
  | .mirrors => q.mirrors = p.mirrors
  | .points => q.points = p.points
  | .queue => q.queue = p.queue
  | .routes => q.routes = p.routes
  | .lines => q.lines = p.lines
  | .arbiter => q.arbiter = p.arbiter
  | .time => q.time = p.time
  | .heartbeat => q.heartbeat = p.heartbeat
  | .notice => q.notice = p.notice

/-- Every block but those named is unchanged. -/
def Part.keepsBut (bs : List Block) (p q : Part) : Prop := ∀ b, b ∉ bs → b.same p q

/-- Memory, the upstream data, the queue of commands, and every block but those named are unchanged. -/
def State.keepsBut (bs : List Block) (s t : State) : Prop :=
  t.mem = s.mem ∧ t.upData = s.upData ∧ t.pending = s.pending ∧ s.part.keepsBut bs t.part

/-- Of the Bus Path nothing but the write-back queue has changed, and that has lost no address. -/
def Bus.keepsButEntries (b c : Bus) : Prop :=
  c.staging = b.staging ∧ c.stagePos = b.stagePos ∧ c.logWait = b.logWait ∧ c.hold = b.hold ∧ c.drain = b.drain ∧
    b.wbq <+: c.wbq

/-- Of the Notice Unit nothing but the trouble pattern and its output has changed. -/
def Notice.keepsButTrouble (n m : Notice) : Prop :=
  m.heads = n.heads ∧ m.causes = n.causes ∧ m.inProgress = n.inProgress ∧ m.resultTag = n.resultTag ∧
    m.resultStatus = n.resultStatus

/-- A step that may enter addresses and derive the trouble pattern again, and else changes only the blocks named. -/
def State.quietBut (bs : List Block) (s t : State) : Prop :=
  s.keepsBut (.bus :: .notice :: bs) t ∧ s.part.bus.keepsButEntries t.part.bus ∧
    s.part.notice.keepsButTrouble t.part.notice

/-- Every line but one is unchanged. -/
def Part.keepsOtherLines (n : LineNo) (p q : Part) : Prop := ∀ m, m ≠ n → q.line m = p.line m

/-- Every shadow entry but one is unchanged. -/
def Part.keepsOtherShadows (i : PointNo) (p q : Part) : Prop := ∀ j, j ≠ i → q.shadow j = p.shadow j

/-- Every word of memory but the one at an address reads as before. -/
def State.writesOnly (a : Nat) (s t : State) : Prop := ∀ b, b ≠ a → t.mem.read b = s.mem.read b

/-- A command answers a next state of which `Q` holds. -/
def Answers (c : Instr) (s : State) (Q : State → Prop) : Prop := ∃ t, exec c s = .next t ∧ Q t

/-- The window address of an offset, as a number. -/
def State.wordAddress (s : State) (off : Nat) : Nat := windowBase s.part.straps + off

/-- Outside the part a panel write stores a word at a window offset and nothing else. -/
def State.stores (off : Nat) (w : Word) (s t : State) : Prop :=
  t.mem.read (s.wordAddress off) = w ∧ s.writesOnly (s.wordAddress off) t ∧ t.upData = s.upData ∧ t.pending = s.pending

/-- The mirrors of every word but some are unchanged, and so is what else the Window Mirrors hold. -/
def Part.keepsMirrorsBut (offs : List Nat) (p q : Part) : Prop :=
  q.mirrors = { p.mirrors with words := q.mirrors.words } ∧ ∀ a, a ∉ offs → q.mirror a = p.mirror a

/-- A held cycle, if there is one, has been passed unchanged to memory (R17, R18). -/
def State.heldPassed (s t : State) : Prop :=
  match s.part.bus.hold with
  | none => t.mem = s.mem ∧ t.upData = s.upData
  | some h => match h.cycle with
    | .read a => t.mem = s.mem ∧ t.upData = some (s.mem.read a.toNat)
    | .write a w => t.mem = s.mem.write a.toNat w ∧ t.upData = s.upData

/-! ### Conditions on the state -/

/-- An address is in the write-back queue, or waits for a place in it (R12). -/
abbrev Bus.hasEntry (off : Nat) (b : Bus) : Prop :=
  off ∈ b.wbq ∨ ∃ w ∈ b.wbWait, w.first = off ∨ off ∈ w.later

/-- The three time words have been entered, and are in the queue where it had room for them and `before` others (R154). -/
abbrev Part.timeEntered (before : Nat) (p q : Part) : Prop :=
  ∀ a ∈ [0x01A, 0x01B, 0x01C], q.bus.hasEntry a ∧
    (p.bus.wbWait = [] → p.bus.wbq.length + before + 3 ≤ Config.writeBackPlaces → a ∈ q.bus.wbq)

/-- A panel cycle that begins now is not held by R15, and none is held. -/
abbrev State.busFree (s : State) : Prop := s.part.bus.hold = none ∧ s.part.bus.full = false

/-- A panel write that begins now is made at once and memory can take it. -/
abbrev State.writable (s : State) : Prop := s.mem.wf = true ∧ s.busFree ∧ s.part.mirrors.words.wf = true

/-- A command written now meets no other command in progress (R175). -/
abbrev State.commandFree (s : State) : Prop := s.writable ∧ s.part.notice.inProgress = none

/-- The Point Engine is free and no piece of work waits. -/
abbrev Part.engineIdle (p : Part) : Prop := p.engineFree = true ∧ p.points.work = []

/-- The oldest piece of work that waits, for an engine that is free. -/
abbrev Part.nextIs (w : Work) (p : Part) : Prop := p.engineFree = true ∧ p.points.work = [w]

/-- The trouble pattern held is the one the conditions call for (R166). -/
abbrev Part.troubleCurrent (p : Part) : Prop := p.troubleDue = p.notice.trouble

/-- The Report Queue holds at most 64 records, in the order of their admission numbers, each in a slot of its own (R60,
R62, R63). -/
abbrev Queue.sound (q : Queue) : Prop :=
  q.count ≤ Config.queuePlaces ∧ (q.records.map (·.id)).Pairwise (· < ·) ∧ (∀ r ∈ q.records, r.id < q.nextId) ∧
    (q.records.map (·.slot)).Nodup

/-- The row of the opcode table a command code belongs to (R22). -/
def commandRow (code : BitVec 4) (tag : BitVec 8) (spare : BitVec 4) : Instr :=
  match code.toNat with
  | 1 => .start tag spare
  | 2 => .stop tag spare
  | 3 => .abortCalls tag spare
  | 4 => .reload tag spare
  | 5 => .adoptBaseline tag spare
  | 6 => .testCall tag spare
  | 7 => .setTime tag spare
  | 8 => .clearTrouble tag spare
  | 9 => .releaseHeld tag spare
  | 10 => .restart tag spare
  | _ => .unknownCommand code tag spare

/-- The result word shows a status with a tag. -/
abbrev Part.shows (tag : BitVec 8) (st : ResultStatus) (p : Part) : Prop :=
  p.notice.resultTag = tag ∧ p.notice.resultStatus = st

/-- A command word has been taken: memory and the mirror hold it, and nothing has changed but the blocks named, the Bus
Path and the Notice Unit. -/
def State.commandTaken (code : BitVec 4) (tag : BitVec 8) (spare : BitVec 4) (bs : List Block) (s t : State) : Prop :=
  s.stores 0x010 (commandWord code tag spare) t ∧ s.part.keepsBut (.bus :: .mirrors :: .notice :: bs) t.part ∧
    (∀ a, t.part.mirror a = if a = 0x010 then commandWord code tag spare else s.part.mirror a) ∧
    t.part.mirrors.valid = s.part.mirrors.valid

/-- The log records staged and waiting, oldest first. -/
def Bus.logged (b : Bus) : List LogRecord := b.staging.map (·.record) ++ b.logWait.map (·.2.record)

/-- The COMMAND log record of a final result (R172). -/
def commandLog (p : Part) (code : BitVec 4) (tag : BitVec 8) (st : ResultStatus) : LogRecord :=
  LogRecord.stamp p.now
    { kind := .command, code := tag.setWidth 10, attempts := code, reason := BitVec.ofNat 3 st.code }

/-- A final result has been written (R176): the result word, cause COMMAND where enabled, the newest log record. -/
def Part.answered (code : BitVec 4) (tag : BitVec 8) (st : ResultStatus) (p q : Part) : Prop :=
  q.shows tag st ∧ (p.causeEnable.getLsbD Cause.command.index = true → q.notice.causes.getLsbD Cause.command.index = true) ∧
    (p.mode.serving = true → p.notice.heads.isSome = true →
      q.bus.logged.getLast? = some (commandLog q code tag st))

/-- What every reset discards is empty: the queues of the Bus Path, the mirrors, the Point Engine, the Report Queue, the
Route Block, calls and line timers, offers, the test day, heartbeat supervision, causes and log heads (R12, R14, R27, R42,
R64, R86, R103, R124, R156, R159, R168, R173). -/
def Part.discarded (p : Part) : Prop :=
  p.bus.wbWait = [] ∧ p.bus.staging = [] ∧ p.bus.logWait = [] ∧ p.bus.hold = none ∧ p.bus.drain = none ∧
    p.mirrors.words = [] ∧ p.mirrors.reload = none ∧ p.mirrors.timeReads = none ∧ p.points = Points.empty ∧
    p.queue.records = [] ∧ p.queue.clock = 0 ∧ (∀ r, p.route r = Route.empty) ∧
    (∀ n, (p.line n).call = none ∧ (p.line n).disablePending = false ∧ (p.line n).timer = none) ∧
    p.arbiter.decisionPending = false ∧ (∀ n : LineNo, p.arbiter.offers[n] = none) ∧ p.time.nextTest = none ∧
    p.heartbeat.timer = none ∧ p.heartbeat.silent = false ∧ p.notice.causes = 0 ∧ p.notice.heads = none

/-- The clock and the mains supervision are as they were. -/
def TimeBase.kept (t u : TimeBase) : Prop :=
  u.day = t.day ∧ u.minute = t.minute ∧ u.second = t.second ∧ u.elapsedMs = t.elapsedMs ∧ u.mainsLost = t.mainsLost ∧
    u.mainsActive = t.mainsActive ∧ u.mainsTimer = t.mainsTimer

/-- The log records made since `p` are these, where the Notice Unit holds the log heads (R169). -/
def Part.logsMade (p : Part) (logs : List LogRecord) (q : Part) : Prop :=
  p.mode.serving = true → p.notice.heads.isSome = true → q.bus.logged = p.bus.logged ++ logs

/-- A cause is set where it is enabled (R173). -/
def Part.causeSet (p : Part) (c : Cause) (q : Part) : Prop :=
  p.causeEnable.getLsbD c.index = true → q.notice.causes.getLsbD c.index = true

/-! ### Requests (R65 to R73) -/

/-- A request has been admitted behind the records that stay, in the lowest-numbered slot they leave free (R60, R68). -/
def Part.admittedAfter (rq : Request) (stay : List Record) (p q : Part) : Prop :=
  ∃ r : Record, q.queue.records = stay ++ [r] ∧ r.point = rq.point ∧ r.sense = rq.sense ∧ r.code = rq.code ∧
    r.priority = rq.priority ∧ r.route = rq.route ∧ r.unrouted = rq.unrouted ∧ r.fold = 0 ∧ r.state = .waiting ∧
    r.leg = (if p.stickyLeg rq.route then (p.route rq.route).lastLeg else .primary) ∧ r.attempts = 0 ∧ r.cycles = 0 ∧
    r.retry = none ∧ r.holdUntil = none ∧ r.created = p.now ∧ r.call = none ∧ (∀ x ∈ stay, x.slot ≠ r.slot) ∧
    (∀ k < r.slot, ∃ x ∈ stay, x.slot = k) ∧ q.arbiter.decisionPending = true

/-- A record with a request folded into it (R66; R69 for TEST). -/
def Record.foldedOnce (rq : Request) (x : Record) : Record :=
  { x with
    code := rq.code
    priority := min x.priority rq.priority
    fold := min 9 (x.fold + 1)
    route := if rq.sense = .test then x.route else rq.route
    unrouted := if rq.sense = .test then x.unrouted else rq.unrouted }

/-- A record with a request folded into it twice over (R67). -/
def Record.foldedTwice (rq : Request) (x : Record) : Record :=
  { x with
    code := if rq.sense = .active then rq.code else x.code
    priority := min x.priority rq.priority
    fold := min 9 (x.fold + 2)
    route := if rq.sense = .active then rq.route else x.route
    unrouted := if rq.sense = .active then rq.unrouted else x.unrouted }

/-- A request has been folded into X, which became X', and the records dropped have been withdrawn (R66, R67, R74). No other
work waits for the Point Engine; `later` are log records of the same step that follow. -/
def Part.foldedInto (x x' : Record) (dropped : List Record) (later : List LogRecord) (p q : Part) : Prop :=
  q.queue.records = (p.queue.records.filter (· ∉ dropped)).map (fun z => if z = x then x' else z) ∧
    p.logsMade (dropped.map (p.droppedLog .withdrawn) ++ later) q ∧
    q.points.work = dropped.map (fun r => .notice .withdrawal r.point) ∧
    q.arbiter.decisionPending = (p.arbiter.decisionPending || decide (x.state = .waiting))

/-- The record of a full queue that has to give way is this one: of those WAITING and HELD the last in service order (R71). -/
def Queue.givesWay (q : Queue) (v : Record) : Prop :=
  v ∈ q.records ∧ v.chained = true ∧
    ∀ z ∈ q.records, z.chained = true → z.priority < v.priority ∨ (z.priority = v.priority ∧ z.id ≤ v.id)

/-- A request that needs a new record has been admitted in a free place, admitted by eviction, or refused (R68, R71 to R73). -/
def Part.placed (rq : Request) (later : List LogRecord) (p q : Part) : Prop :=
  if p.queue.count < Config.queuePlaces then
    p.admittedAfter rq p.queue.records q ∧ p.logsMade later q ∧ q.points.work = []
  else
    ∀ v, p.queue.givesWay v →
      p.causeSet .queue q ∧
      if rq.priority < v.priority ∧ v.point ≠ rq.point then
        let gone := p.queue.records.filter fun z => decide (z.point = v.point ∧ v.id ≤ z.id) && z.chained
        p.admittedAfter rq (p.queue.records.filter (· ∉ gone)) q ∧
          p.logsMade (gone.map (p.droppedLog .evicted) ++ later) q ∧ q.points.work = [.notice .eviction v.point]
      else
        q.queue = p.queue ∧ q.arbiter = p.arbiter ∧ q.points.work = [] ∧
          (rq.point.val < 263 → (q.shadow rq.point).owed = true) ∧
          p.logsMade (LogRecord.stamp p.now
            { kind := .refused, dest := BitVec.ofNat 3 (p.primaryDest rq.route).val, sense := rq.sense.code
              point := BitVec.ofNat 9 rq.point.val, code := rq.code } :: later) q

/-- What the table of R65 makes of a request, said where no other work waits for the Point Engine: it is folded once or
twice over, or placed; the report status of its point is derived again (R41, R49). -/
def Part.requested (rq : Request) (later : List LogRecord) (p q : Part) : Prop :=
  (q.shadow rq.point).status = q.derivedStatus rq.point ∧
    match p.queue.chain rq.point with
    | [] => p.placed rq later q
    | [x] => if x.sense = rq.sense then p.foldedInto x (x.foldedOnce rq) [] later q else p.placed rq later q
    | x :: y :: _ =>
      if y.sense = rq.sense then p.foldedInto y (y.foldedOnce rq) [] later q
      else if x.sense = rq.sense then p.foldedInto x (x.foldedTwice rq) [y] later q
      else p.placed rq later q

/-- The WAITING and HELD records of a point have been withdrawn, each with a WITHDRAWN log record and a notice (R74). -/
def Part.withdrawn (i : PointNo) (p q : Part) : Prop :=
  q.queue.records = p.queue.records.filter (fun r => !(decide (r.point = i) && r.chained)) ∧
    (p.notice.heads.isSome = true →
      q.bus.logged = p.bus.logged ++ (p.queue.chain i).map (p.droppedLog .withdrawn))

/-- A step of one line: what else changes is addresses entered, the trouble pattern and the arbiter's mark. -/
def State.lineStep (n : LineNo) (s t : State) : Prop := s.quietBut [.lines, .arbiter] t ∧ s.part.keepsOtherLines n t.part

/-! ### The ends of calls -/

/-- The undelivered records of a call, in assignment order, are these (R120, R142). -/
def Queue.carries (q : Queue) (c : Call) (rs : List Record) : Prop :=
  rs.map (·.slot) = c.undelivered ∧ ∀ r ∈ rs, r ∈ q.records

/-- No other record of the queue is of a point of these. -/
def Queue.alone (q : Queue) (rs : List Record) : Prop := ∀ r ∈ rs, ∀ z ∈ q.records, z.point = r.point → z = r

/-- A record after a counted failure of its call (R78, R79). -/
def Part.afterFailure (p : Part) (r : Record) : Record :=
  let limit := decide (p.legLimit r.route ≤ r.attempts + 1)
  let toBackup := limit && decide (r.leg = .primary) && (p.backupDest r.route).isSome
  let cycles := if limit && !toBackup then r.cycles + 1 else r.cycles
  if p.cycleLimit r.route ≤ cycles then
    { r with
      state := .held, call := none, leg := .primary, attempts := 0, cycles := 0, retry := none
      holdUntil := some (p.queue.clock + 60 * p.holdInterval r.route) }
  else
    { r with
      state := .waiting, call := none, cycles
      leg := if !limit then r.leg else if toBackup then .backup else .primary
      attempts := if limit then 0 else r.attempts + 1
      retry := if p.retryDelay r.route = 0 then none else some (p.queue.clock + p.retryDelay r.route) }

/-- The log record of a counted failure (R85): the leg before it, the attempts with it. -/
def Part.failLog (p : Part) (n : LineNo) (c : Call) (why : FailReason) (kind : LogKind) (r : Record) : LogRecord :=
  LogRecord.stamp p.now
    { kind, line := BitVec.ofNat 2 n.val, dest := BitVec.ofNat 3 c.dest.val, sense := r.sense.code, reason := why.code
      leg := r.leg, point := BitVec.ofNat 9 r.point.val, code := r.code, fold := BitVec.ofNat 4 r.fold
      attempts := BitVec.ofNat 4 (r.attempts + 1) }

/-- A counted failure has been accounted for (R78, R79, R85), said of calls whose undelivered records are the only ones of
their points: each becomes WAITING with its retry time or HELD with its hold expiry, the Point Engine is told of each, and
CALL FAILED and EXHAUSTED are logged. Log records and work of the same step that follow are `logs` and `work`. -/
def State.failureCounted (n : LineNo) (c : Call) (why : FailReason) (logs : List LogRecord) (work : List Work)
    (s t : State) : Prop :=
  ∀ rs, s.part.queue.carries c rs → s.part.queue.alone rs → s.part.queue.sound →
    let held := rs.filter fun r => decide ((s.part.afterFailure r).state = .held)
    let named := match rs.find? (·.state = .sending) with
      | some r => [r]
      | none => rs.take 1
    t.part.queue = { s.part.queue with
      records := s.part.queue.records.map fun z => if z ∈ rs then s.part.afterFailure z else z } ∧
    t.part.points.work = s.part.points.work ++
      rs.map (fun r => .notice (if r ∈ held then .exhaustion else .returned) r.point) ++ work ∧
    s.part.logsMade (named.map (s.part.failLog n c why .callFailed) ++ held.map (s.part.failLog n c why .exhausted) ++ logs)
      t.part ∧
    (held ≠ [] → s.part.causeSet .exhausted t.part)

/-- The call on a line has ended with a failure, counted for its undelivered records, and the line is in its guard (R120,
R152). -/
def State.callFailed (n : LineNo) (c : Call) (why : FailReason) (s t : State) : Prop :=
  (t.part.line n).state = .release ∧ (t.part.line n).timer = some Config.guardMs ∧ (t.part.line n).call = none ∧
    s.part.keepsOtherLines n t.part ∧ t.part.arbiter.decisionPending = true ∧
    s.keepsBut [.bus, .notice, .points, .queue, .lines, .arbiter] t ∧ s.failureCounted n c why [] [] t

/-- A line goes on with the dial string of its call at a position, or awaits the answer (R99, R117). -/
def Line.dialsFrom (c : Call) (pos : Nat) (l : Line) : Prop :=
  l.call = some { c with dialPos := pos } ∧
    match c.dial[pos]? with
    | some (.digit _) | some .star | some .hash => l.state = .dialing ∧ l.timer = some 160
    | some .pause => l.state = .dialing ∧ l.timer = some 2000
    | some .wait => l.state = .dialing ∧ l.timer = some 5000
    | none => l.state = .ringback ∧ l.timer = some 45000

/-- The log record of a line condition, line n and point 258+n (R108, R109). -/
def Part.lineLog (p : Part) (n : LineNo) (kind : LogKind) (sense : BitVec 2) : LogRecord :=
  LogRecord.stamp p.now
    { kind, line := BitVec.ofNat 2 n.val, sense, point := BitVec.ofNat 9 (258 + n.val) }

/-- Every relay of every line is released. -/
def Part.relaysReleased (p : Part) : Prop := ∀ n, p.seize n = false ∧ p.hook n = false

/-! ### Decisions -/

/-- The eligible records, in service order (R62, R125, R128). -/
def Part.inService (p : Part) (rs : List Record) : Prop :=
  rs.Pairwise (fun a b => a.priority < b.priority ∨ (a.priority = b.priority ∧ a.id < b.id)) ∧
    ∀ r, r ∈ rs ↔ r ∈ p.queue.records ∧ p.eligible r = true

/-- No earlier-admitted record of its point is in the queue (R75). -/
def Queue.firstOfPoint (q : Queue) (r : Record) : Prop := ∀ e ∈ q.records, e.point = r.point → r.id ≤ e.id

/-- The call on line n is one that a record may join at the beginning of a decision (R129). -/
def Part.mayJoin (p : Part) (r : Record) (n : LineNo) (c : Call) : Prop :=
  (p.line n).call = some c ∧ c.dest = p.resolve r.route r.leg ∧ c.endMark = false ∧ c.reports.length < 4 ∧
    p.arbiter.offers[n] = none ∧
    ∀ e ∈ p.queue.records, e.point = r.point → e.id < r.id → ∃ place, e.call = some place ∧ place.line = n

/-- Line n is idle for a call to a destination (R131). -/
def Part.idleFor (p : Part) (d : DestNo) (n : LineNo) : Prop :=
  p.destAllows d n = true ∧ p.arbiter.offers[n] = none ∧ (p.line n).state = .idle

/-- Line n can be barged by a call of a priority (R132). -/
def Part.bargeFor (p : Part) (d : DestNo) (pr : Fin 8) (n : LineNo) : Prop :=
  p.destAllows d n = true ∧ p.arbiter.offers[n] = none ∧ (p.line n).state = .office ∧
    ∃ x, p.bargeThreshold n = some x ∧ pr.val ≤ x

/-- The call on line n can be preempted by a call of a priority (R133). -/
def Part.victimFor (p : Part) (d : DestNo) (pr : Fin 8) (n : LineNo) (c : Call) : Prop :=
  (p.line n).call = some c ∧ p.destAllows d n = true ∧ p.arbiter.offers[n] = none ∧
    (p.line n).state ∈ ([.breaking, .dialtone, .dialing, .ringback] : List LineState) ∧ pr < c.priority

/-- A line and the kind of offer a new call finds there: the lowest idle line, else the lowest it may barge, else the call of
greatest priority number and latest formation mark among those it may preempt (R131 to R133). -/
def Part.finds (p : Part) (d : DestNo) (pr : Fin 8) (n : LineNo) (kind : OfferKind) : Prop :=
  (kind = .idleGrant ∧ p.idleFor d n ∧ ∀ m < n, ¬ p.idleFor d m) ∨
  (kind = .bargeGrant ∧ (∀ m, ¬ p.idleFor d m) ∧ p.bargeFor d pr n ∧ ∀ m < n, ¬ p.bargeFor d pr m) ∨
  (kind = .preemption ∧ (∀ m, ¬ p.idleFor d m) ∧ (∀ m, ¬ p.bargeFor d pr m) ∧
    ∃ c, p.victimFor d pr n c ∧ ∀ m, m ≠ n → ∀ b, p.victimFor d pr m b →
      b.priority < c.priority ∨ (b.priority = c.priority ∧ b.mark < c.mark))

/-- A new call finds no line (R130). -/
def Part.findsNone (p : Part) (d : DestNo) (pr : Fin 8) : Prop :=
  ∀ m, ¬ p.idleFor d m ∧ ¬ p.bargeFor d pr m ∧ ∀ b, ¬ p.victimFor d pr m b

/-! ### The tone detector -/

/-- The detector after a run of ms, given the frequency of each, and the tokens it has recognised. -/
def Detector.after (fs : List Nat) (d : Detector) : Detector × List Token :=
  fs.foldl (fun e f => let x := e.1.tick f; (x.1, e.2 ++ x.2)) (d, [])

/-- How often a detector with no measurement in progress recognises a token in tones of given frequencies and lengths in ms. -/
def heard (t : Token) (tones : List (Nat × Nat)) : Nat :=
  (Detector.empty.after (tones.flatMap fun x => List.replicate x.2 x.1)).2.count t

/-! ### LOAD -/

/-- Delivered as LOAD takes it from the fields of memory (R35). -/
def Delivered.loaded (sense : BitVec 2) (fold : BitVec 4) (code : BitVec 10) : Delivered :=
  if sense = 3 ∨ 9 < fold.toNat ∨ 999 < code.toNat ∨ sense = 0 then { sense := 0, fold := 0, code := 0 }
  else { sense, fold, code }

/-! ### Invariants -/

/-- Memory keeps its canonical form within the address space, and so do the mirrors within the window; the staging buffer
is at one of the four words of a record. -/
abbrev State.memorySound (s : State) : Prop :=
  s.mem.wf = true ∧ (∀ c ∈ s.mem, c.1 < 131072) ∧ s.part.mirrors.words.wf = true ∧
    (∀ c ∈ s.part.mirrors.words, c.1 < 4096) ∧ s.part.bus.stagePos < 4

/-- The write-back queue holds at most 32 addresses, each at most once (R12). -/
abbrev State.writeBackBounded (s : State) : Prop :=
  s.part.bus.wbq.length ≤ Config.writeBackPlaces ∧ s.part.bus.wbq.Nodup

/-- The log staging buffer holds at most 8 records (R14). -/
abbrev State.stagingBounded (s : State) : Prop := s.part.bus.staging.length ≤ Config.stagingPlaces

/-- The capture FIFO holds at most 16 entries, and OVERRUN is in force only while it holds some (R44, R46). -/
abbrev State.fifoBounded (s : State) : Prop :=
  s.part.points.fifo.length ≤ Config.fifoPlaces ∧ (s.part.points.fifo = [] → s.part.points.overrun = false)

/-- Point 263 is not OWED (R53). -/
abbrev State.testNeverOwed (s : State) : Prop := (s.part.shadow 263).owed = false

/-- The Notice Unit holds the log heads in STOPPED and RUNNING (R168). -/
abbrev State.headsHeld (s : State) : Prop := s.part.mode.serving = true → s.part.notice.heads.isSome = true

/-- A LOAD of kind RELOAD runs in LOADING, and its RELOAD is in progress; outside STOPPED and RUNNING the Point Engine is in no
piece of work and no command waits for it (R42, R177). -/
abbrev State.reloadInProgress (s : State) : Prop :=
  (∀ k, s.part.mirrors.load = some { kind := .reload, next := k } →
    s.part.mode = .loading ∧ s.part.notice.inProgress.isSome = true) ∧
  (s.part.mode.serving = false → s.part.points.todo = [] ∧ .adopt ∉ s.part.points.work ∧ .clearTrouble ∉ s.part.points.work)

end Sys2Proof.Machine
end

