-- ==== Sys2Proof/Certificates/Slice0/Obligations.lean ====
section
/-! DEFINITION. The statements for the provers. -/

open Sys2Proof Sys2Proof.Machine

/-! ### Steps and invariants -/

/-- A step takes the command at the front of the queue and runs it on the rest (the host's form of a block). -/
def Obligations.StepRunsFrontCommand : Prop :=
  ∀ (c : Instr) (q : List Instr) (s : State), step { s with pending := c :: q } = exec c { s with pending := q }

/-- Every command answers a next state, and so does every step: the part stops nowhere. That a step with no command waiting,
a command without its occasion and a command without power answer a next state is the model's choice (logs 5, 6 and 20). -/
def Obligations.NothingStopsThePart : Prop :=
  (∀ (c : Instr) (s : State), ∃ t, exec c s = .next t) ∧ ∀ s : State, ∃ t, step s = .next t

/-- Every step keeps memory and the mirrors canonical and inside their address spaces. -/
def Obligations.MemoryStaysSound : Prop := ∀ s t : State, s.memorySound → step s = .next t → t.memorySound

/-- Every step keeps the bounds of the write-back queue, the staging buffer and the capture FIFO. -/
def Obligations.BoundedBuffersStayBounded : Prop :=
  ∀ s t : State, step s = .next t →
    (s.writeBackBounded → t.writeBackBounded) ∧ (s.stagingBounded → t.stagingBounded) ∧ (s.fifoBounded → t.fifoBounded)

/-- Every step keeps the Report Queue sound. -/
def Obligations.ReportQueueStaysSound : Prop :=
  ∀ s t : State, s.part.queue.sound → step s = .next t → t.part.queue.sound

/-- Every step leaves the trouble pattern current, the log heads held while serving, and point 263 not OWED; and a LOAD of
kind RELOAD runs in LOADING with its RELOAD in progress (R177), the Point Engine holding no command. -/
def Obligations.TroubleHeadsTestPointAndReloadKept : Prop :=
  ∀ s t : State, step s = .next t →
    (s.part.troubleCurrent → t.part.troubleCurrent) ∧ (s.headsHeld → t.headsHeld) ∧
      (s.testNeverOwed → t.testNeverOwed) ∧ (s.reloadInProgress → t.reloadInProgress)

/-- The invariants hold at reset. That reset is POWER_ON with the straps at their pull-downs is the model's choice (log 4). -/
def Obligations.ResetMeetsTheInvariants : Prop :=
  State.reset.memorySound ∧ State.reset.writeBackBounded ∧ State.reset.stagingBounded ∧ State.reset.fifoBounded ∧
    State.reset.part.queue.sound ∧ State.reset.part.troubleCurrent ∧ State.reset.headsHeld ∧ State.reset.testNeverOwed ∧
    State.reset.reloadInProgress ∧ State.reset.part.mode = .loading ∧ State.reset.pending = []

/-- With no command waiting a step makes the inserted cycles in the order of R11, and when nothing is left to do one ms
passes: timers count, and the step due at the stated length of each interval waits. That a step does this is the model's
choice (log 5). -/
def Obligations.IdleStepsKeepTheOrderAndTheTimes : Prop :=
  (∀ s : State, s.pending = [] → s.part.mode.live = true → s.part.bus.wbWait = [] → s.part.bus.logWait = [] →
    s.part.bus.hold = none → s.part.bus.drain = none → s.part.engineIdle → s.part.points.fifo = [] →
    (∀ n : LineNo, s.part.arbiter.offers[n] = none) → s.part.arbiter.decisionPending = false →
    (s.part.bus.staging ≠ [] → step s = .next { s with pending := [.logStagingWrite] }) ∧
    (s.part.bus.staging = [] → s.part.bus.wbq ≠ [] → step s = .next { s with pending := [.writeBack] }) ∧
    (s.part.bus.staging = [] → s.part.bus.wbq = [] →
      (s.part.mode = .loading → s.part.mirrors.load.isSome = true → step s = .next { s with pending := [.loadRead] }) ∧
      (∀ k, s.part.mode.serving = true → s.part.mirrors.reload = some { next := k, waiting := none } →
        step s = .next { s with pending := [.reloadRead] }) ∧
      (s.part.mode = .unconfigured → s.part.mirrors.timeReads.isSome = true →
        step s = .next { s with pending := [.setTimeRead] }))) ∧
  (∀ s : State, s.pending = [] → s.part.mode.live = true → s.nextOwn = none → ∃ t, step s = .next t ∧
    t.mem = s.mem ∧ t.upData = s.upData ∧ s.part.keepsBut [.time, .queue, .lines, .heartbeat, .notice] t.part ∧
    t.part.time = { s.part.time with
      elapsedMs := s.part.time.elapsedMs + 1, mainsTimer := s.part.time.mainsTimer.map (· + 1) } ∧
    (.clockSecond ∈ t.pending ↔ 1000 ≤ s.part.time.elapsedMs + 1) ∧
    (.mainsTimerExpiry ∈ t.pending ↔ ∃ k, s.part.time.mainsTimer = some k ∧ 60000 ≤ k + 1) ∧
    t.part.heartbeat = { s.part.heartbeat with timer := s.part.heartbeat.timer.map (· + 1) } ∧
    (.heartbeatExpiry ∈ t.pending ↔ s.part.mode.serving = true ∧
      ∃ k, s.part.heartbeat.timer = some k ∧ 1000 * s.part.heartbeatPeriod ≤ k + 1) ∧
    t.part.notice = { s.part.notice with
      pulseMs := if s.part.notice.trouble = .pulsed then s.part.notice.pulseMs + 1 else s.part.notice.pulseMs } ∧
    (.troublePulseToggle ∈ t.pending ↔ s.part.notice.trouble = .pulsed ∧ 1000 ≤ s.part.notice.pulseMs + 1) ∧
    t.part.queue = { s.part.queue with
      clock := if s.part.queue.clockMs + 1 < 1000 then s.part.queue.clock else s.part.queue.clock + 1
      clockMs := if s.part.queue.clockMs + 1 < 1000 then s.part.queue.clockMs + 1 else 0 } ∧
    (∀ k, .retryTimePassed k ∈ t.pending ↔ ∃ r ∈ s.part.queue.records, r.slot = k ∧ r.state = .waiting ∧
      ∃ x, r.retry = some x ∧ x ≤ t.part.queue.clock) ∧
    (∀ k, .holdExpiry k ∈ t.pending ↔ ∃ r ∈ s.part.queue.records, r.slot = k ∧ r.state = .held ∧
      ∃ x, r.holdUntil = some x ∧ x ≤ t.part.queue.clock) ∧
    ∀ n : LineNo,
      let l := s.part.line n
      t.part.line n = { l with
        farEnd := (t.part.line n).farEnd, detector := (t.part.line n).detector, timer := l.timer.map (· - 1)
        debounce := l.debounce.map (· + 1), loopLoss := l.loopLoss.map (· + 1)
        currentLoss := l.currentLoss.map (· + 1)
        presence := if l.loopSense then l.presence.map (· + 1) else l.presence } ∧
      (.officeUseBegins n ∈ t.pending ↔ l.state = .idle ∧ ∃ k, l.debounce = some k ∧ 200 ≤ k + 1) ∧
      (.officeUseEnds n ∈ t.pending ↔ l.state = .office ∧ ∃ k, l.debounce = some k ∧ 500 ≤ k + 1) ∧
      (.loopLossExpiry n ∈ t.pending ↔ s.part.hook n = false ∧ l.lossExpired = false ∧
        ∃ k, l.loopLoss = some k ∧ 10000 ≤ k + 1) ∧
      (.presenceTimerExpiry n ∈ t.pending ↔ l.loopSense = true ∧ ∃ k, l.presence = some k ∧ 10000 ≤ k + 1) ∧
      (.farClear n ∈ t.pending ↔ s.part.hook n = true ∧ ∃ k, l.currentLoss = some k ∧ 300 ≤ k + 1) ∧
      (.releaseGuardEnd n ∈ t.pending ↔ l.state = .release ∧ ∃ k, l.timer = some k ∧ k ≤ 1) ∧
      (.breakExpiry n ∈ t.pending ↔ l.state = .breaking ∧ ∃ k, l.timer = some k ∧ k ≤ 1) ∧
      (.dialToneWaitExpiry n ∈ t.pending ↔ l.state = .dialtone ∧ ∃ k, l.timer = some k ∧ k ≤ 1) ∧
      (.ringbackExpiry n ∈ t.pending ↔ l.state = .ringback ∧ ∃ k, l.timer = some k ∧ k ≤ 1) ∧
      let waits := ∃ c, l.call = some c ∧ c.dial[c.dialPos]? = some .wait
      let inPhase (ph : Phase) := l.state = .linked ∧ (∃ c, l.call = some c ∧ c.phase = ph) ∧ ∃ k, l.timer = some k ∧ k ≤ 1
      (.dialSymbolEnd n ∈ t.pending ↔ l.state = .dialing ∧ ¬ waits ∧ ∃ k, l.timer = some k ∧ k ≤ 1) ∧
      (.waitSymbolExpiry n ∈ t.pending ↔ l.state = .dialing ∧ waits ∧ ∃ k, l.timer = some k ∧ k ≤ 1) ∧
      (.handshakeExpiry n ∈ t.pending ↔ inPhase .handshake) ∧
      (.turnaroundEnd n ∈ t.pending ↔ inPhase .turnaround) ∧
      (.burstSendingEnd n ∈ t.pending ↔ inPhase .sending) ∧
      (.windowExpiry n ∈ t.pending ↔ inPhase .window ∧ (t.part.line n).detector.burst.measuring = false) ∧
      (.endSymbolEnd n ∈ t.pending ↔ inPhase .ending) ∧
      (.readyToneStopped n ∈ t.pending ↔
        (∃ c, l.call = some c ∧ c.phase = .handshake) ∧ 50 ≤ (t.part.line n).detector.readySilence)) ∧
  (∀ s : State, s.pending = [] → s.part.mode = .xrst ∨ s.part.mode = .bypass → ∃ t, step s = .next t ∧
    t = { s with
      pending := t.pending
      part := { s.part with time := { s.part.time with
        elapsedMs := s.part.time.elapsedMs + 1, mainsTimer := s.part.time.mainsTimer.map (· + 1) } } } ∧
    ∀ c ∈ t.pending, c = .clockSecond ∨ c = .mainsTimerExpiry) ∧
  ∀ s : State, s.pending = [] → s.part.mode = .off → step s = .next s

/-- The tokens of R111 by the frequency and the lengths of what the far end sends, and when the detector listens. That it
samples the far end once a ms, what it counts as silence, and a burst shorter than 40 ms at the end of the 300 ms are the
model's choices (log 25). -/
def Obligations.TonesAreRecognisedByTheirLengths : Prop :=
  (∀ f n, 300 ≤ f → f ≤ 500 → heard .dialTone [(f, n)] = if 700 ≤ n then 1 else 0) ∧
  (∀ f a x b y c, 300 ≤ f → f ≤ 500 → 1 ≤ a → 1 ≤ x → 1 ≤ b → 1 ≤ y → 1 ≤ c →
    let within (n : Nat) : Prop := 150 ≤ n ∧ n ≤ 650
    heard .busy [(f, a), (0, x), (f, b), (0, y), (f, c)] = 0 ∧
    (within a → within x → within b → within y → within c →
      heard .busy [(f, a), (0, x), (f, b), (0, y), (f, c), (0, 1)] = 1) ∧
    (¬ (within a ∧ within x ∧ within b ∧ within y ∧ within c) →
      heard .busy [(f, a), (0, x), (f, b), (0, y), (f, c), (0, 1)] = 0)) ∧
  (∀ f n, 1365 ≤ f → f ≤ 1435 → heard .ready [(f, n)] = if 400 ≤ n then 1 else 0) ∧
  (∀ f n m, 2240 ≤ f → f ≤ 2360 → heard .ack [(f, n), (0, m)] = if 400 ≤ n ∧ n ≤ 900 ∧ 300 ≤ m then 1 else 0) ∧
  (∀ f n x k y, 2240 ≤ f → f ≤ 2360 → 400 ≤ n → n ≤ 900 → 1 ≤ x → 1 ≤ k → k < 40 → 1 ≤ y → 300 ≤ x + k + y →
    heard .ack [(f, n), (0, x), (f, k), (0, y)] = 1) ∧
  (∀ f a m b, 2240 ≤ f → f ≤ 2360 → 1 ≤ a → 1 ≤ m → 1 ≤ b →
    heard .repeatToken [(f, a), (0, m), (f, b), (0, 1)] =
      (if 40 ≤ a ∧ a ≤ 299 ∧ m < 300 ∧ 40 ≤ b ∧ b ≤ 299 then 1 else 0) ∧
    (m < 300 → 40 ≤ b → ∀ z, heard .ack [(f, a), (0, m), (f, b)] = 0 ∧
      (b < 400 → heard .ack [(f, a), (0, m), (f, b), (0, z)] = 0))) ∧
  (∀ f n t, t ≠ .readyStopped → inLowBand f = false → inReadyBand f = false → inBurstBand f = false →
    heard t [(f, n)] = 0) ∧
  ∀ l : Line,
    (l.listens = true ↔ l.state = .dialtone ∨ l.state = .ringback ∨
      (l.state = .dialing ∧ ∃ c, l.call = some c ∧ c.dial[c.dialPos]? = some .wait) ∨
      (l.state = .linked ∧ ∃ c, l.call = some c ∧ c.phase ≠ .sending ∧ c.phase ≠ .ending)) ∧
    (l.listens = false → l.tick.1.detector = Detector.empty ∧ l.tick.2 = [])

/-! ### Resets -/

/-- POWER_ON and POWER_LOSS. The order of the addresses entered, the absence of upstream data and the state without power are
the model's choices (logs 15, 20 and 28); what is discarded is held empty (log 27). -/
def Obligations.PowerOnLoadsAndPowerLossReleasesLines : Prop :=
  (∀ (straps : Straps) (s : State), Answers (.powerOn straps) s fun t =>
    t.mem = s.mem ∧ t.pending = s.pending ∧ t.upData = none ∧ t.part.discarded ∧ t.part.straps = straps ∧
    t.part.time.day = 0 ∧ t.part.time.minute = 0 ∧ t.part.time.second = 0 ∧ t.part.time.elapsedMs = 0 ∧
    t.part.time.mainsActive = false ∧ t.part.time.mainsLost = s.part.time.mainsLost ∧
    t.part.time.mainsTimer = (if s.part.time.mainsLost then some 0 else none) ∧
    (∀ n, (t.part.line n).takenEnable = true ∧ (t.part.line n).officeSense = (s.part.line n).officeSense ∧
      (t.part.line n).loopSense = (s.part.line n).loopSense) ∧ t.part.relaysReleased ∧
    if straps.bypass = true then t.part.mode = .bypass ∧ t.part.mirrors.load = none ∧ t.part.bus.wbq = []
    else t.part.mode = .loading ∧ t.part.mirrors.load = some { kind := .powerOn, next := 0 } ∧
      t.part.shows 0 .inProgress ∧ t.part.notice.inProgress = none ∧ t.part.bus.wbq = [0x017, 0x018, 0x012] ∧
      ∀ n, (t.part.line n).state = .idle) ∧
  ∀ s : State, Answers .powerLoss s fun t =>
    t.mem = s.mem ∧ t.pending = s.pending ∧ t.part.mode = .off ∧ t.part.relaysReleased ∧ t.part.discarded ∧
    t.part.bus.wbq = []

/-- XRST_ASSERT and XRST_RELEASE. What is discarded is held empty (log 27); the order of the addresses entered is the model's
choice (log 15). -/
def Obligations.XrstDropsAllWorkAndItsReleaseLoads : Prop :=
  (∀ s : State, s.part.mode ≠ .off → s.part.mode ≠ .xrst → Answers .xrstAssert s fun t =>
    t.pending = s.pending ∧ t.part.mode = .xrst ∧ t.part.straps = s.part.straps ∧ t.part.discarded ∧
    t.part.bus.wbq = [] ∧ t.part.relaysReleased ∧ t.part.irq = false ∧ t.part.troubleOut = true ∧
    t.part.waitOut = false ∧ s.part.time.kept t.part.time ∧
    (∀ n, (t.part.line n).takenEnable = (s.part.line n).takenEnable) ∧ s.heldPassed t) ∧
  ∀ (straps : Straps) (s : State), s.part.mode = .xrst → Answers (.xrstRelease straps) s fun t =>
    t.mem = s.mem ∧ t.upData = s.upData ∧ t.pending = s.pending ∧ t.part.straps = straps ∧ t.part.discarded ∧
    s.part.time.kept t.part.time ∧ t.part.relaysReleased ∧
    if straps.bypass = true then
      t.part.mode = .bypass ∧ t.part.mirrors.load = none ∧ t.part.bus.wbq = [] ∧ t.part.irq = false ∧
        t.part.troubleOut = true ∧ ∀ n, (t.part.line n).takenEnable = (s.part.line n).takenEnable
    else t.part.mode = .loading ∧ t.part.mirrors.load = some { kind := .xrst, next := 0 } ∧
      t.part.shows 0 .inProgress ∧ t.part.notice.inProgress = none ∧ t.part.bus.wbq = [0x017, 0x018, 0x012] ∧
      ∀ n, (t.part.line n).takenEnable = ((s.part.line n).takenEnable || s.part.straps.bypass) ∧
        (t.part.line n).state = if (t.part.line n).takenEnable then .idle else .disabled

/-- RESTART_DRAIN_DONE. The order of the addresses entered (log 15), what is discarded being held empty (log 27), a held cycle
passed unchanged (log 30) and RESTART staying the command in progress after the reset (log 38) are the model's choices. -/
def Obligations.RestartResetKeepsStrapsClockAndResult : Prop :=
  (∀ (raised : Bool) (s : State), s.part.bus.drain = some (.draining 0 [] raised) →
    Answers .restartDrainDone s fun t =>
      s.heldPassed t ∧ t.pending = s.pending ∧ t.part.straps = s.part.straps ∧
      s.part.time.kept t.part.time ∧ t.part.discarded ∧ t.part.relaysReleased ∧ t.part.mode = .loading ∧
      t.part.mirrors.load = some { kind := .restart, next := 0 } ∧ t.part.bus.wbq = [0x017, 0x018] ∧
      t.part.notice.inProgress = s.part.notice.inProgress ∧
      (∀ c, s.part.notice.inProgress = some c → t.part.shows c.tag .done) ∧
      ∀ n, (t.part.line n).takenEnable = (s.part.line n).takenEnable ∧
        (t.part.line n).state = if (s.part.line n).takenEnable then .idle else .disabled) ∧
  ∀ s : State, (∀ raised, s.part.bus.drain ≠ some (.draining 0 [] raised)) →
    Answers .restartDrainDone s fun t => t = s

/-! ### Panel cycles -/

/-- PANEL_WRITE and PANEL_READ pass unchanged under XRST, in BYPASS and outside the window; what is no cycle touches
nothing. That no data is driven by a read that is no cycle is the model's choice (log 28). -/
def Obligations.PanelCyclesPassThrough : Prop :=
  (∀ (a : Addr) (w : Word) (s : State), s.mem.wf = true →
    (s.part.mode = .xrst ∨ s.part.mode = .bypass ∨
      (s.part.mode.live = true ∧ s.busFree ∧ windowOffset s.part.straps a.toNat = none)) →
    (Answers (.panelWrite .cycle a w) s fun t =>
      t.mem.read a.toNat = w ∧ s.writesOnly a.toNat t ∧ t.upData = s.upData ∧ t.pending = s.pending ∧ t.part = s.part) ∧
    Answers (.panelRead .cycle a) s fun t =>
      t = { s with upData := some (s.mem.read a.toNat) }) ∧
  ∀ (a : Addr) (w : Word) (s : State), s.part.bus.hold = none →
    (Answers (.panelWrite .both a w) s fun t => t = s) ∧ (Answers (.panelWrite .deselected a w) s fun t => t = s) ∧
    (Answers (.panelRead .both a) s fun t => t = { s with upData := none }) ∧
    Answers (.panelRead .deselected a) s fun t => t = { s with upData := none }

/-- PANEL_READ in the window shows the owner's value of a part-owned word the part acts on, and memory's word otherwise. -/
def Obligations.PanelReadShowsOwnersValue : Prop :=
  ∀ (off : Nat) (s : State), off < 4096 → s.part.mode.live = true → s.busFree →
    Answers (.panelRead .cycle (s.address off)) s fun t =>
      t.mem = s.mem ∧ t.part = s.part ∧ t.pending = s.pending ∧
      (s.part.actsOn off = false → t.upData = some (s.mem.read (s.wordAddress off))) ∧
      (partOwned off = false → t.upData = some (s.mem.read (s.wordAddress off))) ∧
      (0x200 ≤ off → off < 0x280 → t.upData = some (s.mem.read (s.wordAddress off))) ∧
      (off = 0x012 → t.upData = some s.part.notice.resultWord) ∧
      (off = 0x013 → t.upData = some (s.part.notice.causes.setWidth 16)) ∧
      (off = 0x017 → t.upData = some s.part.statusWord) ∧ (off = 0x018 → t.upData = some s.part.lineWord) ∧
      (off = 0x019 → t.upData = some s.part.queue.occupancy) ∧ (off = 0x01A → t.upData = some s.part.time.day) ∧
      (off = 0x01B → t.upData = some (BitVec.ofNat 16 s.part.time.minute)) ∧
      (off = 0x01C → t.upData = some (BitVec.ofNat 16 s.part.time.second)) ∧
      (∀ h, s.part.notice.heads = some h → off = 0x015 → t.upData = some (BitVec.ofNat 16 h.shown.val)) ∧
      (s.part.mode.serving = true ∨ (s.part.mode = .loading ∧ s.part.loadHasRead off = true) →
        (∀ i : PointNo, i.val < 256 →
          (off = pointOffset i.val 1 → t.upData = some (s.part.shadow i).entryW1) ∧
          (off = pointOffset i.val 2 → t.upData = some (s.part.shadow i).entryW2)) ∧
        (∀ i : PointNo, 256 ≤ i.val →
          (off = virtualOffset (i.val - 256) 2 → t.upData = some (s.part.shadow i).virtualW2) ∧
          (off = virtualOffset (i.val - 256) 3 → t.upData = some (s.part.shadow i).virtualW3)) ∧
        ∀ r : RouteNo,
          (off = routeOffset r.val 2 → t.upData = some
            ((s.mem.read (s.wordAddress off) &&& 0xFC00) ||| BitVec.ofNat 16 (s.part.route r).budget)) ∧
          (off = routeOffset r.val 3 → t.upData = some (s.part.route r).w3))

/-- A PANEL_WRITE to a word of class PART leaves the part's value in memory and discards the panel's bits. -/
def Obligations.PanelWriteToPartWordIsMasked : Prop :=
  ∀ (off : Nat) (w : Word) (s : State), s.part.mode.live = true → s.writable → s.part.troubleCurrent →
    (off ∈ [0x012, 0x017, 0x018, 0x019, 0x01A, 0x01B, 0x01C] ∨
      (off = 0x015 ∧ s.part.notice.heads.isSome = true) ∨
      (s.part.mode.serving = true ∧ ((∃ i : Fin 256, off = pointOffset i.val 1 ∨ off = pointOffset i.val 2) ∨
        ∃ v : Fin 8, off = virtualOffset v.val 2 ∨ off = virtualOffset v.val 3))) →
    Answers (.panelWrite .cycle (s.address off) w) s fun t =>
      s.stores off (s.part.ownedWord off) t ∧ s.part.keepsBut [.mirrors] t.part ∧ s.part.keepsMirrorsBut [off] t.part ∧
      (off ≠ 0x015 → t.part.mirror off = if s.part.mode.serving = true then 0 else s.part.mirror off)

/-- PANEL_WRITE in STOPPED and RUNNING to the words that have no row of their own: ordinary words and the log pass to memory;
translation words, w1 of a virtual record and the settings only read by others take their mirror; a group alias write hands
the Point Engine the points it selects; w0 of a virtual record enables or disables its point. -/
def Obligations.PanelWritesReachTheirOwners : Prop :=
  ∀ (off : Nat) (w : Word) (s : State), off < 4096 → s.part.mode.serving = true → s.writable → s.part.troubleCurrent →
    Answers (.panelWrite .cycle (s.address off) w) s fun t =>
      ((0x020 ≤ off ∧ off < 0x040) ∨ (0x130 ≤ off ∧ off < 0x400) ∨ (0x600 ≤ off ∧ off < 0x800) ∨ 0xC00 ≤ off ∨
          (0x0B0 ≤ off ∧ off < 0x130 ∧ 9 ≤ off % 16) ∨ (0x800 ≤ off ∧ off < 0xC00 ∧ off % 4 = 3) →
        s.stores off w t ∧ s.part.keepsBut [.mirrors] t.part ∧ s.part.keepsMirrorsBut [off] t.part) ∧
      ((0x400 ≤ off ∧ off < 0x600) ∨ (∃ v : Fin 8, off = virtualOffset v.val 1) ∨
          off ∈ [0x000, 0x001, 0x002, 0x00C, 0x00D, 0x00E, 0x00F, 0x011, 0x01D, 0x01E, 0x01F] →
        s.stores off w t ∧ s.part.keepsBut [.mirrors] t.part ∧ s.part.keepsMirrorsBut [off] t.part ∧
        t.part.mirror off = w) ∧
      (∀ g : Fin 16, off = 0x040 + g.val →
        s.stores off w t ∧ s.part.keepsBut [.mirrors, .points] t.part ∧ s.part.keepsMirrorsBut [off] t.part ∧
        t.part.points = { s.part.points with work := t.part.points.work } ∧
        t.part.points.work = s.part.points.work ++
          let chosen := (List.finRange 264).filter fun i => decide (i.val / 16 = g.val) && w.getLsbD (i.val % 16)
          if chosen = [] then [] else match field (s.part.mirror 0x002) 1 2 with
            | 0 => [.group .isolate chosen]
            | 1 => [.group .deisolate chosen]
            | 2 => [.group .rescan chosen]
            | _ => []) ∧
      ∀ i : PointNo, 256 ≤ i.val → off = virtualOffset (i.val - 256) 0 →
        s.stores off w t ∧ s.part.keepsBut [.mirrors, .points] t.part ∧ s.part.keepsMirrorsBut [off] t.part ∧
        t.part.mirror off = w ∧
        t.part.points = { s.part.points with work := t.part.points.work } ∧
        t.part.points.work = s.part.points.work ++
          if bit (s.part.mirror off) 0 = bit w 0 then [] else if bit w 0 = true then [.enable i] else [.disable i]

/-- PANEL_WRITE in LOADING changes mirrors of words already read and nothing else but what R30 and R96 list; in UNCONFIGURED
the mirrors of 011H and 014H alone. That a 0 clears the accessed flag once LOAD has read w3 is the model's choice (log 37),
and so is the judging of a directory entry at each such write (log 13). -/
def Obligations.LoadingAndUnconfiguredWritesChangeMirrorsOnly : Prop :=
  ∀ (off : Nat) (w : Word) (s : State), off < 4096 → s.writable → s.part.troubleCurrent →
    (s.part.mode = .loading →
      (s.part.loadHasRead off = false → s.part.actsOn off = false → off ≠ 0x010 → off ≠ 0x014 →
        Answers (.panelWrite .cycle (s.address off) w) s fun t => s.stores off w t ∧ t.part = s.part) ∧
      (off = 0x014 → Answers (.panelWrite .cycle (s.address off) w) s fun t =>
        s.stores off w t ∧ s.part.keepsBut [.mirrors] t.part ∧ s.part.keepsMirrorsBut [off] t.part ∧
        t.part.mirror off = w ∧ (t.part.irq = true ↔ s.part.notice.causes &&& w.extractLsb' 0 10 ≠ 0)) ∧
      (s.part.loadHasRead off = true →
        (partOwned off = false → off ≠ 0x010 → Answers (.panelWrite .cycle (s.address off) w) s fun t =>
          s.stores off w t ∧ s.part.keepsBut [.mirrors] t.part ∧ t.part.mirror off = w ∧
          (∀ a, a ≠ off → t.part.mirror a = s.part.mirror a) ∧ t.part.mirrors.load = s.part.mirrors.load ∧
          ∀ d : DestNo, t.part.mirrors.valid[d] =
            if 0x0B0 + 16 * d.val ≤ off ∧ off < 0x0B9 + 16 * d.val then t.part.entryValid d
            else s.part.mirrors.valid[d]) ∧
        (∀ r : RouteNo, off = routeOffset r.val 2 → Answers (.panelWrite .cycle (s.address off) w) s fun t =>
          s.stores off w t ∧ s.part.keepsBut [.mirrors, .routes] t.part ∧ s.part.keepsMirrorsBut [off] t.part ∧
          t.part.mirror off = w &&& 0xC000 ∧ (∀ k, k ≠ r → t.part.route k = s.part.route k) ∧
          t.part.route r =
            let v := s.part.route r
            if budgetField w = v.budget then v
            else if s.part.loadHasRead (routeOffset r.val 3) = true then
              { v with budget := budgetField w, spent := false, w3AtEnd := v.w3AtEnd || v.spent }
            else { v with budget := budgetField w, clearKept := true, w3AtEnd := true }) ∧
        ∀ r : RouteNo, off = routeOffset r.val 3 → Answers (.panelWrite .cycle (s.address off) w) s fun t =>
          s.stores off (t.part.route r).w3 t ∧ s.part.keepsBut [.mirrors, .routes] t.part ∧
          s.part.keepsMirrorsBut [off] t.part ∧ (∀ k, k ≠ r → t.part.route k = s.part.route k) ∧
          t.part.route r = { s.part.route r with accessed := (s.part.route r).accessed && bit w 0 })) ∧
    (s.part.mode = .unconfigured →
      (off = 0x011 ∨ off = 0x014 → Answers (.panelWrite .cycle (s.address off) w) s fun t =>
        s.stores off w t ∧ s.part.keepsBut [.mirrors] t.part ∧ s.part.keepsMirrorsBut [off] t.part ∧
        t.part.mirror off = w) ∧
      (off ≠ 0x010 → off ≠ 0x011 → off ≠ 0x014 → s.part.actsOn off = false →
        Answers (.panelWrite .cycle (s.address off) w) s fun t => s.stores off w t ∧ t.part = s.part))

/-- A panel cycle that begins while a queue is full and an owner waits, or that would capture into a full FIFO with STALL
strapped, is held and not made. That a held read drives no data yet (log 28), that a new cycle takes the place of one still
held (log 12), and the count by which waits are ordered (log 19) are the model's choices. -/
def Obligations.FullQueuesHoldThePanel : Prop :=
  (∀ (a : Addr) (w : Word) (s : State), s.part.mode.live = true → s.part.bus.full = true →
    (Answers (.panelWrite .cycle a w) s fun t =>
      t.part.waitOut = true ∧ t.mem = s.mem ∧ t.upData = s.upData ∧ t.pending = s.pending ∧
      t.part.bus = { s.part.bus with
        hold := some { cycle := .write a w, before := s.part.bus.tickets, stalled := none } } ∧
      s.part.keepsBut [.bus] t.part) ∧
    Answers (.panelRead .cycle a) s fun t =>
      t.part.waitOut = true ∧ t.mem = s.mem ∧ t.upData = none ∧ t.pending = s.pending ∧ s.part.keepsBut [.bus] t.part ∧
      t.part.bus = { s.part.bus with hold := some { cycle := .read a, before := s.part.bus.tickets, stalled := none } }) ∧
  ∀ (i : Fin 256) (w : Word) (s : State), s.part.mode.serving = true → s.busFree → s.part.straps.stall = true →
    enabledField (s.part.mirror (pointOffset i.val 0)) = true → enabledField w = true →
    stateCodeField (s.part.mirror (pointOffset i.val 0)) ≠ stateCodeField w → s.part.points.overrun = false →
    Config.fifoPlaces ≤ s.part.points.fifo.length →
    Answers (.pointEntryWrite i w) s fun t =>
      t.part.waitOut = true ∧ t.mem = s.mem ∧ t.upData = s.upData ∧ t.pending = s.pending ∧ s.part.keepsBut [.bus] t.part

/-- WAIT_HOLD_END makes the held cycle once everything it waited for has come, and not before; HELD_CYCLE_ABANDONED drops
it. -/
def Obligations.HeldCycleIsMadeOrAbandoned : Prop :=
  (∀ (h : Hold) (s : State), s.part.mode.live = true → s.part.bus.hold = some h → h.stalled = none →
    s.mem.wf = true →
    (s.part.bus.entered h.before = false → Answers .waitHoldEnd s fun t => t = s) ∧
    (s.part.bus.entered h.before = true → ∀ a, h.cycle = .read a →
      Answers .waitHoldEnd s fun t =>
        t.part.waitOut = false ∧ t.mem = s.mem ∧ t.pending = s.pending ∧ s.part.keepsBut [.bus] t.part ∧
        t.part.bus = { s.part.bus with hold := none } ∧ t.upData = some (s.shown a)) ∧
    (s.part.bus.entered h.before = true → ∀ a w, h.cycle = .write a w →
      windowOffset s.part.straps a.toNat = none →
      Answers .waitHoldEnd s fun t =>
        t.part.waitOut = false ∧ t.mem.read a.toNat = w ∧ s.writesOnly a.toNat t ∧ t.upData = s.upData ∧
        t.pending = s.pending ∧ s.part.keepsBut [.bus] t.part ∧ t.part.bus = { s.part.bus with hold := none })) ∧
  (∀ (h : Hold) (k : Nat) (i : Fin 256) (w : Word) (s : State), s.part.mode.serving = true →
    s.part.bus.hold = some h → h.stalled = some k → h.cycle = .write (s.address (pointOffset i.val 0)) w →
    (Config.fifoPlaces ≤ s.part.points.fifo.length → Answers .waitHoldEnd s fun t => t = s) ∧
    (s.part.points.fifo.length < Config.fifoPlaces → s.part.mirrors.waitsSince = none → s.mem.wf = true →
      s.part.mirrors.words.wf = true → s.part.troubleCurrent → s.part.points.overrun = false →
      enabledField (s.part.mirror (pointOffset i.val 0)) = true → enabledField w = true →
      stateCodeField (s.part.mirror (pointOffset i.val 0)) ≠ stateCodeField w →
      Answers .waitHoldEnd s fun t =>
        t.part.waitOut = false ∧ s.stores (pointOffset i.val 0) w t ∧ t.part.mirror (pointOffset i.val 0) = w ∧
        s.part.keepsBut [.bus, .mirrors, .points] t.part ∧ t.part.bus = { s.part.bus with hold := none } ∧
        t.part.points = { s.part.points with fifo := s.part.points.fifo ++
          [{ point := i.castLE (by omega), code := stateCodeField w }] })) ∧
  ∀ s : State, Answers .heldCycleAbandoned s fun t =>
    t = { s with part := { s.part with bus := { s.part.bus with hold := none } } } ∧ t.part.waitOut = false

/-! ### Inserted cycles -/

/-- WRITE_BACK takes the oldest address and writes its word as it stands, once no staged record waits; in the drain of a
RESTART the oldest of the addresses it has to write, 012H as its DONE and 013H without the COMMAND of a command refused since
(R178). WRITE_BACK_ENTRY_ADMITTED and LOG_RECORD_ADMITTED let the one that waited longest in when there is a place. That a
word the part does not act on is left as it is is the model's choice (log 16). -/
def Obligations.WriteBackServesTheQueueInOrder : Prop :=
  (∀ (off : Nat) (rest : List Nat) (s : State), s.mem.wf = true → s.part.mode.live = true →
    s.part.bus.drain = none → s.part.bus.wbq = off :: rest → s.writeBackBounded →
    (s.part.bus.staging = [] → s.part.actsOn off = true → Answers .writeBack s fun t =>
      s.stores off (s.part.ownedWord off) t ∧ t.part.bus = { s.part.bus with wbq := rest } ∧
      s.part.keepsBut [.bus] t.part) ∧
    (s.part.bus.staging = [] → s.part.actsOn off = false → Answers .writeBack s fun t =>
      s.keepsBut [.bus] t ∧ t.part.bus = { s.part.bus with wbq := rest }) ∧
    (s.part.bus.staging ≠ [] → Answers .writeBack s fun t => t = s)) ∧
  (∀ (k : Nat) (offs : List Nat) (raised : Bool) (c : Command) (s : State), s.mem.wf = true →
    s.part.mode.live = true → s.part.bus.drain = some (.draining k offs raised) →
    s.part.notice.inProgress = some c → s.writeBackBounded →
    ((∀ a ∈ s.part.bus.wbq, a ∉ offs) → Answers .writeBack s fun t => t = s) ∧
    (∀ pre off rest, s.part.bus.wbq = pre ++ off :: rest → (∀ a ∈ pre, a ∉ offs) → off ∈ offs →
      (s.part.bus.staging = [] ∨ k = 0) → s.part.actsOn off = true → Answers .writeBack s fun t =>
        s.stores off
          (if off = 0x012 then pack [(0, c.tag.toNat), (8, ResultStatus.done.code)]
          else if off = 0x013 ∧ raised = true then (s.part.notice.causes &&& ~~~ Cause.command.bits).setWidth 16
          else s.part.ownedWord off) t ∧
        t.part.bus = { s.part.bus with
          wbq := pre ++ rest, drain := some (.draining k (offs.filter (· ≠ off)) raised) } ∧
        s.part.keepsBut [.bus] t.part)) ∧
  (∀ (w : Waiter) (ws : List Waiter) (s : State), s.part.mode.live = true → s.part.bus.wbWait = w :: ws →
    w.first ∉ s.part.bus.wbq → s.part.bus.wbq.length < Config.writeBackPlaces → s.part.bus.drain = none →
    s.part.points.todo = [] → s.part.points.work = [] → s.part.troubleCurrent →
    Answers .writeBackEntryAdmitted s fun t =>
      s.part.bus.wbq ++ [w.first] <+: t.part.bus.wbq ∧ t.mem = s.mem ∧ t.upData = s.upData ∧ t.pending = s.pending ∧
      s.part.keepsBut [.bus] t.part ∧
      (w.later = [] → t.part.bus = { s.part.bus with wbq := s.part.bus.wbq ++ [w.first], wbWait := ws })) ∧
  ∀ (k : Nat) (r : Staged) (rest : List (Nat × Staged)) (s : State), s.part.mode.live = true →
    s.part.bus.logWait = (k, r) :: rest → s.part.bus.staging.length < Config.stagingPlaces →
    s.part.bus.drain = none → s.part.troubleCurrent →
    Answers .logRecordAdmitted s fun t =>
      s.keepsBut [.bus] t ∧
      t.part.bus = { s.part.bus with staging := s.part.bus.staging ++ [r], logWait := rest }

/-- LOG_STAGING_WRITE writes the next word of the oldest record; after the last word the record leaves and the shown head
passes its slot. -/
def Obligations.StagingWritesRecordsInOrder : Prop :=
  ∀ (r : Staged) (rest : List Staged) (h : Heads) (s : State), s.mem.wf = true → s.part.mode.serving = true →
    s.part.bus.drain = none → s.part.bus.staging = r :: rest → s.part.notice.heads = some h → s.part.troubleCurrent →
    s.part.bus.stagePos < 4 →
    Answers .logStagingWrite s fun t =>
      s.stores (logOffset r.slot.val s.part.bus.stagePos) (r.record.word s.part.bus.stagePos) t ∧
      s.part.keepsBut [.bus, .notice] t.part ∧
      (s.part.bus.stagePos < 3 → t.part.notice = s.part.notice ∧
        t.part.bus = { s.part.bus with stagePos := s.part.bus.stagePos + 1 }) ∧
      (s.part.bus.stagePos = 3 → t.part.bus.staging = rest ∧ t.part.bus.stagePos = 0 ∧
        t.part.notice.heads = some { h with shown := r.slot + 1 } ∧
        t.part.notice.causes =
          (if (r.slot + 1).val = s.part.logTail ∧ s.part.causeEnable.getLsbD Cause.logwrap.index = true then
            s.part.notice.causes ||| Cause.logwrap.bits else s.part.notice.causes))

/-! ### LOAD, RELOAD, SET TIME -/

/-- LOAD_READ takes the next word of the order of LOAD, with the corrections of R35; the last read of step 1 goes on when the
configuration check passes. -/
def Obligations.LoadReadTakesTheNextWord : Prop :=
  ∀ (l : Load) (s : State), s.part.mode = .loading → s.part.bus.staging = [] → s.part.bus.wbq = [] →
    s.part.mirrors.load = some l → s.part.mirrors.words.wf = true → s.part.troubleCurrent →
    l.next + 1 < Config.loadReads → (l.next + 1 = Config.checkReads → s.part.configOk = true) →
    Answers .loadRead s fun t =>
      let off := loadOffset l.next
      let w := s.windowMem off
      s.keepsBut [.mirrors, .points, .routes] t ∧ t.part.mirrors.load = some { l with next := l.next + 1 } ∧
      (∀ a, a ≠ off → t.part.mirror a = s.part.mirror a) ∧
      (partOwned off = false → t.part.mirror off = w ∧ t.part.points = s.part.points ∧ t.part.routes = s.part.routes) ∧
      (∀ d : DestNo, t.part.mirrors.valid[d] =
        if off = directoryOffset d.val 8 then t.part.entryValid d else s.part.mirrors.valid[d]) ∧
      (∀ r : RouteNo, off = routeOffset r.val 2 →
        t.part.mirror off = w &&& 0xC000 ∧ t.part.points = s.part.points ∧
        (∀ k, k ≠ r → t.part.route k = s.part.route k) ∧
        t.part.route r = { s.part.route r with budget := budgetField w }) ∧
      (∀ r : RouteNo, off = routeOffset r.val 3 →
        t.part.points = s.part.points ∧ (∀ k, k ≠ r → t.part.route k = s.part.route k) ∧
        t.part.route r = { s.part.route r with
          accessed := bit w 0, lastLeg := if bit w 1 then .backup else .primary
          spent := bit w 2 && !(s.part.route r).clearKept, clearKept := false }) ∧
      ∀ i : PointNo,
        (i.val < 256 ∧ off = pointOffset i.val 1 →
          t.part.routes = s.part.routes ∧ s.part.keepsOtherShadows i t.part ∧
          t.part.shadow i = { s.part.shadow i with
            isolated := bit w 0, status := w.extractLsb' 1 3
            delivered := { sense := w.extractLsb' 4 2, fold := w.extractLsb' 6 4, code := 0 } }) ∧
        (256 ≤ i.val ∧ off = virtualOffset (i.val - 256) 2 →
          t.part.routes = s.part.routes ∧ s.part.keepsOtherShadows i t.part ∧
          t.part.shadow i = { s.part.shadow i with
            status := w.extractLsb' 0 3
            delivered := { sense := w.extractLsb' 3 2, fold := w.extractLsb' 5 4, code := 0 } }) ∧
        ((i.val < 256 ∧ off = pointOffset i.val 2) ∨ (256 ≤ i.val ∧ off = virtualOffset (i.val - 256) 3) →
          t.part.routes = s.part.routes ∧ s.part.keepsOtherShadows i t.part ∧
          t.part.shadow i = { s.part.shadow i with
            delivered := Delivered.loaded (s.part.shadow i).delivered.sense (s.part.shadow i).delivered.fold
              (w.extractLsb' 0 10) })

/-- A LOAD whose configuration check fails ends in UNCONFIGURED; what is discarded is held empty (log 27). -/
def Obligations.LoadCheckFailureUnconfigures : Prop :=
  ∀ (k : LoadKind) (s : State), s.part.mode = .loading → s.part.bus.staging = [] → s.part.bus.wbq = [] →
    s.part.mirrors.load = some { kind := k, next := 22 } → s.part.mirrors.words.wf = true → s.part.configOk = false →
    Answers .loadRead s fun t =>
      let failed : BitVec 10 := if s.part.causeEnable.getLsbD Cause.loadfail.index then Cause.loadfail.bits else 0
      let command : BitVec 10 := if s.part.causeEnable.getLsbD Cause.command.index then Cause.command.bits else 0
      t.mem = s.mem ∧ t.upData = s.upData ∧ t.pending = s.pending ∧ t.part.mode = .unconfigured ∧
      t.part.mirrors.load = none ∧ t.part.queue.records = [] ∧ t.part.points = Points.empty ∧
      t.part.notice.trouble = .steady ∧ t.part.notice.inProgress = none ∧
      (k ≠ .reload → t.part.notice.causes = failed ∧
        t.part.shows ((s.part.notice.inProgress.map (·.tag)).getD 0) .restarted) ∧
      ∀ c, k = .reload → s.part.notice.inProgress = some c →
        t.part.notice.causes = failed ||| command ∧ t.part.shows c.tag .done

/-- The last read of LOAD ends it: STOPPED or RUNNING, with every enabled point OWED, the LOADED record, the result, and every
word whose taken value differs from memory entered. That the six stages are one step is the model's choice (log 17). -/
def Obligations.LoadEndServesWithPointsOwed : Prop :=
  ∀ (k : LoadKind) (s : State), s.part.mode = .loading → s.part.bus.staging = [] → s.part.bus.wbq = [] →
    s.part.bus.logWait = [] → s.part.mirrors.load = some { kind := k, next := 1471 } → s.part.queue.records = [] →
    (k = .reload → s.part.notice.inProgress.isSome = true) →
    Answers .loadRead s fun t =>
      let entered (off : Nat) : Prop := off ∈ t.part.bus.wbq ∨ ∃ w ∈ t.part.bus.wbWait, off ∈ w.first :: w.later
      let loaded := LogRecord.stamp s.part.now { kind := .loaded, attempts := BitVec.ofNat 4 k.code }
      t.mem = s.mem ∧ t.upData = s.upData ∧ t.pending = s.pending ∧
      t.part.mode = (if s.part.startOnLoad then .running else .stopped) ∧ t.part.mirrors.load = none ∧
      t.part.notice.inProgress = none ∧
      (∃ h : Fin 32, h.val = (if field (s.windowMem 0x015) 0 8 ≤ 31 then field (s.windowMem 0x015) 0 8 else 0) ∧
        (k ≠ .reload → t.part.notice.causes = 0 ∧
          t.part.shows ((s.part.notice.inProgress.map (·.tag)).getD 0) .restarted ∧
          t.part.notice.heads = some { alloc := h + 1, shown := h } ∧ t.part.bus.staging.map (·.slot) = [h] ∧
          t.part.bus.logged = [loaded]) ∧
        (∀ c, k = .reload → s.part.notice.inProgress = some c →
          t.part.shows c.tag .done ∧ t.part.notice.heads = some { alloc := h + 1 + 1, shown := h } ∧
          t.part.notice.causes =
            (if s.part.causeEnable.getLsbD Cause.command.index then Cause.command.bits else 0) ∧
          t.part.bus.staging.map (·.slot) = [h, h + 1] ∧
          t.part.bus.logged = [loaded, commandLog s.part c.code c.tag .done])) ∧
      (∀ i : PointNo, (t.part.shadow i).owed = (s.part.pointEnabled i && decide (i.val < 263)) ∧
        (t.part.shadow i).delivered = (s.part.shadow i).delivered ∧
        (s.part.pointEnabled i = false → (t.part.shadow i).status = 5)) ∧
      (∀ n, (t.part.line n).takenEnable = s.part.lineEnabled n) ∧ t.part.heartbeat.silent = false ∧
      t.part.heartbeat.timer = (if s.part.heartbeatPeriod = 0 then none else some 0) ∧ t.part.queue.records = [] ∧
      entered 0x012 ∧ entered 0x013 ∧
      (∀ off, off = 0x015 ∨ (0x050 ≤ off ∧ off < 0x0B0) ∨ (0x800 ≤ off ∧ off < 0xC00) →
        (t.part.ownedWord off ^^^ s.windowMem off) &&& ownedMask off ≠ 0 → entered off) ∧
      ∀ r : RouteNo, (s.part.route r).w3AtEnd = true → entered (routeOffset r.val 3)

/-- RELOAD_READ takes a word as a panel write of it, captures a changed state code, or waits for a place in the FIFO; 003H,
010H, 011H and w2 of a route only fill their mirrors. A capture that waits is made when a place frees or OVERRUN begins, and
is dropped when the panel disables its point. The count by which waits are ordered (log 19) and what is kept of a read that
waits (log 35) are the model's own; a directory word acts at its read (log 32). -/
def Obligations.ReloadReadTakesCapturesOrWaits : Prop :=
  (∀ (k : Nat) (s : State), s.part.mode.serving = true → s.part.bus.staging = [] → s.part.bus.wbq = [] →
    s.part.mirrors.reload = some { next := k, waiting := none } → s.part.mirrors.words.wf = true → s.mem.wf = true →
    s.part.troubleCurrent → s.part.bus.hold = none → (k + 1 = Config.checkReads → s.part.configOk = true) →
    let off := reloadOffset k
    let on : Reload := { next := k + 1, waiting := none }
    (159 ≤ k → k < 671 →
      Answers .reloadRead s fun t =>
        s.keepsBut [.mirrors] t ∧ t.part.mirrors.reload = some on ∧ t.part.mirror off = s.windowMem off ∧
        ∀ a, a ≠ off → t.part.mirror a = s.part.mirror a) ∧
    (k + 1 < Config.reloadReads → s.windowMem off &&& mirrorMask off = s.part.mirror off →
      (∀ n, (s.part.line n).takenEnable = s.part.lineEnabled n) →
      Answers .reloadRead s fun t =>
        s.keepsBut [.mirrors] t ∧ t.part.mirrors = { s.part.mirrors with words := t.part.mirrors.words, reload := some on } ∧
        ∀ a, t.part.mirror a = s.part.mirror a) ∧
    (off ∈ [0x003, 0x010, 0x011] ∨ (∃ r : RouteNo, off = routeOffset r.val 2) → k < 671 →
      Answers .reloadRead s fun t =>
        s.keepsBut [.mirrors] t ∧ t.part.mirrors.reload = some on ∧
        t.part.mirror off = s.windowMem off &&& mirrorMask off ∧ ∀ a, a ≠ off → t.part.mirror a = s.part.mirror a) ∧
    (k < 671 → off ∉ [0x003, 0x010, 0x011] → (∀ r : RouteNo, off ≠ routeOffset r.val 2) →
      ∃ u, exec (.panelWrite .cycle (s.address off) (s.windowMem off)) s = .next u ∧
        exec .reloadRead s = .next
          { u with part := { u.part with mirrors := { u.part.mirrors with reload := some on } } }) ∧
    ∀ i : Fin 256, k = 671 + i.val →
      enabledField (s.part.mirror (pointOffset i.val 0)) = true → enabledField (s.windowMem (pointOffset i.val 0)) = true →
      stateCodeField (s.part.mirror (pointOffset i.val 0)) ≠ stateCodeField (s.windowMem (pointOffset i.val 0)) →
      s.part.points.overrun = false →
      let c : Capture := { point := i.castLE (by omega), code := stateCodeField (s.windowMem (pointOffset i.val 0)) }
      (i.val < 255 → s.part.points.fifo.length < Config.fifoPlaces →
        Answers .reloadRead s fun t =>
          s.keepsBut [.mirrors, .points] t ∧ t.part.mirrors.reload = some on ∧
          t.part.mirror (pointOffset i.val 0) = s.windowMem (pointOffset i.val 0) ∧
          t.part.points = { s.part.points with fifo := s.part.points.fifo ++ [c] }) ∧
      (s.part.points.fifo.length = Config.fifoPlaces →
        Answers .reloadRead s fun t =>
          s.keepsBut [.mirrors, .bus] t ∧ t.part.points.fifo = s.part.points.fifo ∧
          t.part.mirrors.reload = some { next := k, waiting := some { since := s.part.bus.tickets, capture := c } } ∧
          (∀ a, t.part.mirror a = if a = off then s.windowMem off else s.part.mirror a) ∧
          t.part.bus = { s.part.bus with tickets := s.part.bus.tickets + 1 })) ∧
  ∀ (k : Nat) (w : WaitingCapture) (s : State), s.part.mode.serving = true → k + 1 < Config.reloadReads →
    Config.checkReads ≤ k → s.part.mirrors.reload = some { next := k, waiting := some w } →
    s.part.points.fifo.length = Config.fifoPlaces → s.part.points.overrun = false →
    s.part.pointEnabled w.capture.point = true → w.capture.point.val < 256 → s.part.bus.hold = none →
    let on : Reload := { next := k + 1, waiting := none }
    (s.part.troubleCurrent → Answers .reloadRead s fun t => t = s) ∧
    (s.part.engineIdle → ∀ c rest, s.part.points.fifo = c :: rest → Answers .fifoEntryTaken s fun t =>
      t.part.points.fifo = rest ++ [w.capture] ∧ t.part.mirrors.reload = some on) ∧
    ∀ (i : Fin 256) (x : Word), s.writable → s.part.straps.stall = false →
      enabledField (s.part.mirror (pointOffset i.val 0)) = true →
      (i.val ≠ w.capture.point.val → enabledField x = true →
        stateCodeField (s.part.mirror (pointOffset i.val 0)) ≠ stateCodeField x →
        Answers (.pointEntryWrite i x) s fun t =>
          t.part.points.overrun = true ∧ t.part.points.fifo = s.part.points.fifo ∧ t.part.mirrors.reload = some on ∧
          (t.part.shadow w.capture.point).owed = true) ∧
      (i.val = w.capture.point.val → enabledField x = false →
        Answers (.pointEntryWrite i x) s fun t =>
          t.part.points.fifo = s.part.points.fifo ∧ t.part.mirrors.reload = some on)

/-- The last read of RELOAD marks every enabled point OWED and answers DONE; a failed check drops all work, what is discarded
being held empty (log 27). -/
def Obligations.ReloadEndsInSweepOrUnconfigured : Prop :=
  (∀ (c : Command) (h : Heads) (s : State), s.part.mode.serving = true → s.part.bus.staging = [] →
    s.part.bus.wbq = [] → s.part.mirrors.reload = some { next := 926, waiting := none } →
    s.part.mirrors.words.wf = true → s.part.notice.inProgress = some c → s.part.notice.heads = some h →
    let off := pointOffset 255 0
    let captured := decide (stateCodeField (s.part.mirror off) ≠ stateCodeField (s.windowMem off))
    enabledField (s.part.mirror off) = enabledField (s.windowMem off) →
    (captured = true → enabledField (s.windowMem off) = true → s.part.bus.hold = none ∧ s.part.points.overrun = false ∧
      s.part.points.fifo.length < Config.fifoPlaces) →
    Answers .reloadRead s fun t =>
      t.mem = s.mem ∧ t.upData = s.upData ∧ t.pending = s.pending ∧ t.part.mode = s.part.mode ∧
      t.part.mirrors.reload = none ∧ t.part.notice.inProgress = none ∧
      s.part.answered c.code c.tag .done t.part ∧ t.part.arbiter.decisionPending = true ∧
      (∀ a, t.part.mirror a = if a = off then s.windowMem off else s.part.mirror a) ∧
      t.part.points.fifo = s.part.points.fifo ++
        (if captured && enabledField (s.windowMem off) then
          [{ point := 255, code := stateCodeField (s.windowMem off) }] else []) ∧
      (∀ i : PointNo, s.part.pointEnabled i = true → i.val < 263 → (t.part.shadow i).owed = true) ∧
      (∀ i : PointNo, s.part.pointEnabled i = false → t.part.shadow i = s.part.shadow i) ∧
      t.part.queue.records.map (·.id) = s.part.queue.records.map (·.id) ∧
      s.part.keepsBut [.bus, .mirrors, .points, .queue, .arbiter, .notice] t.part) ∧
  ∀ (c : Command) (s : State), s.part.mode.serving = true → s.part.bus.staging = [] → s.part.bus.wbq = [] →
    s.part.mirrors.reload = some { next := 22, waiting := none } → s.part.mirrors.words.wf = true →
    s.part.notice.inProgress = some c → s.part.configOk = false →
    Answers .reloadRead s fun t =>
      t.mem = s.mem ∧ t.upData = s.upData ∧ t.pending = s.pending ∧ t.part.mode = .unconfigured ∧
      t.part.mirrors.reload = none ∧ t.part.queue.records = [] ∧ t.part.points = Points.empty ∧
      t.part.bus.staging = [] ∧ t.part.notice.trouble = .steady ∧ t.part.notice.inProgress = none ∧
      t.part.shows c.tag .done ∧
      (∀ n, (t.part.line n).call = none ∧ ((s.part.line n).call.isSome = true →
        (t.part.line n).state = .release ∧ (t.part.line n).timer = some Config.guardMs)) ∧
      (s.part.causeEnable.getLsbD Cause.loadfail.index = true →
        t.part.notice.causes.getLsbD Cause.loadfail.index = true) ∧
      s.part.notice.causes &&& t.part.notice.causes = s.part.notice.causes

/-! ### Commands -/

/-- START, STOP and RELOAD: the state they set. In UNCONFIGURED RELOAD begins LOAD. -/
def Obligations.StartStopAndReloadSetTheState : Prop :=
  ∀ (tag : BitVec 8) (spare : BitVec 4) (s : State), s.commandFree →
    (s.part.mode.serving = true →
      (Answers (.start tag spare) s fun t =>
        s.commandTaken 1 tag spare [.mode, .arbiter] t ∧ t.part.mode = .running ∧ t.part.notice.inProgress = none ∧
        s.part.answered 1 tag .done t.part ∧ t.part.arbiter.offers = s.part.arbiter.offers ∧
        t.part.arbiter.decisionPending = (s.part.arbiter.decisionPending || decide (s.part.mode = .stopped))) ∧
      (Answers (.stop tag spare) s fun t =>
        s.commandTaken 2 tag spare [.mode] t ∧ t.part.mode = .stopped ∧ t.part.notice.inProgress = none ∧
        s.part.answered 2 tag .done t.part) ∧
      Answers (.reload tag spare) s fun t =>
        s.commandTaken 4 tag spare [] t ∧ t.part.mirrors.reload = some { next := 0, waiting := none } ∧
        t.part.notice.inProgress = some { code := 4, tag } ∧ t.part.shows tag .inProgress ∧
        t.part.notice.causes = s.part.notice.causes ∧ t.part.notice.heads = s.part.notice.heads) ∧
    (s.part.mode = .unconfigured → Answers (.reload tag spare) s fun t =>
      s.commandTaken 4 tag spare [.mode] t ∧ t.part.mode = .loading ∧
      t.part.mirrors.load = some { kind := .reload, next := 0 } ∧ t.part.notice.heads = none ∧
      t.part.notice.inProgress = some { code := 4, tag } ∧ t.part.shows tag .inProgress)

/-- ABORT CALLS ends the call on every line that carries one; every undelivered record returns WAITING, and where its point
has been given newer records meanwhile they are merged by R81, with one notice of the change (log 21). -/
def Obligations.AbortCallsReleasesEveryCall : Prop :=
  ∀ (tag : BitVec 8) (spare : BitVec 4) (s : State), s.part.mode.serving = true → s.commandFree →
    (Answers (.abortCalls tag spare) s fun t =>
      s.commandTaken 3 tag spare [.lines, .points, .queue, .arbiter] t ∧ t.part.notice.inProgress = none ∧
      s.part.answered 3 tag .done t.part ∧
      (∀ n, (s.part.line n).call = none → t.part.line n = s.part.line n) ∧
      ∀ n, (s.part.line n).call.isSome = true → (t.part.line n).state = .release ∧ (t.part.line n).call = none ∧
        (t.part.line n).timer = some Config.guardMs ∧ (t.part.line n).takenEnable = (s.part.line n).takenEnable ∧
        (t.part.line n).disablePending = (s.part.line n).disablePending) ∧
    ∀ (n : LineNo) (c : Call), (s.part.line n).call = some c → (∀ m, m ≠ n → (s.part.line m).call = none) →
      s.part.queue.sound →
      let abortLog (r : Record) : LogRecord := LogRecord.stamp s.part.now (LogRecord.ofCall n c.dest (r.log .aborted))
      let back (r : Record) : Record := { r with state := .waiting, call := none }
      (∀ rs, s.part.queue.carries c rs → s.part.queue.alone rs →
        Answers (.abortCalls tag spare) s fun t =>
          t.part.queue = { s.part.queue with
            records := s.part.queue.records.map fun z => if z ∈ rs then back z else z } ∧
          t.part.points.work = s.part.points.work ++ rs.map (fun r => .notice .returned r.point) ∧
          s.part.logsMade ((rs.take 1).map abortLog ++ [commandLog s.part 3 tag .done]) t.part) ∧
      ∀ r x : Record, c.undelivered = [r.slot] → r.state ≠ .waiting → r.state ≠ .held → x.chained = true →
        (s.part.queue.records.filter (·.point = r.point) = [r, x] →
          Answers (.abortCalls tag spare) s fun t =>
            if x.sense = r.sense then
              t.part.queue.records = s.part.queue.records.filterMap (fun z => if z = r then some
                { back r with
                  code := x.code, priority := min r.priority x.priority, fold := min 9 (r.fold + 1 + x.fold)
                  route := if r.sense = .test then r.route else x.route
                  unrouted := if r.sense = .test then r.unrouted else x.unrouted }
                else if z = x then none else some z) ∧
              t.part.points.work = s.part.points.work ++ [.notice .returned r.point, .notice .merged r.point] ∧
              s.part.logsMade [abortLog r, commandLog s.part 3 tag .done] t.part
            else t.part.queue.records = s.part.queue.records.map fun z => if z = r then back r else z) ∧
        ∀ y : Record, y.chained = true → x.sense ≠ y.sense → s.part.queue.records.filter (·.point = r.point) = [r, x, y] →
          Answers (.abortCalls tag spare) s fun t =>
            (x.sense = r.sense →
              t.part.queue.records = s.part.queue.records.filterMap (fun z => if z = r then some
                { back r with
                  code := x.code, priority := min r.priority x.priority, fold := min 9 (r.fold + 1 + x.fold)
                  route := if r.sense = .test then r.route else x.route
                  unrouted := if r.sense = .test then r.unrouted else x.unrouted }
                else if z = x then none else some z) ∧
              s.part.logsMade [abortLog r, commandLog s.part 3 tag .done] t.part) ∧
            (y.sense = r.sense →
              t.part.queue.records = s.part.queue.records.filterMap (fun z => if z = r then some
                { back r with
                  code := if r.sense = .active then y.code else r.code
                  priority := min r.priority y.priority, fold := min 9 (r.fold + 2 + y.fold)
                  route := if r.sense = .active then y.route else r.route
                  unrouted := if r.sense = .active then y.unrouted else r.unrouted }
                else if z = x ∨ z = y then none else some z) ∧
              t.part.points.work = s.part.points.work ++
                [.notice .returned r.point, .notice .withdrawal r.point, .notice .merged r.point] ∧
              s.part.logsMade [abortLog r, s.part.droppedLog .withdrawn x, commandLog s.part 3 tag .done] t.part)

/-- RESTART answers DONE, stays the command in progress, and drains. With room for its entries the drain begins at once with
what is then present; otherwise when the last of them has entered. What is present and what becomes of a command refused
before the drain has begun are the model's choice (log 22). -/
def Obligations.RestartAnswersAndDrains : Prop :=
  (∀ (tag : BitVec 8) (spare : BitVec 4) (s : State), s.commandFree → s.part.troubleCurrent →
    (s.part.mode.serving = true ∨ s.part.mode = .unconfigured) →
    Answers (.restart tag spare) s fun t =>
      s.commandTaken 10 tag spare [] t ∧ s.part.answered 10 tag .done t.part ∧
      t.part.notice.inProgress = some { code := 10, tag } ∧ s.part.bus.wbq <+: t.part.bus.wbq ∧
      (s.part.bus.wbWait = [] → s.part.bus.wbq.length + 2 ≤ Config.writeBackPlaces → s.part.bus.logWait = [] →
        s.part.bus.staging.length < Config.stagingPlaces →
        0x012 ∈ t.part.bus.wbq ∧ t.part.bus.logWait = [] ∧
        t.part.bus.drain = some (.draining t.part.bus.staging.length t.part.bus.wbq false))) ∧
  (∀ (off before : Nat) (es : List Nat) (o : Owner) (k : Nat) (s : State), s.part.mode.live = true →
    s.part.bus.drain = some (.finishing es before []) → (∀ a ∈ es, a = off) → s.part.bus.logWait = [] →
    s.part.bus.wbWait = [{ owner := o, ticket := k, first := off, later := [] }] → off ∉ s.part.bus.wbq →
    s.part.bus.wbq.length < Config.writeBackPlaces → s.part.points.todo = [] → s.part.points.work = [] →
    s.part.troubleCurrent →
    Answers .writeBackEntryAdmitted s fun t =>
      s.keepsBut [.bus] t ∧ t.part.bus = { s.part.bus with
        wbWait := [], wbq := s.part.bus.wbq ++ [off]
        drain := some (.draining s.part.bus.staging.length (s.part.bus.wbq ++ [off]) false) }) ∧
  (∀ (k before : Nat) (r : Staged) (s : State), s.part.mode.live = true →
    s.part.bus.drain = some (.finishing [] before []) → s.part.bus.logWait = [(k, r)] →
    s.part.bus.staging.length < Config.stagingPlaces → s.part.troubleCurrent →
    Answers .logRecordAdmitted s fun t =>
      s.keepsBut [.bus] t ∧ t.part.bus = { s.part.bus with
        logWait := [], staging := s.part.bus.staging ++ [r]
        drain := some (.draining (s.part.bus.staging.length + 1) s.part.bus.wbq false) }) ∧
  ∀ (code : BitVec 4) (tag : BitVec 8) (spare : BitVec 4) (es : List Nat) (before : Nat)
    (later : List (Command × ResultStatus)) (s : State), s.part.mode.serving = true → s.writable → s.part.troubleCurrent →
    s.part.notice.inProgress.isSome = true → unknownCode code = false →
    s.part.bus.drain = some (.finishing es before later) →
    Answers (commandRow code tag spare) s fun t =>
      s.commandTaken code tag spare [] t ∧ t.part.notice = s.part.notice ∧
      t.part.bus = { s.part.bus with drain := some (.finishing es before (later ++ [({ code, tag }, .refusedBusy)])) }

/-- ADOPT BASELINE: every point it has come to has intended set afresh, from its present state code or its condition and
record, delivered equal to intended, no WAITING or HELD record, and the owed mark exactly where a record in a call leaves
intended calling for a report (R59); point 0 is done at once. When the last of its
addresses has entered, it is DONE. That the engine takes it at once when it is free is the model's choice (log 10). -/
def Obligations.AdoptBaselineDeliversPresentState : Prop :=
  (∀ (tag : BitVec 8) (spare : BitVec 4) (s : State), s.part.mode = .stopped → s.commandFree → s.part.engineIdle →
    s.part.points.fifo = [] → s.part.queue.sound →
    Answers (.adoptBaseline tag spare) s fun t =>
      s.commandTaken 5 tag spare [.points, .queue] t ∧ PointOp.baseline 0 ∉ t.part.points.todo ∧
      (∀ i : PointNo, i.val < 263 → PointOp.baseline i ∉ t.part.points.todo →
        (t.part.shadow i).delivered.sense = (t.part.shadow i).intended.sense ∧
        (t.part.shadow i).delivered.fold = 0 ∧
        (t.part.shadow i).delivered.code =
          (if (t.part.shadow i).intended.sense = 0 then 0 else (t.part.shadow i).intended.code) ∧
        t.part.queue.chain i = [] ∧ (t.part.shadow i).isolated = (s.part.shadow i).isolated ∧
        (i.val < 256 → (t.part.shadow i).processed =
            (if s.part.pointEnabled i = true then s.part.stateCode i else (s.part.shadow i).processed) ∧
          (t.part.shadow i).intended =
            (if s.part.pointEnabled i = true then
              (s.part.translated i (s.part.stateCode i)).getD (s.part.shadow i).intended
            else (s.part.shadow i).intended)) ∧
        (256 ≤ i.val → (t.part.shadow i).intended =
          let v := virtualNo i
          { sense := if s.part.condition i = true then 1 else 2, code := s.part.virtualCode v
            priority := s.part.virtualPriority v, route := (s.part.chooseRoute (s.part.virtualRoute v)).1
            unrouted := (s.part.chooseRoute (s.part.virtualRoute v)).2 }) ∧
        ((t.part.shadow i).owed = true ↔ ∃ r, (t.part.queue.records.filter (·.point = i)).getLast? = some r ∧
          (((t.part.shadow i).intended.sense = 1 ∧
              (r.sense ≠ .active ∨ r.code ≠ (t.part.shadow i).intended.code)) ∨
            ((t.part.shadow i).intended.sense = 2 ∧ r.sense = .active))) ∧
        t.part.queue.records.filter (·.point = i) =
          s.part.queue.records.filter (fun r => decide (r.point = i) && !r.chained) ∧
        (t.part.shadow i).status = t.part.derivedStatus i ∧
        t.part.bus.hasEntry (statusOffset i) ∧ t.part.bus.hasEntry (codeOffset i)) ∧
      (∀ i : PointNo, PointOp.baseline i ∈ t.part.points.todo → t.part.shadow i = s.part.shadow i) ∧
      (t.part.points.todo ≠ [] → t.part.notice.inProgress = some { code := 5, tag } ∧ t.part.shows tag .inProgress)) ∧
  ∀ (c : Command) (w : Waiter) (s : State), s.part.mode.serving = true → s.part.points.todo = [.commandDone] →
    s.part.points.work = [] → s.part.notice.inProgress = some c → s.part.bus.drain = none →
    s.part.bus.wbWait = [w] → w.owner = .pointEngine → w.later = [] → w.first ∉ s.part.bus.wbq →
    s.part.bus.wbq.length < Config.writeBackPlaces →
    Answers .writeBackEntryAdmitted s fun t =>
      t.part.points.todo = [] ∧ t.part.notice.inProgress = none ∧ s.part.answered c.code c.tag .done t.part ∧
      s.part.bus.wbq ++ [w.first] <+: t.part.bus.wbq ∧ s.keepsBut [.bus, .points, .notice] t

/-- TEST CALL hands the Point Engine a TEST request, or answers BAD_ARGUMENT. CLEAR TROUBLE ends the latch of point 262 once
OVERRUN has ended, requests the restore this calls for, and is then DONE. That the engine takes CLEAR TROUBLE at once when it
is free is the model's choice (log 10). -/
def Obligations.TestCallAndClearTroubleReachThePointEngine : Prop :=
  ∀ (tag : BitVec 8) (spare : BitVec 4) (s : State), s.commandFree →
    (s.part.mode.serving = true → Answers (.testCall tag spare) s fun t =>
      s.commandTaken 6 tag spare [.points] t ∧
      if 17 ≤ (s.part.mirror 0x011).toNat then
        t.part.points = s.part.points ∧ t.part.notice.inProgress = none ∧ s.part.answered 6 tag .badArgument t.part
      else
        t.part.notice.inProgress = some { code := 6, tag } ∧ t.part.shows tag .inProgress ∧
        t.part.points = { s.part.points with work := s.part.points.work ++
          [.test (if (s.part.mirror 0x011).toNat = 16 then s.part.virtualRoute 7
            else Fin.ofNat 16 (s.part.mirror 0x011).toNat) true] }) ∧
    (s.part.mode.serving = true → s.part.engineIdle → s.part.points.latch = false ∨ s.part.points.overrun = true →
      Answers (.clearTrouble tag spare) s fun t =>
        s.commandTaken 8 tag spare [] t ∧ t.part.notice.inProgress = none ∧ s.part.answered 8 tag .done t.part) ∧
    (s.part.mode.serving = true → s.part.engineIdle → s.part.points.latch = true → s.part.points.overrun = false →
      s.part.queue.sound →
      Answers (.clearTrouble tag spare) s fun t =>
        s.commandTaken 8 tag spare [.points, .queue, .arbiter] t ∧ t.part.points.latch = false ∧
        t.part.points.fifo = s.part.points.fifo ∧ s.part.keepsOtherShadows 262 t.part ∧
        (t.part.shadow 262).intended = s.part.virtualIntended 262 false ∧
        (s.part.bus.wbWait = [] → s.part.bus.wbq.length + 4 ≤ Config.writeBackPlaces →
          t.part.notice.inProgress = none ∧ s.part.answered 8 tag .done t.part ∧ t.part.points.todo = [] ∧
          if s.part.pointEnabled 262 = true ∧ (s.part.committed 262).1 = 1 then
            s.part.requested
              { point := 262, sense := .normal, code := (s.part.committed 262).2, priority := s.part.virtualPriority 6
                route := (s.part.chooseRoute (s.part.virtualRoute 6)).1
                unrouted := (s.part.chooseRoute (s.part.virtualRoute 6)).2 } [commandLog s.part 8 tag .done] t.part
          else t.part.queue = s.part.queue ∧ s.part.logsMade [commandLog s.part 8 tag .done] t.part)) ∧
    (s.part.mode = .unconfigured → Answers (.clearTrouble tag spare) s fun t =>
      s.commandTaken 8 tag spare [] t ∧ t.part.notice.inProgress = none ∧ s.part.answered 8 tag .done t.part)

/-- SET TIME loads the clock from the mirrors or answers BAD_ARGUMENT; in UNCONFIGURED it reads the words by SET_TIME_READ.
A clock that is set has its three words entered (R154). -/
def Obligations.SetTimeLoadsTheClock : Prop :=
  (∀ (tag : BitVec 8) (spare : BitVec 4) (s : State), s.part.mode.serving = true → s.commandFree →
    Answers (.setTime tag spare) s fun t =>
      s.commandTaken 7 tag spare [.time] t ∧ t.part.notice.inProgress = none ∧
      if 1439 < field (s.part.mirror 0x01E) 0 11 ∨ 59 < field (s.part.mirror 0x01F) 0 6 then
        t.part.time = s.part.time ∧ s.part.answered 7 tag .badArgument t.part
      else
        s.part.timeEntered 1 t.part ∧
        t.part.time = { s.part.time with
          day := s.part.mirror 0x01D, minute := field (s.part.mirror 0x01E) 0 11
          second := field (s.part.mirror 0x01F) 0 6, elapsedMs := 0
          nextTest :=
            if testInterval (s.part.mirror 0x007) = 0 then none
            else if field (s.part.mirror 0x01E) 0 11 < testMinute (s.part.mirror 0x006) then some (s.part.mirror 0x01D)
            else some (s.part.mirror 0x01D + 1) } ∧
        s.part.answered 7 tag .done t.part) ∧
  (∀ (tag : BitVec 8) (spare : BitVec 4) (s : State), s.part.mode = .unconfigured → s.commandFree →
    Answers (.setTime tag spare) s fun t =>
      s.commandTaken 7 tag spare [] t ∧ t.part.mirrors.timeReads = some [] ∧
      t.part.notice.inProgress = some { code := 7, tag } ∧ t.part.shows tag .inProgress) ∧
  ∀ (c : Command) (s : State), s.part.mode = .unconfigured → s.part.bus.staging = [] → s.part.bus.wbq = [] →
    s.part.notice.inProgress = some c → s.part.troubleCurrent →
    (s.part.mirrors.timeReads = some [] → Answers .setTimeRead s fun t =>
      s.keepsBut [.mirrors] t ∧ t.part.mirrors = { s.part.mirrors with timeReads := some [s.windowMem 0x01D] }) ∧
    (∀ a, s.part.mirrors.timeReads = some [a] → Answers .setTimeRead s fun t =>
      s.keepsBut [.mirrors] t ∧ t.part.mirrors = { s.part.mirrors with timeReads := some [a, s.windowMem 0x01E] }) ∧
    ∀ a b, s.part.mirrors.timeReads = some [a, b] → Answers .setTimeRead s fun t =>
      s.keepsBut [.mirrors, .bus, .notice, .time] t ∧ t.part.mirrors = { s.part.mirrors with timeReads := none } ∧
      t.part.notice.inProgress = none ∧
      if 1439 < field b 0 11 ∨ 59 < field (s.windowMem 0x01F) 0 6 then
        t.part.time = s.part.time ∧ t.part.shows c.tag .badArgument
      else
        s.part.timeEntered 0 t.part ∧
        t.part.time = { s.part.time with
          day := a, minute := field b 0 11, second := field (s.windowMem 0x01F) 0 6, elapsedMs := 0 } ∧
        t.part.shows c.tag .done

/-- RELEASE HELD (R84): every HELD record becomes WAITING as at a hold expiry, in admission order. -/
def Obligations.ReleaseHeldReleasesEveryHeldRecord : Prop :=
  ∀ (tag : BitVec 8) (spare : BitVec 4) (s : State), s.part.mode.serving = true → s.commandFree →
    s.part.queue.sound →
    Answers (.releaseHeld tag spare) s fun t =>
      s.commandTaken 9 tag spare [.points, .queue, .arbiter] t ∧ t.part.notice.inProgress = none ∧
      s.part.answered 9 tag .done t.part ∧
      t.part.queue = { s.part.queue with records := s.part.queue.records.map fun r =>
        if r.state = .held then { r with state := .waiting, holdUntil := none, retry := none } else r } ∧
      t.part.queue.held = 0 ∧
      t.part.points = { s.part.points with work := s.part.points.work ++
        (s.part.queue.records.filter (·.state = .held)).map fun r => .notice .release r.point } ∧
      t.part.arbiter.offers = s.part.arbiter.offers ∧
      t.part.arbiter.decisionPending = (s.part.arbiter.decisionPending || decide (s.part.queue.held ≠ 0))

/-- The judgement of a command that is not accepted, by the order of R175: UNKNOWN_COMMAND (commandRow at code 0 or 11 to
15) always, and the ten commands where the mode or the command in progress refuses them. -/
def Obligations.CommandsAreRefusedInOrder : Prop :=
  ∀ (code : BitVec 4) (tag : BitVec 8) (spare : BitVec 4) (s : State), s.part.mode.live = true → s.writable →
    (∀ es before later, s.part.bus.drain ≠ some (.finishing es before later)) →
    (unknownCode code = true ∨ s.part.mode = .loading ∨ s.part.notice.inProgress.isSome = true ∨
      (s.part.mode = .unconfigured ∧ code ∉ ([4, 7, 8, 10] : List (BitVec 4))) ∨ (s.part.mode = .running ∧ code = 5)) →
    Answers (commandRow code tag spare) s fun t =>
      s.commandTaken code tag spare [] t ∧ t.part.notice.inProgress = s.part.notice.inProgress ∧
      s.part.answered code tag
        (if unknownCode code = true then .unknown
        else if s.part.mode = .loading then (if code = 10 then .refusedBusy else .refusedState)
        else if s.part.notice.inProgress.isSome = true then .refusedBusy
        else .refusedState) t.part

/-! ### Panel writes of single words -/

/-- CAUSE_WORD_WRITE clears the causes written as 1; CAUSE_ENABLE_WRITE takes the enable; IRQ follows both.
BATTERY_THRESHOLD_CHANGE, TEST_SCHEDULE_CHANGE and LOG_TAIL_WRITE change their mirror and what follows from it, a change of
006H and 007H being judged by the bits of the field (log 31). -/
def Obligations.CauseAndSettingWritesTakeEffectAtOnce : Prop :=
  (∀ (w : Word) (s : State), s.part.mode.live = true → s.writable → s.part.troubleCurrent →
    (Answers (.causeWordWrite w) s fun t =>
      s.stores 0x013 ((s.part.notice.causes &&& ~~~ (w.setWidth 10)).setWidth 16) t ∧
      t.part.notice = { s.part.notice with causes := s.part.notice.causes &&& ~~~ (w.setWidth 10) } ∧
      (t.part.irq = true ↔ t.part.notice.causes &&& s.part.causeEnable ≠ 0) ∧
      s.part.keepsBut [.mirrors, .notice] t.part ∧ ∀ a, a ≠ 0x013 → t.part.mirror a = s.part.mirror a) ∧
    Answers (.causeEnableWrite w) s fun t =>
      s.stores 0x014 w t ∧ t.part.mirror 0x014 = w ∧
      (t.part.irq = true ↔ s.part.notice.causes &&& w.extractLsb' 0 10 ≠ 0) ∧
      s.part.keepsBut [.mirrors] t.part ∧ ∀ a, a ≠ 0x014 → t.part.mirror a = s.part.mirror a) ∧
  ∀ (w : Word) (s : State), s.part.mode.serving = true → s.writable → s.part.troubleCurrent →
    (Answers (.batteryThresholdChange w) s fun t =>
      s.stores 0x005 w t ∧ s.part.keepsBut [.mirrors, .arbiter] t.part ∧
      (∀ a, t.part.mirror a = if a = 0x005 then w else s.part.mirror a) ∧
      t.part.arbiter.offers = s.part.arbiter.offers ∧ t.part.arbiter.formations = s.part.arbiter.formations ∧
      t.part.arbiter.decisionPending = (s.part.arbiter.decisionPending ||
        decide ((s.part.mirror 0x005).extractLsb' 0 3 ≠ w.extractLsb' 0 3))) ∧
    (∀ k : ScheduleWord, Answers (.testScheduleChange k w) s fun t =>
      let off := match k with
        | .minute => 0x006
        | .interval => 0x007
      let changed := match k with
        | .minute => decide ((s.part.mirror 0x006).extractLsb' 0 11 ≠ w.extractLsb' 0 11)
        | .interval => decide ((s.part.mirror 0x007).extractLsb' 0 4 ≠ w.extractLsb' 0 4)
      s.stores off w t ∧ s.part.keepsBut [.mirrors, .time] t.part ∧
      (∀ a, t.part.mirror a = if a = off then w else s.part.mirror a) ∧
      s.part.time.kept t.part.time ∧
      t.part.time.nextTest =
        (if changed then
          if testInterval (t.part.mirror 0x007) = 0 then none
          else if s.part.time.minute < testMinute (t.part.mirror 0x006) then some s.part.time.day
          else some (s.part.time.day + 1)
        else s.part.time.nextTest)) ∧
    Answers (.logTailWrite w) s fun t =>
      s.stores 0x016 w t ∧ s.part.keepsBut [.mirrors] t.part ∧
      (∀ a, t.part.mirror a = if a = 0x016 then w else s.part.mirror a) ∧
      t.part.logTail = if field w 0 8 < 32 then field w 0 8 else 0

/-- IRQ (R174): asserted exactly while the cause word and the cause enable have a common bit set. A panel write of 014H
replaces the enable at once and clears no cause; a panel read of 013H shows every cause. -/
def Obligations.IrqFollowsTheEnabledCauses : Prop :=
  ∀ s : State, s.part.mode.live = true →
    (s.part.irq = true ↔ ∃ i : Fin 10, s.part.notice.causes.getLsbD i.val = true ∧ (s.part.mirror 0x014).getLsbD i.val = true) ∧
    (∀ w : Word, s.writable → Answers (.causeEnableWrite w) s fun t =>
      t.part.mode = s.part.mode ∧ t.part.mirror 0x014 = w ∧ t.part.notice.causes = s.part.notice.causes ∧
      (t.part.irq = true ↔ ∃ i : Fin 10, s.part.notice.causes.getLsbD i.val = true ∧ w.getLsbD i.val = true)) ∧
    (s.busFree → Answers (.panelRead .cycle (s.address 0x013)) s fun t =>
      t.part = s.part ∧ t.upData = some (s.part.notice.causes.setWidth 16))

/-- HEARTBEAT restarts the supervision; HEARTBEAT_PERIOD_CHANGE acts on a new period, judged by the period taken, the model's
choice (log 31). -/
def Obligations.HeartbeatWritesRestartSupervision : Prop :=
  ∀ (w : Word) (s : State), s.part.mode.serving = true → s.writable →
    (Answers (.heartbeat w) s fun t =>
      s.stores 0x003 w t ∧ t.part.mirror 0x003 = w ∧
      s.part.keepsBut [.bus, .notice, .mirrors, .points, .heartbeat] t.part ∧
      s.part.bus.keepsButEntries t.part.bus ∧ s.part.notice.keepsButTrouble t.part.notice ∧
      t.part.heartbeat = { timer := if s.part.heartbeatPeriod = 0 then none else some 0, silent := false } ∧
      t.part.points = { s.part.points with work := s.part.points.work ++
        if s.part.heartbeat.silent then [.condition 256 false] else [] }) ∧
    Answers (.heartbeatPeriodChange w) s fun t =>
      s.stores 0x004 w t ∧ t.part.mirror 0x004 = w ∧
      s.part.keepsBut [.bus, .notice, .mirrors, .points, .heartbeat] t.part ∧
      s.part.bus.keepsButEntries t.part.bus ∧ s.part.notice.keepsButTrouble t.part.notice ∧
      if Machine.heartbeatPeriod w = s.part.heartbeatPeriod then
        t.part.heartbeat = s.part.heartbeat ∧ t.part.points = s.part.points
      else if Machine.heartbeatPeriod w = 0 then
        t.part.heartbeat = { timer := none, silent := false } ∧
        t.part.points = { s.part.points with work := s.part.points.work ++
          if s.part.heartbeat.silent then [.condition 256 false] else [] }
      else if s.part.heartbeat.silent = true then
        t.part.heartbeat = s.part.heartbeat ∧ t.part.points = s.part.points
      else t.part.heartbeat = { timer := some 0, silent := false } ∧ t.part.points = s.part.points

/-- LINE_ENABLE_CHANGE acts by the line state. That a change of 008H to 00BH is told to the arbiter by the bits of the field is
the model's choice (log 31). -/
def Obligations.LineEnableActsByLineState : Prop :=
  ∀ (n : LineNo) (w : Word) (s : State), s.part.mode.serving = true → s.writable →
    Answers (.lineEnableChange n w) s fun t =>
      s.stores (0x008 + n.val) w t ∧ (∀ a, t.part.mirror a = if a = 0x008 + n.val then w else s.part.mirror a) ∧
      s.part.keepsBut [.bus, .notice, .mirrors, .points, .lines, .arbiter] t.part ∧ s.part.keepsOtherLines n t.part ∧
      s.part.bus.keepsButEntries t.part.bus ∧ s.part.notice.keepsButTrouble t.part.notice ∧
      t.part.arbiter.offers = s.part.arbiter.offers ∧
      ((s.part.mirror (0x008 + n.val)).extractLsb' 0 6 ≠ w.extractLsb' 0 6 → t.part.arbiter.decisionPending = true) ∧
      (t.part.line n).takenEnable = bit w 0 ∧
      if (s.part.line n).takenEnable = bit w 0 then
        t.part.line n = s.part.line n ∧ t.part.points = s.part.points
      else if bit w 0 = true then
        (t.part.line n).disablePending = false ∧
        ((s.part.line n).state ≠ .disabled → (t.part.line n).call = (s.part.line n).call) ∧
        (t.part.line n).state = (if (s.part.line n).state = .disabled then .idle else (s.part.line n).state) ∧
        t.part.points = s.part.points
      else match (s.part.line n).state with
        | .idle | .office | .disabled => (t.part.line n).state = .disabled ∧ t.part.points = s.part.points
        | .fault => (t.part.line n).state = .disabled ∧ (t.part.line n).presence = none ∧
            t.part.points = { s.part.points with work := s.part.points.work ++ [.condition (faultPoint n) false] }
        | .breaking | .dialtone | .dialing | .ringback | .linked | .release =>
            t.part.line n = { s.part.line n with takenEnable := false, disablePending := true } ∧
              t.part.points = s.part.points

/-- ROUTE_DESCRIPTOR_WRITE and DIRECTORY_WRITE change mirrors and validity, tell the arbiter, and judge unrouted marks. That a
change of w0 of a route and of a directory word is judged by the bits of the field is the model's choice (log 31). -/
def Obligations.RouteAndDirectoryWritesReachTheArbiter : Prop :=
  (∀ (r : RouteNo) (k : RouteWord) (w : Word) (s : State), s.part.mode.serving = true → s.writable →
    Answers (.routeDescriptorWrite r k w) s fun t =>
      let off := match k with
        | .w0 => routeOffset r.val 0
        | .w1 => routeOffset r.val 1
      s.stores off w t ∧ (∀ a, t.part.mirror a = if a = off then w else s.part.mirror a) ∧
      s.part.keepsBut [.bus, .notice, .mirrors, .queue, .arbiter] t.part ∧
      s.part.bus.keepsButEntries t.part.bus ∧ s.part.notice.keepsButTrouble t.part.notice ∧
      t.part.arbiter.offers = s.part.arbiter.offers ∧ t.part.mirrors.valid = s.part.mirrors.valid ∧
      (k = .w0 → s.part.mirror off ≠ w → t.part.arbiter.decisionPending = true) ∧
      (k = .w1 ∨ s.part.mirror off = w → t.part.arbiter = s.part.arbiter) ∧
      t.part.queue = if k = .w0 ∧ s.part.mirror off ≠ w ∧ r = 0 ∧ t.part.inForce 0 = true then
          { s.part.queue with records := s.part.queue.records.map fun x => { x with unrouted := false } }
        else s.part.queue) ∧
  ∀ (d : DestNo) (k : Fin 9) (w : Word) (s : State), s.part.mode.serving = true → s.writable →
    Answers (.directoryWrite d k w) s fun t =>
      let off := directoryOffset d.val k.val
      s.stores off w t ∧ (∀ a, t.part.mirror a = if a = off then w else s.part.mirror a) ∧
      s.part.keepsBut [.bus, .notice, .mirrors, .queue, .arbiter] t.part ∧
      s.part.bus.keepsButEntries t.part.bus ∧ s.part.notice.keepsButTrouble t.part.notice ∧
      t.part.arbiter.offers = s.part.arbiter.offers ∧
      (∀ e : DestNo, e ≠ d → t.part.mirrors.valid[e] = s.part.mirrors.valid[e]) ∧
      (s.part.changes off w = true →
        t.part.arbiter.decisionPending = true ∧ t.part.mirrors.valid[d] = t.part.entryValid d) ∧
      (s.part.changes off w = false →
        t.part.arbiter = s.part.arbiter ∧ t.part.mirrors.valid = s.part.mirrors.valid) ∧
      t.part.queue = if s.part.changes off w = true ∧ s.part.primaryDest 0 = d ∧ t.part.inForce 0 = true then
          { s.part.queue with records := s.part.queue.records.map fun x => { x with unrouted := false } }
        else s.part.queue

/-- BUDGET_WRITE replaces a differing budget and clears the spent flag; ACCESSED_FLAG_CLEAR clears the flag by a 0. -/
def Obligations.BudgetAndAccessedWritesActOnTheRoute : Prop :=
  ∀ (r : RouteNo) (w : Word) (s : State), s.part.mode.serving = true → s.writable → s.part.troubleCurrent →
    (Answers (.budgetWrite r w) s fun t =>
      s.stores (routeOffset r.val 2) w t ∧
      (∀ a, t.part.mirror a = if a = routeOffset r.val 2 then w &&& 0xC000 else s.part.mirror a) ∧
      s.part.keepsBut [.bus, .mirrors, .routes, .arbiter] t.part ∧ s.part.bus.keepsButEntries t.part.bus ∧
      (∀ k, k ≠ r → t.part.route k = s.part.route k) ∧ t.part.arbiter.offers = s.part.arbiter.offers ∧
      if budgetField w = (s.part.route r).budget then
        t.part.route r = s.part.route r ∧ t.part.arbiter = s.part.arbiter ∧ t.part.bus = s.part.bus
      else
        t.part.route r = { s.part.route r with budget := budgetField w, spent := false } ∧
        t.part.arbiter.decisionPending = true ∧
        ((s.part.route r).spent = true → s.part.bus.wbWait = [] →
          s.part.bus.wbq.length < Config.writeBackPlaces → routeOffset r.val 3 ∈ t.part.bus.wbq)) ∧
    Answers (.accessedFlagClear r w) s fun t =>
      t.part.route r = { s.part.route r with accessed := (s.part.route r).accessed && bit w 0 } ∧
      s.stores (routeOffset r.val 3) (t.part.route r).w3 t ∧ (∀ k, k ≠ r → t.part.route k = s.part.route k) ∧
      s.part.keepsBut [.mirrors, .routes] t.part ∧
      ∀ a, a ≠ routeOffset r.val 3 → t.part.mirror a = s.part.mirror a

/-- POINT_ENTRY_WRITE: the table of R43 with the capture of R44 to R46. -/
def Obligations.PointWriteCapturesByTable : Prop :=
  ∀ (i : Fin 256) (w : Word) (s : State), s.part.mode.serving = true → s.writable → s.part.straps.stall = false →
    s.part.mirrors.waitsSince = none →
    Answers (.pointEntryWrite i w) s fun t =>
      let p : PointNo := i.castLE (by omega)
      let old := s.part.mirror (pointOffset i.val 0)
      s.stores (pointOffset i.val 0) w t ∧
      (∀ a, t.part.mirror a = if a = pointOffset i.val 0 then w else s.part.mirror a) ∧
      s.part.keepsBut [.bus, .notice, .mirrors, .points] t.part ∧ s.part.keepsOtherShadows p t.part ∧
      if enabledField old = true ∧ enabledField w = true then
        if stateCodeField old = stateCodeField w then t.part.points = s.part.points
        else if s.part.points.overrun = true then
          (t.part.shadow p).owed = true ∧ t.part.points.fifo = s.part.points.fifo ∧
          t.part.points.work = s.part.points.work ∧ t.part.points.overrun = true
        else if s.part.points.fifo.length < Config.fifoPlaces then
          t.part.points = { s.part.points with
            fifo := s.part.points.fifo ++ [{ point := p, code := stateCodeField w }] }
        else
          (t.part.shadow p).owed = true ∧ t.part.points.fifo = s.part.points.fifo ∧
          t.part.points.work = s.part.points.work ++ [.condition 262 true] ∧ t.part.points.overrun = true ∧
          t.part.points.latch = true ∧
          (s.part.causeEnable.getLsbD Cause.overrun.index = true →
            t.part.notice.causes.getLsbD Cause.overrun.index = true) ∧
          (s.part.notice.heads.isSome = true →
            t.part.bus.logged = s.part.bus.logged ++ [LogRecord.stamp s.part.now
              { kind := .overrun, point := BitVec.ofNat 9 i.val, code := (stateCodeField w).setWidth 10 }])
      else if enabledField old = true then
        t.part.points = { s.part.points with work := s.part.points.work ++ [.disable p] }
      else if enabledField w = true then
        t.part.points = { s.part.points with work := s.part.points.work ++ [.enable p] }
      else t.part.points = s.part.points

/-! ### The Point Engine -/

/-- POINT_DISABLE and POINT_ENABLE. -/
def Obligations.DisableWithdrawsAndEnableOwes : Prop :=
  (∀ (i : PointNo) (s : State), s.part.mode.serving = true → s.part.nextIs (.disable i) → s.part.queue.sound →
    s.part.mirrors.waitsSince = none →
    Answers .pointDisable s fun t =>
      s.keepsBut [.bus, .notice, .points, .queue] t ∧ s.part.withdrawn i t.part ∧
      t.part.points.fifo = s.part.points.fifo.filter (·.point ≠ i) ∧
      t.part.points.overrun = (s.part.points.overrun && !(s.part.points.fifo.filter (·.point ≠ i)).isEmpty) ∧
      t.part.points.work = (s.part.queue.chain i).map (fun _ => .notice .withdrawal i) ∧
      (t.part.shadow i).owed = false ∧ (t.part.shadow i).status = t.part.derivedStatus i ∧
      (s.part.pointEnabled i = false → (t.part.shadow i).status = 5) ∧
      (t.part.shadow i).intended = (s.part.shadow i).intended ∧
      (t.part.shadow i).delivered = (s.part.shadow i).delivered ∧ s.part.keepsOtherShadows i t.part) ∧
  ∀ (i : PointNo) (s : State), s.part.mode.serving = true → s.part.nextIs (.enable i) →
    Answers .pointEnable s fun t =>
      s.quietBut [.points] t ∧ t.part.points.fifo = s.part.points.fifo ∧ t.part.points.work = [] ∧
      (t.part.shadow i).owed = decide (i.val < 263) ∧ (t.part.shadow i).status = t.part.derivedStatus i ∧
      (t.part.shadow i).delivered = (s.part.shadow i).delivered ∧
      (i.val < 256 → (t.part.shadow i).processed = s.part.stateCode i ∧
        (t.part.shadow i).intended = (s.part.translated i (s.part.stateCode i)).getD Intended.none) ∧
      (256 ≤ i.val → i.val < 263 →
        (t.part.shadow i).intended = s.part.virtualIntended i (s.part.condition i)) ∧
      s.part.keepsOtherShadows i t.part

/-- ISOLATE, DEISOLATE and RESCAN on a selected point. That the lock is judged when the engine takes the write is the model's
choice (log 33). -/
def Obligations.GroupActionsOnASelectedPoint : Prop :=
  ∀ (i : PointNo) (s : State), s.part.mode.serving = true → s.part.queue.sound →
    (s.part.nextIs (.group .isolate [i]) →
      Answers .isolate s fun t =>
        s.keepsBut [.bus, .notice, .points, .queue] t ∧ s.part.keepsOtherShadows i t.part ∧
        t.part.points.fifo = s.part.points.fifo ∧
        if s.part.classLocked (s.part.pointClass i) = true ∨ (s.part.shadow i).isolated = true then
          t.part.shadow i = s.part.shadow i ∧ t.part.queue = s.part.queue ∧ t.part.points.work = []
        else
          (t.part.shadow i).isolated = true ∧ (t.part.shadow i).owed = false ∧
          (t.part.shadow i).status = t.part.derivedStatus i ∧ s.part.withdrawn i t.part ∧
          t.part.points.work = (s.part.queue.chain i).map (fun _ => .notice .withdrawal i)) ∧
    (s.part.nextIs (.group .deisolate [i]) →
      Answers .deisolate s fun t =>
        s.quietBut [.points] t ∧ s.part.keepsOtherShadows i t.part ∧ t.part.points.work = [] ∧
        t.part.points.fifo = s.part.points.fifo ∧ (t.part.shadow i).isolated = false ∧
        (t.part.shadow i).owed =
          (if s.part.pointEnabled i then decide (i.val < 263) else (s.part.shadow i).owed) ∧
        (s.part.pointEnabled i = true → (t.part.shadow i).status = t.part.derivedStatus i) ∧
        (t.part.shadow i).intended = (s.part.shadow i).intended) ∧
    (s.part.nextIs (.group .rescan [i]) →
      Answers .rescan s fun t =>
        s.quietBut [.points] t ∧ s.part.keepsOtherShadows i t.part ∧ t.part.points.work = [] ∧
        t.part.points.fifo = s.part.points.fifo ∧
        if s.part.pointEnabled i = true ∧ (s.part.shadow i).isolated = false then
          (t.part.shadow i).owed = decide (i.val < 263) ∧ (t.part.shadow i).status = t.part.derivedStatus i
        else t.part.shadow i = s.part.shadow i)

/-- FIFO_ENTRY_TAKEN translates the oldest entry, and makes the request intended calls for. No other work waits
here, so the model's order of FIFO entries and other work (log 9) does not matter. -/
def Obligations.FifoEntryIsTranslatedAndReported : Prop :=
  ∀ (c : Capture) (rest : List Capture) (s : State), s.part.mode.serving = true → s.part.engineIdle →
    s.part.points.fifo = c :: rest → s.part.mirrors.waitsSince = none → s.part.queue.sound →
    Answers .fifoEntryTaken s fun t =>
      s.keepsBut [.bus, .notice, .points, .queue, .arbiter] t ∧ t.part.points.fifo = rest ∧
      t.part.points.overrun = (s.part.points.overrun && !rest.isEmpty) ∧ s.part.keepsOtherShadows c.point t.part ∧
      (t.part.shadow c.point).processed = c.code ∧
      (t.part.shadow c.point).delivered = (s.part.shadow c.point).delivered ∧
      match s.part.translated c.point c.code with
      | none => (t.part.shadow c.point).intended = (s.part.shadow c.point).intended ∧ t.part.queue = s.part.queue
      | some n => (t.part.shadow c.point).intended = n ∧
        ((s.part.shadow c.point).isolated = true → t.part.queue = s.part.queue) ∧
        (n.sense = 1 → s.part.committed c.point = (1, n.code) → t.part.queue = s.part.queue) ∧
        (n.sense = 2 → (s.part.committed c.point).1 ≠ 1 → t.part.queue = s.part.queue) ∧
        ((s.part.shadow c.point).isolated = false →
          (n.sense = 1 → s.part.committed c.point ≠ (1, n.code) →
            s.part.requested
              { point := c.point, sense := .active, code := n.code, priority := n.priority,
                route := n.route, unrouted := n.unrouted } [] t.part) ∧
          (n.sense = 2 → (s.part.committed c.point).1 = 1 →
            s.part.requested
              { point := c.point, sense := .normal, code := (s.part.committed c.point).2,
                priority := n.priority, route := n.route, unrouted := n.unrouted } [] t.part))

/-- OWED_SWEEP_STEP reconciles the next owed point and moves on. -/
def Obligations.SweepReconcilesTheNextOwedPoint : Prop :=
  ∀ (i : PointNo) (s : State), s.part.mode.serving = true → s.part.engineIdle → s.part.points.fifo = [] →
    s.part.queue.count < Config.queuePlaces → (s.part.shadow i).owed = true → i.val < 263 → s.part.queue.sound →
    ((s.part.points.sweepPos ≤ i.val ∧
        ∀ j : PointNo, s.part.points.sweepPos ≤ j.val → j < i → (s.part.shadow j).owed = false) ∨
      ((∀ j : PointNo, s.part.points.sweepPos ≤ j.val → (s.part.shadow j).owed = false) ∧
        ∀ j : PointNo, j < i → (s.part.shadow j).owed = false)) →
    Answers .owedSweepStep s fun t =>
      s.keepsBut [.bus, .notice, .points, .queue, .arbiter] t ∧ s.part.keepsOtherShadows i t.part ∧
      (t.part.shadow i).owed = false ∧ (t.part.shadow i).status = t.part.derivedStatus i ∧
      t.part.points.sweepPos = (if i.val = 262 then 0 else i.val + 1) ∧ t.part.points.fifo = [] ∧
      (s.part.pointEnabled i = false ∨ (s.part.shadow i).isolated = true →
        t.part.queue = s.part.queue ∧ (t.part.shadow i).intended = (s.part.shadow i).intended) ∧
      (s.part.pointEnabled i = true → (s.part.shadow i).isolated = false →
        (i.val < 256 → (t.part.shadow i).processed = s.part.stateCode i ∧
          (t.part.shadow i).intended =
            (s.part.translated i (s.part.stateCode i)).getD (s.part.shadow i).intended) ∧
        (256 ≤ i.val → (t.part.shadow i).intended = s.part.virtualIntended i (s.part.condition i)) ∧
        let n := (t.part.shadow i).intended
        (n.sense = 1 → s.part.committed i ≠ (1, n.code) →
          s.part.requested
            { point := i, sense := .active, code := n.code, priority := n.priority, route := n.route,
              unrouted := n.unrouted } [] t.part) ∧
        (n.sense = 2 → (s.part.committed i).1 = 1 →
          s.part.requested
            { point := i, sense := .normal, code := (s.part.committed i).2, priority := n.priority, route := n.route,
              unrouted := n.unrouted } [] t.part) ∧
        (n.sense = 0 ∨ (n.sense = 1 ∧ s.part.committed i = (1, n.code)) ∨
            (n.sense = 2 ∧ (s.part.committed i).1 ≠ 1) → t.part.queue = s.part.queue))

/-- CONDITION_CHANGE sets intended of a virtual point and requests its report; TEST_REQUEST requests a TEST report. That the
change of 262 at the beginning of OVERRUN is what makes the latch ACTIVE again after a CLEAR TROUBLE is the model's reading
(log 40). -/
def Obligations.ConditionsAndTestsBecomeRequests : Prop :=
  (∀ (i : PointNo) (active : Bool) (s : State), s.part.mode.serving = true → s.part.nextIs (.condition i active) →
    256 ≤ i.val → i.val < 263 → s.part.queue.sound →
    Answers .conditionChange s fun t =>
      s.keepsBut [.bus, .notice, .points, .queue, .arbiter] t ∧ s.part.keepsOtherShadows i t.part ∧
      (t.part.shadow i).intended = s.part.virtualIntended i active ∧ t.part.points.fifo = s.part.points.fifo ∧
      t.part.points.overrun = s.part.points.overrun ∧
      t.part.points.latch = (if i.val = 262 then active else s.part.points.latch) ∧
      (s.part.pointEnabled i = false → t.part.queue = s.part.queue) ∧
      (s.part.pointEnabled i = true →
        let code := s.part.virtualCode (virtualNo i)
        let choice := s.part.chooseRoute (s.part.virtualRoute (virtualNo i))
        (active = true → s.part.committed i = (1, code) → t.part.queue = s.part.queue) ∧
        (active = false → (s.part.committed i).1 ≠ 1 → t.part.queue = s.part.queue) ∧
        (active = true → s.part.committed i ≠ (1, code) →
          s.part.requested
            { point := i, sense := .active, code, priority := s.part.virtualPriority (virtualNo i),
              route := choice.1, unrouted := choice.2 } [] t.part) ∧
        (active = false → (s.part.committed i).1 = 1 →
          s.part.requested
            { point := i, sense := .normal, code := (s.part.committed i).2,
              priority := s.part.virtualPriority (virtualNo i), route := choice.1, unrouted := choice.2 } [] t.part))) ∧
  ∀ (r : RouteNo) (command : Bool) (s : State), s.part.mode.serving = true → s.part.nextIs (.test r command) →
    s.part.queue.sound →
    Answers .testRequest s fun t =>
      let done := match command, s.part.notice.inProgress with
        | true, some c => [commandLog s.part c.code c.tag .done]
        | _, _ => []
      s.keepsBut [.bus, .notice, .points, .queue, .arbiter] t ∧ t.part.points.fifo = s.part.points.fifo ∧
      s.part.keepsOtherShadows 263 t.part ∧
      t.part.shadow 263 = { s.part.shadow 263 with status := (t.part.shadow 263).status } ∧
      (s.part.virtualEnabled 7 = false → t.part.queue = s.part.queue ∧ s.part.logsMade done t.part) ∧
      (s.part.virtualEnabled 7 = true →
        s.part.requested
          { point := 263, sense := .test, code := s.part.virtualCode 7,
            priority := s.part.virtualPriority 7, route := (s.part.chooseRoute r).1,
            unrouted := (s.part.chooseRoute r).2 } done t.part) ∧
      (∀ c, command = true → s.part.notice.inProgress = some c →
        t.part.notice.inProgress = none ∧ t.part.shows c.tag .done) ∧
      (command = false → t.part.notice.inProgress = s.part.notice.inProgress)

/-- DELIVERY_NOTICE sets delivered, and the addresses of the delivery enter one at a time, those it carries behind the point's
own, the model's reading (log 11); QUEUE_NOTICE brings the point up to date. -/
def Obligations.NoticesBringThePointUpToDate : Prop :=
  (∀ (i : PointNo) (sense : BitVec 2) (code : BitVec 10) (fold : BitVec 4) (words : List Nat) (s : State),
    s.part.mode.serving = true → s.part.nextIs (.delivery i sense code fold words) →
    Answers .deliveryNotice s fun t =>
      s.quietBut [.points] t ∧ s.part.keepsOtherShadows i t.part ∧ t.part.points.work = [] ∧
      t.part.points.fifo = s.part.points.fifo ∧ (t.part.shadow i).status = t.part.derivedStatus i ∧
      (t.part.shadow i).intended = (s.part.shadow i).intended ∧
      (t.part.shadow i).isolated = (s.part.shadow i).isolated ∧ (t.part.shadow i).owed = (s.part.shadow i).owed ∧
      (t.part.shadow i).delivered =
        (if sense = 1 ∨ sense = 2 then { sense, fold, code } else (s.part.shadow i).delivered) ∧
      (sense = 1 ∨ sense = 2 → s.part.bus.wbWait = [] →
        s.part.bus.wbq.length + 2 + words.length ≤ Config.writeBackPlaces →
        statusOffset i ∈ t.part.bus.wbq ∧ codeOffset i ∈ t.part.bus.wbq ∧ ∀ a ∈ words, a ∈ t.part.bus.wbq) ∧
      (sense = 1 ∨ sense = 2 → s.part.bus.wbWait = [] → s.part.bus.wbq.length = Config.writeBackPlaces →
        (statusOffset i :: codeOffset i :: words).Nodup →
        (∀ a ∈ statusOffset i :: codeOffset i :: words, a ∉ s.part.bus.wbq) →
        t.part.bus.wbWait.head?.map (fun w => (w.owner, w.first, w.later)) =
          some (.pointEngine, statusOffset i, codeOffset i :: words))) ∧
  ∀ (k : NoticeKind) (i : PointNo) (s : State), s.part.mode.serving = true → s.part.nextIs (.notice k i) →
    s.part.queue.sound →
    Answers .queueNotice s fun t =>
      s.keepsBut [.bus, .notice, .points, .queue] t ∧ s.part.keepsOtherShadows i t.part ∧
      t.part.points.fifo = s.part.points.fifo ∧ (t.part.shadow i).status = t.part.derivedStatus i ∧
      (t.part.shadow i).intended = (s.part.shadow i).intended ∧
      (t.part.shadow i).delivered = (s.part.shadow i).delivered ∧
      (t.part.shadow i).owed = (if k = .eviction then decide (i.val < 263) else (s.part.shadow i).owed) ∧
      if (k = .returned ∨ k = .exhaustion) ∧
          ((s.part.shadow i).isolated = true ∨ s.part.pointEnabled i = false) then
        s.part.withdrawn i t.part
      else t.part.queue = s.part.queue

/-! ### The Report Queue and the Line Arbiter -/

/-- RETRY_TIME_PASSED removes the retry time the queue clock has reached and tells the arbiter (R82). HOLD_EXPIRY: the HELD
record becomes WAITING; a record no longer HELD is left as it is (R83). Either one sent before the queue clock has reached
its time changes nothing, the model's choice (log 7). -/
def Obligations.RetryAndHoldTimesFreeTheRecord : Prop :=
  (∀ (r : Record) (x : Nat) (s : State), s.part.mode.serving = true → s.part.queue.sound →
    r ∈ s.part.queue.records → r.state = .waiting → r.retry = some x →
    (x ≤ s.part.queue.clock → Answers (.retryTimePassed r.slot) s fun t =>
      s.quietBut [.queue, .arbiter] t ∧ t.part.arbiter.decisionPending = true ∧
      t.part.arbiter.offers = s.part.arbiter.offers ∧
      t.part.queue = { s.part.queue with
        records := s.part.queue.records.map (fun y => if y = r then { r with retry := none } else y) }) ∧
    (s.part.queue.clock < x → s.part.troubleCurrent → Answers (.retryTimePassed r.slot) s fun t => t = s)) ∧
  (∀ (r : Record) (x : Nat) (s : State), s.part.mode.serving = true → s.part.queue.sound →
    r ∈ s.part.queue.records → r.state = .held → r.holdUntil = some x →
    (x ≤ s.part.queue.clock → Answers (.holdExpiry r.slot) s fun t =>
      s.quietBut [.points, .queue, .arbiter] t ∧
      t.part.queue = { s.part.queue with records := s.part.queue.records.map (fun y =>
        if y = r then { r with state := .waiting, holdUntil := none, retry := none } else y) } ∧
      t.part.queue.held + 1 = s.part.queue.held ∧
      t.part.points = { s.part.points with work := s.part.points.work ++ [.notice .release r.point] } ∧
      t.part.arbiter.offers = s.part.arbiter.offers ∧ t.part.arbiter.decisionPending = true) ∧
    (s.part.queue.clock < x → s.part.troubleCurrent → Answers (.holdExpiry r.slot) s fun t => t = s)) ∧
  ∀ (r : Record) (s : State), s.part.mode.serving = true → s.part.queue.sound → s.part.troubleCurrent →
    r ∈ s.part.queue.records → r.state ≠ .held → Answers (.holdExpiry r.slot) s fun t => t = s

/-- What makes a record eligible (R125, R126; point order is in DecisionsFollowTheServiceOrder). DECISION clears the mark;
without an eligible record it makes no offer; the one eligible record finds the lowest-numbered idle line its
destination allows, else the lowest-numbered line it may barge. -/
def Obligations.DecisionOffersTheFirstLine : Prop :=
  (∀ s : State, s.part.mode.serving = true → s.part.arbiter.decisionPending = true →
    (∀ r ∈ s.part.queue.records, s.part.eligible r = false) → s.part.troubleCurrent →
    Answers .decision s fun t =>
      s.keepsBut [.arbiter] t ∧ t.part.arbiter = { s.part.arbiter with decisionPending := false }) ∧
  (∀ s : State, s.part.mode = .stopped ∨ s.part.mirrors.reload.isSome = true →
    ∀ r, s.part.eligible r = false) ∧
  (∀ (r : Record) (s : State), s.part.eligible r = true ↔
    s.part.mode = .running ∧ s.part.mirrors.reload = none ∧ r.state = .waiting ∧
    (∀ (n : LineNo) o, s.part.arbiter.offers[n] = some o → r.id ∉ o.records) ∧ r.unrouted = false ∧
    (s.part.routeEnabled r.route = true ∧ s.part.destEnabled (s.part.primaryDest r.route) = true ∧
      s.part.mirrors.valid[s.part.primaryDest r.route] = true) ∧
    ¬((s.part.route r.route).spent = true ∧ s.part.budgetHold r.route = true) ∧ r.retry = none ∧
    (let d := match r.leg, s.part.backupDest r.route with
      | .backup, some b => b
      | .backup, none | .primary, _ => s.part.primaryDest r.route
    s.part.destEnabled d = true ∧ s.part.mirrors.valid[d] = true ∧
      ∃ n : LineNo, s.part.destAllows d n = true ∧ s.part.lineEnabled n = true ∧ (s.part.line n).state ≠ .fault) ∧
    (s.part.time.mainsActive = true → r.priority.val ≤ s.part.batteryThreshold ∧ r.sense ≠ .test)) ∧
  ∀ (r : Record) (n : LineNo) (s : State), s.part.mode = .running → s.part.arbiter.decisionPending = true →
    s.part.queue.records = [r] → s.part.eligible r = true → s.part.troubleCurrent →
    (∀ m, (s.part.line m).call = none) → (∀ m : LineNo, s.part.arbiter.offers[m] = none) →
    s.part.destAllows (s.part.resolve r.route r.leg) n = true →
    ((s.part.line n).state = .idle →
      (∀ m < n, s.part.destAllows (s.part.resolve r.route r.leg) m = true → (s.part.line m).state ≠ .idle) →
      Answers .decision s fun t =>
        s.keepsBut [.arbiter] t ∧ t.part.arbiter.decisionPending = false ∧
        t.part.arbiter.offers[n] = some
          { kind := .idleGrant, records := [r.id], dest := s.part.resolve r.route r.leg, priority := r.priority } ∧
        ∀ m : LineNo, m ≠ n → t.part.arbiter.offers[m] = none) ∧
    ((s.part.line n).state = .office → (s.part.bargeThreshold n).any (r.priority.val ≤ ·) = true →
      (∀ m, s.part.destAllows (s.part.resolve r.route r.leg) m = true → (s.part.line m).state ≠ .idle) →
      (∀ m < n, s.part.destAllows (s.part.resolve r.route r.leg) m = true → (s.part.line m).state = .office →
        (s.part.bargeThreshold m).any (r.priority.val ≤ ·) = false) →
      Answers .decision s fun t =>
        s.keepsBut [.arbiter] t ∧ t.part.arbiter.decisionPending = false ∧
        t.part.arbiter.offers[n] = some
          { kind := .bargeGrant, records := [r.id], dest := s.part.resolve r.route r.leg, priority := r.priority } ∧
        ∀ m : LineNo, m ≠ n → t.part.arbiter.offers[m] = none)

/-- DECISION judges the eligible records in service order: the first joins the call of the earliest formation mark, else it
takes its batch to the line it finds, else it waits, and the next is judged. Offers in flight stay. -/
def Obligations.DecisionsFollowTheServiceOrder : Prop :=
  ∀ (r : Record) (rest : List Record) (s : State), s.part.mode.serving = true → s.part.arbiter.decisionPending = true →
    s.part.troubleCurrent → s.part.queue.sound → s.part.inService (r :: rest) →
    let dest (x : Record) : DestNo := s.part.resolve x.route x.leg
    (Answers .decision s fun t =>
      s.keepsBut [.arbiter] t ∧ t.part.arbiter.decisionPending = false ∧
      t.part.arbiter.formations = s.part.arbiter.formations ∧
      ∀ (n : LineNo) o, s.part.arbiter.offers[n] = some o → t.part.arbiter.offers[n] = some o) ∧
    (∀ n c, s.part.mayJoin r n c → (∀ m b, m ≠ n → s.part.mayJoin r m b → c.mark < b.mark) →
      Answers .decision s fun t => ∃ o, t.part.arbiter.offers[n] = some o ∧ o.kind = .join ∧ o.dest = dest r ∧
        o.priority = r.priority ∧ o.records.head? = some r.id ∧ c.reports.length + o.records.length ≤ 4 ∧
        ∀ k ∈ o.records, ∃ x ∈ r :: rest, x.id = k ∧ dest x = dest r) ∧
    ((∀ n c, ¬ s.part.mayJoin r n c) → s.part.queue.firstOfPoint r →
      (∀ n kind, s.part.finds (dest r) r.priority n kind →
        (∀ x ∈ rest, dest x = dest r → ∀ e ∈ s.part.queue.records, e.point = x.point → e.id < x.id →
          e ∈ r :: rest ∧ dest e = dest r ∧ e.priority ≤ x.priority) →
        Answers .decision s fun t => t.part.arbiter.offers[n] = some
          { kind, records := (((r :: rest).filter fun x => decide (dest x = dest r)).take 4).map (·.id), dest := dest r
            priority := r.priority }) ∧
      (s.part.findsNone (dest r) r.priority →
        Answers .decision s fun t => ∀ (n : LineNo) o, t.part.arbiter.offers[n] = some o → r.id ∉ o.records) ∧
      ∀ x, rest = [x] → (∀ n c, ¬ s.part.mayJoin x n c) → s.part.queue.firstOfPoint x →
        (s.part.findsNone (dest r) r.priority → ∀ n kind, s.part.finds (dest x) x.priority n kind →
          Answers .decision s fun t => t.part.arbiter.offers[n] = some
            { kind, records := [x.id], dest := dest x, priority := x.priority }) ∧
        ∀ n m : LineNo, s.part.finds (dest r) r.priority n .idleGrant → dest x ≠ dest r → m ≠ n →
          s.part.idleFor (dest x) m → (∀ k < m, k ≠ n → ¬ s.part.idleFor (dest x) k) →
          Answers .decision s fun t => t.part.arbiter.offers[m] = some
            { kind := .idleGrant, records := [x.id], dest := dest x, priority := x.priority })

/-- GRANT_OFFER forms the call with the break of R114, or is refused. The formation mark as a count is the model's own
(log 19). It holds also of an entry that is no longer valid: that R134's tests are the only ones, and what is copied of such
an entry, is log 18, DEDUCED. -/
def Obligations.GrantFormsTheCallOrIsRefused : Prop :=
  ∀ (n : LineNo) (o : Offer) (r : Record) (s : State), s.part.mode.serving = true → s.part.queue.sound →
    s.part.arbiter.offers[n] = some o → (o.kind = .idleGrant ∨ o.kind = .bargeGrant) → o.records = [r.id] →
    r ∈ s.part.queue.records → r.state = .waiting → r.unrouted = false →
    s.part.resolve r.route r.leg = o.dest →
    Answers (.grantOffer n) s fun t =>
      s.quietBut [.points, .queue, .lines, .arbiter] t ∧ t.part.arbiter.offers[n] = none ∧
      t.part.arbiter.decisionPending = true ∧ s.part.keepsOtherLines n t.part ∧
      if (s.part.line n).state = .idle ∨ ((s.part.line n).state = .office ∧ o.kind = .bargeGrant) then
        (t.part.line n).state = .breaking ∧
        (t.part.line n).timer = some (if (s.part.line n).state = .idle then 500 else 2000) ∧
        (t.part.line n).debounce = none ∧
        t.part.seize n = true ∧ t.part.hook n = false ∧
        (∃ c, (t.part.line n).call = some c ∧ c.dest = o.dest ∧ c.account = s.part.account o.dest ∧
          c.dial = (s.part.dialCodes o.dest).filterMap dialSymbol ∧ c.reports = [r.slot] ∧
          c.priority = r.priority ∧ c.mark = s.part.arbiter.formations ∧ c.endMark = false ∧ c.phase = .none ∧
          c.current = none ∧ c.sequence = 0 ∧ c.sends = 0 ∧ c.delivered = 0) ∧
        t.part.queue = { s.part.queue with records := t.part.queue.records } ∧
        t.part.queue.records = s.part.queue.records.map (fun y =>
          if y = r then { r with state := .assigned, call := some { line := n, position := 1 } } else y) ∧
        t.part.points = { s.part.points with work := t.part.points.work } ∧
        t.part.points.work = s.part.points.work ++ [.notice .assignment r.point]
      else
        t.part.line n = s.part.line n ∧ t.part.queue = s.part.queue ∧ t.part.points = s.part.points

/-- PREEMPTION_OFFER ends the victim PREEMPTED and forms the new call in a break of 2 s, or is refused. It holds also of
an entry that is no longer valid (log 18, DEDUCED). -/
def Obligations.PreemptionReplacesTheVictim : Prop :=
  ∀ (n : LineNo) (o : Offer) (c : Call) (x r : Record) (s : State), s.part.mode.serving = true →
    s.part.arbiter.offers[n] = some o → o.kind = .preemption → o.records = [r.id] →
    s.part.queue.records = [x, r] → x.id < r.id → x.slot ≠ r.slot → x.point ≠ r.point → r.state = .waiting →
    r.unrouted = false → s.part.resolve r.route r.leg = o.dest →
    (s.part.line n).call = some c → c.undelivered = [x.slot] →
    Answers (.preemptionOffer n) s fun t =>
      s.keepsBut [.bus, .notice, .points, .queue, .lines, .arbiter] t ∧ s.part.keepsOtherLines n t.part ∧
      t.part.arbiter.offers[n] = none ∧ t.part.arbiter.decisionPending = true ∧
      if (s.part.line n).state.preemptible = true then
        (t.part.line n).state = .breaking ∧ (t.part.line n).timer = some 2000 ∧ t.part.seize n = true ∧
        t.part.hook n = false ∧ (t.part.line n).disablePending = (s.part.line n).disablePending ∧
        (∃ d, (t.part.line n).call = some d ∧ d.dest = o.dest ∧ d.account = s.part.account o.dest ∧
          d.dial = (s.part.dialCodes o.dest).filterMap dialSymbol ∧ d.reports = [r.slot] ∧ d.priority = r.priority) ∧
        t.part.queue.records = [{ x with state := .waiting, call := none },
          { r with state := .assigned, call := some { line := n, position := 1 } }] ∧
        (s.part.notice.heads.isSome = true → t.part.bus.logged = s.part.bus.logged ++
          [LogRecord.stamp s.part.now (LogRecord.ofCall n c.dest (x.log .preempted))])
      else t.part.line n = s.part.line n ∧ t.part.queue = s.part.queue

/-- JOIN_OFFER adds the record at the tail of the call, or is refused. -/
def Obligations.JoinAddsTheReportAtTheTail : Prop :=
  ∀ (n : LineNo) (o : Offer) (c : Call) (r : Record) (s : State), s.part.mode.serving = true → s.part.queue.sound →
    s.part.arbiter.offers[n] = some o → o.kind = .join → o.records = [r.id] → r ∈ s.part.queue.records →
    r.state = .waiting → r.unrouted = false → s.part.resolve r.route r.leg = o.dest →
    (s.part.line n).call = some c → c.dest = o.dest →
    Answers (.joinOffer n) s fun t =>
      s.quietBut [.points, .queue, .lines, .arbiter] t ∧ s.part.keepsOtherLines n t.part ∧
      t.part.arbiter.offers[n] = none ∧
      if c.reports.length < Config.callPlaces ∧ c.endMark = false then
        t.part.line n = { s.part.line n with call := some { c with
          reports := c.reports ++ [r.slot], priority := min c.priority r.priority } } ∧
        t.part.queue.records = s.part.queue.records.map (fun y => if y = r then
          { r with state := .assigned, call := some { line := n, position := c.reports.length + 1 } } else y) ∧
        t.part.points = { s.part.points with work := s.part.points.work ++ [.notice .assignment r.point] }
      else
        t.part.line n = s.part.line n ∧ t.part.queue = s.part.queue ∧ t.part.arbiter.decisionPending = true

/-! ### Lines and calls -/

/-- OFFICE_SENSE_CHANGE, OFFICE_USE_BEGINS, OFFICE_USE_ENDS and RELEASE_GUARD_END: the office sense and the states of a line
without a call. That a command sent before its time changes nothing is the model's choice (log 7). -/
def Obligations.OfficeSenseAndGuardSetTheLineState : Prop :=
  (∀ (n : LineNo) (asserted : Bool) (s : State), Answers (.officeSenseChange n asserted) s fun t =>
    s.keepsBut [.lines] t ∧ s.part.keepsOtherLines n t.part ∧
    t.part.line n = { s.part.line n with officeSense := asserted, debounce := (t.part.line n).debounce } ∧
    ((s.part.line n).officeSense = asserted → t = s) ∧
    ((s.part.line n).officeSense ≠ asserted → s.part.mode.live = true →
      (t.part.line n).debounce =
        if ((s.part.line n).state = .idle ∧ asserted = true) ∨ ((s.part.line n).state = .office ∧ asserted = false)
        then some 0 else none)) ∧
  (∀ (n : LineNo) (k : Nat) (s : State), s.part.mode.live = true → (s.part.line n).debounce = some k →
    ((s.part.line n).state = .idle → (s.part.line n).officeSense = true → 200 ≤ k →
      Answers (.officeUseBegins n) s fun t =>
        s.lineStep n t ∧ (t.part.line n).state = .office ∧ (t.part.line n).debounce = none ∧
        t.part.arbiter.decisionPending = true) ∧
    ((s.part.line n).state = .office → (s.part.line n).officeSense = false → 500 ≤ k →
      Answers (.officeUseEnds n) s fun t =>
        s.lineStep n t ∧ (t.part.line n).state = .idle ∧ (t.part.line n).debounce = none ∧
        t.part.arbiter.decisionPending = true) ∧
    (k < 200 → s.part.troubleCurrent → Answers (.officeUseBegins n) s fun t => t = s) ∧
    (k < 500 → s.part.troubleCurrent → Answers (.officeUseEnds n) s fun t => t = s)) ∧
  ∀ (n : LineNo) (s : State), s.part.mode.serving = true → (s.part.line n).state = .release →
    (s.part.line n).timer = some 0 →
    ((s.part.line n).disablePending = true → Answers (.releaseGuardEnd n) s fun t =>
      s.lineStep n t ∧ (t.part.line n).state = .disabled ∧ (t.part.line n).disablePending = false) ∧
    ((s.part.line n).disablePending = false → (s.part.line n).lossExpired = true →
      Answers (.releaseGuardEnd n) s fun t =>
        s.keepsBut [.bus, .notice, .points, .lines, .arbiter] t ∧ s.part.keepsOtherLines n t.part ∧
        (t.part.line n).state = .fault ∧ (t.part.line n).presence = some 0 ∧
        t.part.points.work = s.part.points.work ++ [.condition (faultPoint n) true]) ∧
    ((s.part.line n).disablePending = false → (s.part.line n).lossExpired = false →
      Answers (.releaseGuardEnd n) s fun t =>
        s.lineStep n t ∧ t.part.seize n = false ∧
        (t.part.line n).state = if (s.part.line n).officeSense then .office else .idle)

/-- LOOP_SENSE_CHANGE, LOOP_LOSS_EXPIRY and PRESENCE_TIMER_EXPIRY. That an expiry sent before its 10 s changes nothing (log 7),
and that a count of 10 s carried from off-hook expires in RELEASE (log 36), are the model's choices. -/
def Obligations.LoopLossPutsALineInFault : Prop :=
  (∀ (n : LineNo) (present : Bool) (s : State), Answers (.loopSenseChange n present) s fun t =>
    s.keepsBut [.lines] t ∧ s.part.keepsOtherLines n t.part ∧
    t.part.line n = { s.part.line n with
      loopSense := present, loopLoss := (t.part.line n).loopLoss, currentLoss := (t.part.line n).currentLoss,
      presence := (t.part.line n).presence } ∧
    ((s.part.line n).loopSense = present → t = s) ∧
    ((s.part.line n).loopSense ≠ present → s.part.mode.live = true →
      (t.part.line n).loopLoss =
        (if present = false ∧ (s.part.line n).state ∉ ([.disabled, .fault] : List LineState) then some 0 else none) ∧
      (t.part.line n).currentLoss = (if present = false ∧ s.part.hook n = true then some 0 else none) ∧
      (t.part.line n).presence = (if (s.part.line n).state = .fault then some 0 else none))) ∧
  (∀ (n : LineNo) (k : Nat) (s : State), s.part.mode.serving = true → (s.part.line n).loopLoss = some k →
    (k < 10000 → s.part.troubleCurrent → Answers (.loopLossExpiry n) s fun t => t = s) ∧
    (10000 ≤ k →
      ((s.part.line n).state = .idle ∨ (s.part.line n).state = .office → Answers (.loopLossExpiry n) s fun t =>
        s.keepsBut [.bus, .notice, .points, .lines, .arbiter] t ∧ s.part.keepsOtherLines n t.part ∧
        (t.part.line n).state = .fault ∧ (t.part.line n).presence = some 0 ∧ (t.part.line n).debounce = none ∧
        (t.part.line n).loopLoss = none ∧ t.part.notice.trouble ≠ .off ∧ t.part.arbiter.decisionPending = true ∧
        t.part.points = { s.part.points with work := t.part.points.work } ∧
        t.part.points.work = s.part.points.work ++ [.condition (faultPoint n) true] ∧
        (s.part.causeEnable.getLsbD Cause.line.index = true →
          t.part.notice.causes.getLsbD Cause.line.index = true) ∧
        (s.part.notice.heads.isSome = true →
          t.part.bus.logged = s.part.bus.logged ++ [s.part.lineLog n .lineFault 1])) ∧
      (∀ c, (s.part.line n).state = .breaking → (s.part.line n).call = some c →
        Answers (.loopLossExpiry n) s fun t =>
          s.keepsBut [.bus, .notice, .points, .queue, .lines, .arbiter] t ∧ s.part.keepsOtherLines n t.part ∧
          (t.part.line n).call = none ∧ t.part.seize n = false ∧
          if (s.part.line n).disablePending = true then
            (t.part.line n).state = .disabled ∧ (t.part.line n).disablePending = false ∧
            s.failureCounted n c .noDialTone [] [] t
          else
            (t.part.line n).state = .fault ∧
            s.failureCounted n c .noDialTone [s.part.lineLog n .lineFault 1] [.condition (faultPoint n) true] t) ∧
      (s.part.hook n = true → s.part.troubleCurrent → Answers (.loopLossExpiry n) s fun t => t = s) ∧
      ((s.part.line n).state = .release → s.part.troubleCurrent → Answers (.loopLossExpiry n) s fun t =>
        s.keepsBut [.lines] t ∧ s.part.keepsOtherLines n t.part ∧
        t.part.line n = { s.part.line n with lossExpired := true }))) ∧
  ∀ (n : LineNo) (k : Nat) (s : State), s.part.mode.serving = true → (s.part.line n).state = .fault →
    (s.part.line n).loopSense = true → (s.part.line n).presence = some k →
    (k < 10000 → s.part.troubleCurrent → Answers (.presenceTimerExpiry n) s fun t => t = s) ∧
    (10000 ≤ k → Answers (.presenceTimerExpiry n) s fun t =>
      s.keepsBut [.bus, .notice, .points, .lines, .arbiter] t ∧ s.part.keepsOtherLines n t.part ∧
      (t.part.line n).state = (if (s.part.line n).officeSense then .office else .idle) ∧
      (t.part.line n).presence = none ∧ t.part.arbiter.decisionPending = true ∧
      t.part.points.work = s.part.points.work ++ [.condition (faultPoint n) false] ∧
      (s.part.causeEnable.getLsbD Cause.line.index = true →
        t.part.notice.causes.getLsbD Cause.line.index = true) ∧
      (s.part.notice.heads.isSome = true →
        t.part.bus.logged = s.part.bus.logged ++ [s.part.lineLog n .lineRestored 2]))

/-- BREAK_EXPIRY, DIAL_TONE, DIAL_TONE_WAIT_EXPIRY with blind dial, DIAL_SYMBOL_END and READY carry a call to LINKED, to
HANDSHAKE or, where the READY tone has already stopped, to TURNAROUND at once (R143). The end of an
interval sent before it has come changes nothing, the model's choice (log 7). -/
def Obligations.CallsAreDialledToTheHandshake : Prop :=
  (∀ (n : LineNo) (c : Call) (s : State), s.part.mode.live = true → (s.part.line n).call = some c →
    ((s.part.line n).state = .dialtone → Answers (.dialTone n) s fun t =>
      s.lineStep n t ∧ (t.part.line n).dialsFrom c 0) ∧
    ((s.part.line n).state = .dialing → c.dial[c.dialPos]? = some .wait → Answers (.dialTone n) s fun t =>
      s.lineStep n t ∧ (t.part.line n).dialsFrom c (c.dialPos + 1)) ∧
    ((s.part.line n).state = .ringback → Answers (.ready n) s fun t =>
      s.lineStep n t ∧ (t.part.line n).state = .linked ∧ t.part.arbiter.decisionPending = true ∧
      if (s.part.line n).detector.readySilence < 50 then
        (t.part.line n).timer = some 2000 ∧ (t.part.line n).call = some { c with phase := .handshake }
      else
        (t.part.line n).timer = some 100 ∧ (t.part.line n).call = some { c with phase := .turnaround }) ∧
    ((s.part.line n).timer = some 0 →
      ((s.part.line n).state = .breaking → Answers (.breakExpiry n) s fun t =>
        s.lineStep n t ∧ (t.part.line n).state = .dialtone ∧ (t.part.line n).timer = some 5000 ∧
        (t.part.line n).call = some c ∧ t.part.hook n = true) ∧
      ((s.part.line n).state = .dialtone → s.part.blindDial n = true → Answers (.dialToneWaitExpiry n) s fun t =>
        s.lineStep n t ∧ (t.part.line n).dialsFrom c 0) ∧
      ∀ d, (s.part.line n).state = .dialing → c.dial[c.dialPos]? = some d → d ≠ .wait →
        Answers (.dialSymbolEnd n) s fun t =>
          s.lineStep n t ∧ (t.part.line n).dialsFrom c (c.dialPos + 1))) ∧
  ∀ (n : LineNo) (s : State), s.part.troubleCurrent → (s.part.line n).timer ≠ some 0 →
    ∀ e ∈ ([.breakExpiry n, .dialToneWaitExpiry n, .dialSymbolEnd n, .waitSymbolExpiry n, .ringbackExpiry n,
        .handshakeExpiry n, .turnaroundEnd n, .burstSendingEnd n, .windowExpiry n, .endSymbolEnd n,
        .releaseGuardEnd n] : List Instr),
      Answers e s fun t => t = s

/-- READY_TONE_STOPPED, TURNAROUND_END, BURST_SENDING_END, REPEAT, WINDOW_EXPIRY and ACK carry the reports of a call. Which
addresses of the delivery wait with its notice is the model's reading (log 11). -/
def Obligations.BurstsAreSentAndAcknowledged : Prop :=
  ∀ (n : LineNo) (c : Call) (s : State), s.part.mode.serving = true → (s.part.line n).call = some c →
    (s.part.line n).state = .linked →
    (c.phase = .handshake → Answers (.readyToneStopped n) s fun t =>
      s.lineStep n t ∧
      t.part.line n = { s.part.line n with timer := some 100, call := some { c with phase := .turnaround } }) ∧
    (c.phase = .sending → (s.part.line n).timer = some 0 → Answers (.burstSendingEnd n) s fun t =>
      s.lineStep n t ∧
      t.part.line n = { s.part.line n with timer := some 2000, call := some { c with phase := .window } }) ∧
    (c.phase = .window → c.sends < 3 → Answers (.repeatToken n) s fun t =>
      s.lineStep n t ∧
      t.part.line n = { s.part.line n with timer := some 100, call := some { c with phase := .turnaround } }) ∧
    (c.phase = .window → c.sends < 3 → (s.part.line n).timer = some 0 →
      (s.part.line n).detector.burst.measuring = false → Answers (.windowExpiry n) s fun t =>
        s.lineStep n t ∧
        t.part.line n = { s.part.line n with timer := some 100, call := some { c with phase := .turnaround } }) ∧
    (c.phase = .window → (s.part.line n).detector.burst.measuring = true → s.part.troubleCurrent →
      Answers (.windowExpiry n) s fun t => t = s) ∧
    (c.phase = .turnaround → c.current = none → c.delivered = c.reports.length → (s.part.line n).timer = some 0 →
      Answers (.turnaroundEnd n) s fun t =>
        s.lineStep n t ∧ t.part.queue = s.part.queue ∧ (t.part.line n).state = .linked ∧
        (t.part.line n).timer = some 200 ∧
        (t.part.line n).call = some { c with phase := .ending, endMark := true, symbols := [15, 15] }) ∧
    ∀ r ∈ s.part.queue.records, s.part.queue.sound →
      (c.phase = .turnaround → c.current = some r.slot → c.sends < 3 → (s.part.line n).timer = some 0 →
        Answers (.turnaroundEnd n) s fun t =>
          s.lineStep n t ∧ (t.part.line n).state = .linked ∧
          (t.part.line n).timer = some (100 * (burst c.account c.sequence r).length) ∧
          (t.part.line n).call = some { c with
            phase := .sending, sends := c.sends + 1, symbols := burst c.account c.sequence r }) ∧
      (c.phase = .turnaround → c.current = none → c.reports[c.delivered]? = some r.slot → r.state = .assigned →
        (s.part.line n).timer = some 0 → Answers (.turnaroundEnd n) s fun t =>
          s.quietBut [.points, .queue, .lines] t ∧ s.part.keepsOtherLines n t.part ∧
          (t.part.line n).timer = some (100 * (burst c.account (c.delivered + 1) r).length) ∧
          (t.part.line n).call = some { c with
            phase := .sending, current := some r.slot, sequence := c.delivered + 1, sends := 1,
            symbols := burst c.account (c.delivered + 1) r } ∧
          t.part.queue.records = s.part.queue.records.map (fun y => if y = r then { r with state := .sending } else y) ∧
          t.part.points.work = s.part.points.work ++ [.notice .assignment r.point]) ∧
      (c.phase = .window → c.current = some r.slot → Answers (.ack n) s fun t =>
        let v := s.part.route r.route
        s.keepsBut [.bus, .notice, .points, .queue, .routes, .lines, .arbiter] t ∧
        s.part.keepsOtherLines n t.part ∧
        t.part.line n = { s.part.line n with
          timer := some 100
          call := some { c with
            phase := .turnaround, delivered := c.delivered + 1, current := none, sends := 0 } } ∧
        t.part.queue = { s.part.queue with records := s.part.queue.records.filter (fun y => decide (y ≠ r)) } ∧
        (∃ words, t.part.points.work = s.part.points.work ++
            [.delivery r.point r.sense.code r.code (BitVec.ofNat 4 r.fold) words] ∧
          (∀ a ∈ words, a = 0x019 ∨ a = routeOffset r.route.val 2 ∨ a = routeOffset r.route.val 3) ∧
          (0x019 ∈ words ∨ 0x019 ∈ t.part.bus.wbq) ∧
          (0x019 ∈ words → v.budget ≠ 0 → routeOffset r.route.val 2 ∈ words) ∧
          (∀ o ∈ ([.reportQueue, .routeBlock, .pointEngine] : List Owner),
            t.part.bus.wbWait.filter (·.owner = o) = s.part.bus.wbWait.filter (·.owner = o)) ∧
          (s.part.bus.wbWait = [] → s.part.bus.wbq.length + 4 ≤ Config.writeBackPlaces → words = []) ∧
          (v.budget ≠ 0 → routeOffset r.route.val 2 ∈ words ∨ routeOffset r.route.val 2 ∈ t.part.bus.wbq) ∧
          ((t.part.route r.route).w3 ≠ v.w3 →
            routeOffset r.route.val 3 ∈ words ∨ routeOffset r.route.val 3 ∈ t.part.bus.wbq)) ∧
        (∀ k, k ≠ r.route → t.part.route k = s.part.route k) ∧
        t.part.route r.route = { v with
          budget := v.budget - 1, spent := v.spent || decide (v.budget = 1), accessed := true, lastLeg := r.leg } ∧
        t.part.arbiter.decisionPending = true ∧
        (s.part.notifyDelivery r.route = true → s.part.causeEnable.getLsbD Cause.delivered.index = true →
          t.part.notice.causes.getLsbD Cause.delivered.index = true) ∧
        (v.budget = 1 → s.part.notifyBudget r.route = true →
          s.part.causeEnable.getLsbD Cause.budget.index = true →
          t.part.notice.causes.getLsbD Cause.budget.index = true) ∧
        (s.part.notice.heads.isSome = true → t.part.bus.logged = s.part.bus.logged ++
          [LogRecord.stamp s.part.now (LogRecord.ofCall n c.dest
            { r.log .delivered with attempts := BitVec.ofNat 4 (r.attempts + 1) })]))

/-- What ends a call that has left BREAK: FAR_CLEAR, DIAL_TONE_WAIT_EXPIRY, WAIT_SYMBOL_EXPIRY, BUSY, RINGBACK_EXPIRY,
HANDSHAKE_EXPIRY, and REPEAT and WINDOW_EXPIRY after the third send with a failure, counted for its undelivered records;
END_SYMBOL_END complete. A FAR_CLEAR sent before its 300 ms changes nothing, the model's choice (log 7). -/
def Obligations.CallsEndInTheReleaseGuard : Prop :=
  ∀ (n : LineNo) (c : Call) (s : State), s.part.mode.live = true → (s.part.line n).call = some c →
    (∀ k, s.part.hook n = true → (s.part.line n).currentLoss = some k →
      (300 ≤ k → Answers (.farClear n) s fun t => s.callFailed n c .farClear t) ∧
      (k < 300 → s.part.troubleCurrent → Answers (.farClear n) s fun t => t = s)) ∧
    ((s.part.line n).state = .ringback → Answers (.busy n) s fun t => s.callFailed n c .busy t) ∧
    ((s.part.line n).state = .linked → c.phase = .window → 3 ≤ c.sends →
      Answers (.repeatToken n) s fun t => s.callFailed n c .noAck t) ∧
    ((s.part.line n).timer = some 0 →
      ((s.part.line n).state = .dialtone → s.part.blindDial n = false →
        Answers (.dialToneWaitExpiry n) s fun t => s.callFailed n c .noDialTone t) ∧
      ((s.part.line n).state = .dialing → c.dial[c.dialPos]? = some .wait →
        Answers (.waitSymbolExpiry n) s fun t => s.callFailed n c .noDialTone t) ∧
      ((s.part.line n).state = .ringback → Answers (.ringbackExpiry n) s fun t => s.callFailed n c .noAnswer t) ∧
      ((s.part.line n).state = .linked → c.phase = .handshake →
        Answers (.handshakeExpiry n) s fun t => s.callFailed n c .noAck t) ∧
      ((s.part.line n).state = .linked → c.phase = .window → 3 ≤ c.sends →
        (s.part.line n).detector.burst.measuring = false →
        Answers (.windowExpiry n) s fun t => s.callFailed n c .noAck t) ∧
      ((s.part.line n).state = .linked → c.phase = .ending → c.delivered = c.reports.length →
        Answers (.endSymbolEnd n) s fun t =>
          s.lineStep n t ∧ (t.part.line n).state = .release ∧ (t.part.line n).timer = some 2000 ∧
          (t.part.line n).call = none ∧ t.part.arbiter.decisionPending = true ∧ t.part.queue = s.part.queue))

/-- The symbols of a burst (R140) and its check (R141): the sum of positions 2 to 16 modulo 97, tens first. The tones a line
puts out: the pair of each symbol (R139), 80 ms of each 160 ms while dialling (R99), 50 ms of each 100 ms in a sending, and
none at any other time. -/
def Obligations.BurstCarriesItsCheck : Prop :=
  (∀ (account : List Nat) (sequence : Nat) (r : Record), account.length = 6 → (∀ d ∈ account, d ≤ 9) →
    1 ≤ sequence → sequence ≤ 4 → r.fold ≤ 9 → r.code.toNat ≤ 999 →
    let b := burst account sequence r
    let v (position : Nat) : Nat := (b[position - 1]?).getD 0
    b.length = 18 ∧ v 1 = 14 ∧ (b.drop 1).take 6 = account ∧ v 8 = sequence ∧
    v 9 = (match r.sense with
      | .active => 10
      | .normal => 11
      | .test => 12) ∧
    100 * v 10 + 10 * v 11 + v 12 = r.code.toNat ∧ 100 * v 13 + 10 * v 14 + v 15 = r.point.val ∧ v 16 = r.fold ∧
    10 * v 17 + v 18 = ((b.drop 1).take 15).sum % 97 ∧ (∀ x ∈ b, x < 16) ∧ v 17 ≤ 9 ∧ v 18 ≤ 9) ∧
  (∀ v : Fin 16, [(941, 1336), (697, 1209), (697, 1336), (697, 1477), (770, 1209), (770, 1336), (770, 1477), (852, 1209),
    (852, 1336), (852, 1477), (697, 1633), (770, 1633), (852, 1633), (941, 1633), (941, 1209), (941, 1477)][v.val]? =
      some (symbolTones v)) ∧
  ∀ (l : Line) (c : Call), l.call = some c →
    (∀ d v left, l.state = .dialing → c.dial[c.dialPos]? = some d → l.timer = some left → left ≤ 160 →
      (d = .digit v → l.toneOut = if 80 < left then some (symbolTones (v.castLE (by omega))) else none) ∧
      (d = .star → l.toneOut = if 80 < left then some (symbolTones 14) else none) ∧
      (d = .hash → l.toneOut = if 80 < left then some (symbolTones 15) else none)) ∧
    (l.state = .dialing → c.dial[c.dialPos]? = some .pause ∨ c.dial[c.dialPos]? = some .wait → l.toneOut = none) ∧
    (∀ k j v, l.state = .linked → c.phase = .sending ∨ c.phase = .ending → c.symbols[k]? = some v → v < 16 → j < 100 →
      l.timer = some (100 * c.symbols.length - (100 * k + j)) →
      l.toneOut = if j < 50 then some (symbolTones (Fin.ofNat 16 v)) else none) ∧
    (l.state ≠ .dialing → l.state ≠ .linked ∨ (c.phase ≠ .sending ∧ c.phase ≠ .ending) → l.toneOut = none)

/-! ### Time and the conditions of the part -/

/-- CLOCK_SECOND, HEARTBEAT_EXPIRY, MAINS_LOST_CHANGE, MAINS_TIMER_EXPIRY and TROUBLE_PULSE_TOGGLE. At a change of minute
the three time words are entered (R154). An expiry sent before its time changes nothing, the model's choice (log 7). -/
def Obligations.TimePassesAndConditionsChange : Prop :=
  (∀ s : State, s.part.mode ≠ .off → s.part.troubleCurrent →
    (s.part.time.elapsedMs < 1000 → Answers .clockSecond s fun t => t = s) ∧
    (1000 ≤ s.part.time.elapsedMs → s.part.time.second < 59 → Answers .clockSecond s fun t =>
      s.keepsBut [.time] t ∧
      t.part.time = { s.part.time with second := s.part.time.second + 1, elapsedMs := 0 }) ∧
    (1000 ≤ s.part.time.elapsedMs → s.part.time.second = 59 → Answers .clockSecond s fun t =>
      let day := if s.part.time.minute < 1439 then s.part.time.day else s.part.time.day + 1
      let minute := if s.part.time.minute < 1439 then s.part.time.minute + 1 else 0
      s.quietBut [.points, .time] t ∧ t.part.time.day = day ∧ t.part.time.minute = minute ∧
      t.part.time.second = 0 ∧ t.part.time.elapsedMs = 0 ∧
      (s.part.mode.live = true → s.part.timeEntered 0 t.part) ∧
      (s.part.mode.live = false → t.part.bus = s.part.bus) ∧
      if s.part.mode.serving = true ∧ minute = testMinute (s.part.mirror 0x006) ∧
          s.part.time.nextTest = some day then
        t.part.points.work = s.part.points.work ++ [.test (s.part.virtualRoute 7) false] ∧
        t.part.time.nextTest = some (day + BitVec.ofNat 16 (testInterval (s.part.mirror 0x007)))
      else t.part.points = s.part.points ∧ t.part.time.nextTest = s.part.time.nextTest)) ∧
  (∀ (k : Nat) (s : State), s.part.mode.serving = true → s.part.heartbeat.timer = some k →
    (1000 * s.part.heartbeatPeriod ≤ k → Answers .heartbeatExpiry s fun t =>
      s.keepsBut [.bus, .notice, .points, .heartbeat] t ∧ t.part.heartbeat = { timer := none, silent := true } ∧
      t.part.notice.trouble ≠ .off ∧
      (s.part.causeEnable.getLsbD Cause.heartbeat.index = true →
        t.part.notice.causes.getLsbD Cause.heartbeat.index = true) ∧
      (s.part.heartbeat.silent = false →
        t.part.points.work = s.part.points.work ++ [.condition 256 true])) ∧
    (k < 1000 * s.part.heartbeatPeriod → s.part.troubleCurrent → Answers .heartbeatExpiry s fun t => t = s)) ∧
  (∀ (asserted : Bool) (s : State), Answers (.mainsLostChange asserted) s fun t =>
    s.keepsBut [.time] t ∧
    t.part.time = if s.part.time.mainsLost = asserted then s.part.time
      else { s.part.time with
        mainsLost := asserted, mainsTimer := if asserted = s.part.time.mainsActive then none else some 0 }) ∧
  (∀ (k : Nat) (s : State), s.part.mode ≠ .off → s.part.time.mainsTimer = some k →
    (k < 60000 → s.part.troubleCurrent → Answers .mainsTimerExpiry s fun t => t = s) ∧
    (60000 ≤ k → Answers .mainsTimerExpiry s fun t =>
      s.quietBut [.points, .arbiter, .time] t ∧ t.part.arbiter.offers = s.part.arbiter.offers ∧
      t.part.time = { s.part.time with
        mainsActive := !s.part.time.mainsActive
        mainsTimer := if s.part.time.mainsLost = !s.part.time.mainsActive then none else some 0 } ∧
      (s.part.mode.live = true → t.part.arbiter.decisionPending = true ∧
        (s.part.bus.wbWait = [] → s.part.bus.wbq.length < Config.writeBackPlaces → 0x017 ∈ t.part.bus.wbq)) ∧
      t.part.points = { s.part.points with work := t.part.points.work } ∧
      t.part.points.work = s.part.points.work ++
        if s.part.mode.serving = true then [.condition 257 (!s.part.time.mainsActive)] else [])) ∧
  ∀ s : State, s.part.mode.live = true →
    (s.part.notice.trouble = .off → s.part.troubleOut = false) ∧
    (s.part.notice.trouble = .steady → s.part.troubleOut = true) ∧
    (s.part.notice.trouble = .pulsed → s.part.troubleCurrent →
      (s.part.notice.pulseMs < 1000 → Answers .troublePulseToggle s fun t => t = s) ∧
      (1000 ≤ s.part.notice.pulseMs → Answers .troublePulseToggle s fun t =>
        s.keepsBut [.notice] t ∧ t.part.troubleOut = !s.part.troubleOut ∧
        t.part.notice = { s.part.notice with pulseOn := !s.part.notice.pulseOn, pulseMs := 0 }))
end

