-- ==== Sys2Proof/Laws/Memory.lean ====
section
/-! SUPPORT. A memory reads back what was written, nothing else changes, and the canonical form is kept. -/

namespace Sys2Proof.Machine

/-- A canonical memory from an address on lists nothing below it. -/
theorem Memory.read_below {m : Memory} {lo a : Nat} (h : Memory.wfFrom lo m = true) (ha : a < lo) :
    m.read a = Memory.unlisted := by
  cases m with
  | nil => rfl
  | cons e m =>
    obtain ⟨b, w⟩ := e
    simp only [Memory.wfFrom, Bool.and_eq_true, decide_eq_true_eq] at h
    simp only [Memory.read]
    have : b ≠ a := by omega
    have h2 : a < b := by omega
    simp [this, h2]

theorem Memory.wfFrom_mono {m : Memory} {lo lo' : Nat} (h : Memory.wfFrom lo m = true) (hl : lo' ≤ lo) :
    Memory.wfFrom lo' m = true := by
  cases m with
  | nil => rfl
  | cons e m =>
    obtain ⟨b, w⟩ := e
    simp only [Memory.wfFrom, Bool.and_eq_true, decide_eq_true_eq] at h ⊢
    exact ⟨⟨by omega, h.1.2⟩, h.2⟩

theorem Memory.wfFrom_write {m : Memory} {lo a : Nat} (w : Word) (h : Memory.wfFrom lo m = true) (ha : lo ≤ a) :
    Memory.wfFrom lo (m.write a w) = true := by
  induction m generalizing lo with
  | nil =>
    simp only [Memory.write]
    split <;> simp_all [Memory.wfFrom]
  | cons e m ih =>
    obtain ⟨b, v⟩ := e
    simp only [Memory.wfFrom, Bool.and_eq_true, decide_eq_true_eq] at h
    obtain ⟨⟨h1, h2⟩, h3⟩ := h
    simp only [Memory.write]
    split
    · rename_i hab
      split
      · simp_all [Memory.wfFrom]
      · rename_i hw
        simp only [Memory.wfFrom, Bool.and_eq_true, decide_eq_true_eq]
        exact ⟨⟨ha, hw⟩, ⟨by omega, h2⟩, h3⟩
    · split
      · rename_i hab
        subst hab
        split
        · exact Memory.wfFrom_mono h3 (by omega)
        · rename_i hw
          simp only [Memory.wfFrom, Bool.and_eq_true, decide_eq_true_eq]
          exact ⟨⟨ha, hw⟩, h3⟩
      · rename_i hlt hne
        simp only [Memory.wfFrom, Bool.and_eq_true, decide_eq_true_eq]
        exact ⟨⟨h1, h2⟩, ih h3 (by omega)⟩

/-- A write keeps the canonical form. -/
theorem Memory.wf_write {m : Memory} (a : Nat) (w : Word) (h : m.wf = true) : (m.write a w).wf = true :=
  Memory.wfFrom_write w h (Nat.zero_le a)

theorem Memory.read_write_from {m : Memory} {lo : Nat} (h : Memory.wfFrom lo m = true) (a b : Nat) (w : Word) :
    (m.write a w).read b = if b = a then w else m.read b := by
  induction m generalizing lo with
  | nil =>
    simp only [Memory.write]
    split <;> simp_all [Memory.read] <;> (split <;> simp_all) <;> (intro hh; omega)
  | cons e m ih =>
    obtain ⟨c, v⟩ := e
    have h' := h
    simp only [Memory.wfFrom, Bool.and_eq_true, decide_eq_true_eq] at h
    obtain ⟨⟨h1, h2⟩, h3⟩ := h
    have hb : ∀ x, x < c + 1 → Memory.read m x = Memory.unlisted := fun x hx => Memory.read_below h3 hx
    simp only [Memory.write]
    split
    · rename_i hac
      split
      · rename_i hw
        simp only [Memory.read]
        by_cases e1 : b = a
        · have : c ≠ b := by omega
          have h5 : b < c := by omega
          rw [if_neg this, if_pos h5, if_pos e1, hw]
        · simp [e1]
      · simp only [Memory.read]
        by_cases e1 : b = a
        · simp [e1]
        · by_cases e2 : b < a
          · have : a ≠ b := by omega
            have h5 : b < c := by omega
            have h6 : c ≠ b := by omega
            simp [e1, e2, this, h5, h6]
          · have : a ≠ b := by omega
            simp [e1, e2, this]
    · split
      · rename_i hlt hac
        subst hac
        split
        · rename_i hw
          by_cases e1 : b = a
          · rw [if_pos e1, hw, e1, hb a (by omega)]
          · simp only [Memory.read]
            by_cases e2 : b < a
            · have : a ≠ b := by omega
              simp [e1, e2, this, hb b (by omega)]
            · have : a ≠ b := by omega
              simp [e1, e2, this]
        · simp only [Memory.read]
          by_cases e1 : b = a
          · simp [e1]
          · have : a ≠ b := by omega
            simp [e1, this]
      · rename_i hlt hne
        simp only [Memory.read]
        rw [ih h3]
        by_cases e1 : b = a
        · have : c ≠ b := by omega
          have h5 : ¬ b < c := by omega
          rw [if_neg this, if_neg h5, if_pos e1, if_pos e1]
        · rw [if_neg e1, if_neg e1]

/-- A written word reads back. -/
theorem Memory.read_write {m : Memory} (h : m.wf = true) (a : Nat) (w : Word) : (m.write a w).read a = w := by
  rw [Memory.read_write_from h]
  simp

/-- Every other word reads as before. -/
theorem Memory.read_write_ne {m : Memory} (h : m.wf = true) {a b : Nat} (hb : b ≠ a) (w : Word) :
    (m.write a w).read b = m.read b := by
  rw [Memory.read_write_from h]
  simp [hb]

end Sys2Proof.Machine
end

