-- ==== Sys2Proof/Laws/Frames.lean ====
section
/-! SUPPORT. What each shared operation leaves unchanged: one lemma for each operation and each block it does not touch. -/

namespace Sys2Proof.Machine

/-- A fold whose every step keeps a value keeps it. -/
theorem foldl_keeps {α β γ : Type} (g : α → γ) (f : α → β → α) (h : ∀ a b, g (f a b) = g a) (l : List β) (a : α) :
    g (l.foldl f a) = g a := by
  induction l generalizing a with
  | nil => rfl
  | cons b l ih => rw [List.foldl_cons, ih, h]

@[simp] theorem Part.setLine_mode (n : LineNo) (l : Line) (p : Part) : (p.setLine n l).mode = p.mode := rfl
@[simp] theorem Part.setLine_straps (n : LineNo) (l : Line) (p : Part) : (p.setLine n l).straps = p.straps := rfl
@[simp] theorem Part.setLine_bus (n : LineNo) (l : Line) (p : Part) : (p.setLine n l).bus = p.bus := rfl
@[simp] theorem Part.setLine_mirrors (n : LineNo) (l : Line) (p : Part) : (p.setLine n l).mirrors = p.mirrors := rfl
@[simp] theorem Part.setLine_points (n : LineNo) (l : Line) (p : Part) : (p.setLine n l).points = p.points := rfl
@[simp] theorem Part.setLine_queue (n : LineNo) (l : Line) (p : Part) : (p.setLine n l).queue = p.queue := rfl
@[simp] theorem Part.setLine_routes (n : LineNo) (l : Line) (p : Part) : (p.setLine n l).routes = p.routes := rfl
@[simp] theorem Part.setLine_arbiter (n : LineNo) (l : Line) (p : Part) : (p.setLine n l).arbiter = p.arbiter := rfl
@[simp] theorem Part.setLine_time (n : LineNo) (l : Line) (p : Part) : (p.setLine n l).time = p.time := rfl
@[simp] theorem Part.setLine_heartbeat (n : LineNo) (l : Line) (p : Part) :
    (p.setLine n l).heartbeat = p.heartbeat := rfl
@[simp] theorem Part.setLine_notice (n : LineNo) (l : Line) (p : Part) : (p.setLine n l).notice = p.notice := rfl

@[simp] theorem Part.setShadow_mode (i : PointNo) (s : Shadow) (p : Part) : (p.setShadow i s).mode = p.mode := rfl
@[simp] theorem Part.setShadow_straps (i : PointNo) (s : Shadow) (p : Part) : (p.setShadow i s).straps = p.straps := rfl
@[simp] theorem Part.setShadow_bus (i : PointNo) (s : Shadow) (p : Part) : (p.setShadow i s).bus = p.bus := rfl
@[simp] theorem Part.setShadow_mirrors (i : PointNo) (s : Shadow) (p : Part) :
    (p.setShadow i s).mirrors = p.mirrors := rfl
@[simp] theorem Part.setShadow_queue (i : PointNo) (s : Shadow) (p : Part) : (p.setShadow i s).queue = p.queue := rfl
@[simp] theorem Part.setShadow_routes (i : PointNo) (s : Shadow) (p : Part) : (p.setShadow i s).routes = p.routes := rfl
@[simp] theorem Part.setShadow_lines (i : PointNo) (s : Shadow) (p : Part) : (p.setShadow i s).lines = p.lines := rfl
@[simp] theorem Part.setShadow_arbiter (i : PointNo) (s : Shadow) (p : Part) :
    (p.setShadow i s).arbiter = p.arbiter := rfl
@[simp] theorem Part.setShadow_time (i : PointNo) (s : Shadow) (p : Part) : (p.setShadow i s).time = p.time := rfl
@[simp] theorem Part.setShadow_heartbeat (i : PointNo) (s : Shadow) (p : Part) :
    (p.setShadow i s).heartbeat = p.heartbeat := rfl
@[simp] theorem Part.setShadow_notice (i : PointNo) (s : Shadow) (p : Part) : (p.setShadow i s).notice = p.notice := rfl

@[simp] theorem Part.setRoute_mode (r : RouteNo) (v : Route) (p : Part) : (p.setRoute r v).mode = p.mode := rfl
@[simp] theorem Part.setRoute_straps (r : RouteNo) (v : Route) (p : Part) : (p.setRoute r v).straps = p.straps := rfl
@[simp] theorem Part.setRoute_bus (r : RouteNo) (v : Route) (p : Part) : (p.setRoute r v).bus = p.bus := rfl
@[simp] theorem Part.setRoute_mirrors (r : RouteNo) (v : Route) (p : Part) : (p.setRoute r v).mirrors = p.mirrors := rfl
@[simp] theorem Part.setRoute_points (r : RouteNo) (v : Route) (p : Part) : (p.setRoute r v).points = p.points := rfl
@[simp] theorem Part.setRoute_queue (r : RouteNo) (v : Route) (p : Part) : (p.setRoute r v).queue = p.queue := rfl
@[simp] theorem Part.setRoute_lines (r : RouteNo) (v : Route) (p : Part) : (p.setRoute r v).lines = p.lines := rfl
@[simp] theorem Part.setRoute_arbiter (r : RouteNo) (v : Route) (p : Part) : (p.setRoute r v).arbiter = p.arbiter := rfl
@[simp] theorem Part.setRoute_time (r : RouteNo) (v : Route) (p : Part) : (p.setRoute r v).time = p.time := rfl
@[simp] theorem Part.setRoute_heartbeat (r : RouteNo) (v : Route) (p : Part) :
    (p.setRoute r v).heartbeat = p.heartbeat := rfl
@[simp] theorem Part.setRoute_notice (r : RouteNo) (v : Route) (p : Part) : (p.setRoute r v).notice = p.notice := rfl

@[simp] theorem Part.setOffer_mode (n : LineNo) (o : Option Offer) (p : Part) : (p.setOffer n o).mode = p.mode := rfl
@[simp] theorem Part.setOffer_straps (n : LineNo) (o : Option Offer) (p : Part) :
    (p.setOffer n o).straps = p.straps := rfl
@[simp] theorem Part.setOffer_bus (n : LineNo) (o : Option Offer) (p : Part) : (p.setOffer n o).bus = p.bus := rfl
@[simp] theorem Part.setOffer_mirrors (n : LineNo) (o : Option Offer) (p : Part) :
    (p.setOffer n o).mirrors = p.mirrors := rfl
@[simp] theorem Part.setOffer_points (n : LineNo) (o : Option Offer) (p : Part) :
    (p.setOffer n o).points = p.points := rfl
@[simp] theorem Part.setOffer_queue (n : LineNo) (o : Option Offer) (p : Part) : (p.setOffer n o).queue = p.queue := rfl
@[simp] theorem Part.setOffer_routes (n : LineNo) (o : Option Offer) (p : Part) :
    (p.setOffer n o).routes = p.routes := rfl
@[simp] theorem Part.setOffer_lines (n : LineNo) (o : Option Offer) (p : Part) : (p.setOffer n o).lines = p.lines := rfl
@[simp] theorem Part.setOffer_time (n : LineNo) (o : Option Offer) (p : Part) : (p.setOffer n o).time = p.time := rfl
@[simp] theorem Part.setOffer_heartbeat (n : LineNo) (o : Option Offer) (p : Part) :
    (p.setOffer n o).heartbeat = p.heartbeat := rfl
@[simp] theorem Part.setOffer_notice (n : LineNo) (o : Option Offer) (p : Part) :
    (p.setOffer n o).notice = p.notice := rfl

@[simp] theorem Part.setMode_straps (m : Mode) (p : Part) : (p.setMode m).straps = p.straps := rfl
@[simp] theorem Part.setMode_bus (m : Mode) (p : Part) : (p.setMode m).bus = p.bus := rfl
@[simp] theorem Part.setMode_mirrors (m : Mode) (p : Part) : (p.setMode m).mirrors = p.mirrors := rfl
@[simp] theorem Part.setMode_points (m : Mode) (p : Part) : (p.setMode m).points = p.points := rfl
@[simp] theorem Part.setMode_queue (m : Mode) (p : Part) : (p.setMode m).queue = p.queue := rfl
@[simp] theorem Part.setMode_routes (m : Mode) (p : Part) : (p.setMode m).routes = p.routes := rfl
@[simp] theorem Part.setMode_lines (m : Mode) (p : Part) : (p.setMode m).lines = p.lines := rfl
@[simp] theorem Part.setMode_arbiter (m : Mode) (p : Part) : (p.setMode m).arbiter = p.arbiter := rfl
@[simp] theorem Part.setMode_time (m : Mode) (p : Part) : (p.setMode m).time = p.time := rfl
@[simp] theorem Part.setMode_heartbeat (m : Mode) (p : Part) : (p.setMode m).heartbeat = p.heartbeat := rfl
@[simp] theorem Part.setMode_notice (m : Mode) (p : Part) : (p.setMode m).notice = p.notice := rfl

@[simp] theorem Part.occasion_mode (p : Part) : (p.occasion).mode = p.mode := rfl
@[simp] theorem Part.occasion_straps (p : Part) : (p.occasion).straps = p.straps := rfl
@[simp] theorem Part.occasion_bus (p : Part) : (p.occasion).bus = p.bus := rfl
@[simp] theorem Part.occasion_mirrors (p : Part) : (p.occasion).mirrors = p.mirrors := rfl
@[simp] theorem Part.occasion_points (p : Part) : (p.occasion).points = p.points := rfl
@[simp] theorem Part.occasion_queue (p : Part) : (p.occasion).queue = p.queue := rfl
@[simp] theorem Part.occasion_routes (p : Part) : (p.occasion).routes = p.routes := rfl
@[simp] theorem Part.occasion_lines (p : Part) : (p.occasion).lines = p.lines := rfl
@[simp] theorem Part.occasion_time (p : Part) : (p.occasion).time = p.time := rfl
@[simp] theorem Part.occasion_heartbeat (p : Part) : (p.occasion).heartbeat = p.heartbeat := rfl
@[simp] theorem Part.occasion_notice (p : Part) : (p.occasion).notice = p.notice := rfl

@[simp] theorem Part.tell_mode (w : Work) (p : Part) : (p.tell w).mode = p.mode := rfl
@[simp] theorem Part.tell_straps (w : Work) (p : Part) : (p.tell w).straps = p.straps := rfl
@[simp] theorem Part.tell_bus (w : Work) (p : Part) : (p.tell w).bus = p.bus := rfl
@[simp] theorem Part.tell_mirrors (w : Work) (p : Part) : (p.tell w).mirrors = p.mirrors := rfl
@[simp] theorem Part.tell_queue (w : Work) (p : Part) : (p.tell w).queue = p.queue := rfl
@[simp] theorem Part.tell_routes (w : Work) (p : Part) : (p.tell w).routes = p.routes := rfl
@[simp] theorem Part.tell_lines (w : Work) (p : Part) : (p.tell w).lines = p.lines := rfl
@[simp] theorem Part.tell_arbiter (w : Work) (p : Part) : (p.tell w).arbiter = p.arbiter := rfl
@[simp] theorem Part.tell_time (w : Work) (p : Part) : (p.tell w).time = p.time := rfl
@[simp] theorem Part.tell_heartbeat (w : Work) (p : Part) : (p.tell w).heartbeat = p.heartbeat := rfl
@[simp] theorem Part.tell_notice (w : Work) (p : Part) : (p.tell w).notice = p.notice := rfl

@[simp] theorem Part.setMirror_mode (off : Nat) (w : Word) (p : Part) : (p.setMirror off w).mode = p.mode := rfl
@[simp] theorem Part.setMirror_straps (off : Nat) (w : Word) (p : Part) : (p.setMirror off w).straps = p.straps := rfl
@[simp] theorem Part.setMirror_bus (off : Nat) (w : Word) (p : Part) : (p.setMirror off w).bus = p.bus := rfl
@[simp] theorem Part.setMirror_points (off : Nat) (w : Word) (p : Part) : (p.setMirror off w).points = p.points := rfl
@[simp] theorem Part.setMirror_queue (off : Nat) (w : Word) (p : Part) : (p.setMirror off w).queue = p.queue := rfl
@[simp] theorem Part.setMirror_routes (off : Nat) (w : Word) (p : Part) : (p.setMirror off w).routes = p.routes := rfl
@[simp] theorem Part.setMirror_lines (off : Nat) (w : Word) (p : Part) : (p.setMirror off w).lines = p.lines := rfl
@[simp] theorem Part.setMirror_arbiter (off : Nat) (w : Word) (p : Part) :
    (p.setMirror off w).arbiter = p.arbiter := rfl
@[simp] theorem Part.setMirror_time (off : Nat) (w : Word) (p : Part) : (p.setMirror off w).time = p.time := rfl
@[simp] theorem Part.setMirror_heartbeat (off : Nat) (w : Word) (p : Part) :
    (p.setMirror off w).heartbeat = p.heartbeat := rfl
@[simp] theorem Part.setMirror_notice (off : Nat) (w : Word) (p : Part) : (p.setMirror off w).notice = p.notice := rfl

@[simp] theorem Part.enter_mode (o : Owner) (off : Nat) (p : Part) : (p.enter o off).mode = p.mode := by
  unfold Part.enter
  split <;> (try rfl)
  split <;> (try rfl)
  split <;> rfl
@[simp] theorem Part.enter_straps (o : Owner) (off : Nat) (p : Part) : (p.enter o off).straps = p.straps := by
  unfold Part.enter
  split <;> (try rfl)
  split <;> (try rfl)
  split <;> rfl
@[simp] theorem Part.enter_mirrors (o : Owner) (off : Nat) (p : Part) : (p.enter o off).mirrors = p.mirrors := by
  unfold Part.enter
  split <;> (try rfl)
  split <;> (try rfl)
  split <;> rfl
@[simp] theorem Part.enter_points (o : Owner) (off : Nat) (p : Part) : (p.enter o off).points = p.points := by
  unfold Part.enter
  split <;> (try rfl)
  split <;> (try rfl)
  split <;> rfl
@[simp] theorem Part.enter_queue (o : Owner) (off : Nat) (p : Part) : (p.enter o off).queue = p.queue := by
  unfold Part.enter
  split <;> (try rfl)
  split <;> (try rfl)
  split <;> rfl
@[simp] theorem Part.enter_routes (o : Owner) (off : Nat) (p : Part) : (p.enter o off).routes = p.routes := by
  unfold Part.enter
  split <;> (try rfl)
  split <;> (try rfl)
  split <;> rfl
@[simp] theorem Part.enter_lines (o : Owner) (off : Nat) (p : Part) : (p.enter o off).lines = p.lines := by
  unfold Part.enter
  split <;> (try rfl)
  split <;> (try rfl)
  split <;> rfl
@[simp] theorem Part.enter_arbiter (o : Owner) (off : Nat) (p : Part) : (p.enter o off).arbiter = p.arbiter := by
  unfold Part.enter
  split <;> (try rfl)
  split <;> (try rfl)
  split <;> rfl
@[simp] theorem Part.enter_time (o : Owner) (off : Nat) (p : Part) : (p.enter o off).time = p.time := by
  unfold Part.enter
  split <;> (try rfl)
  split <;> (try rfl)
  split <;> rfl
@[simp] theorem Part.enter_heartbeat (o : Owner) (off : Nat) (p : Part) : (p.enter o off).heartbeat = p.heartbeat := by
  unfold Part.enter
  split <;> (try rfl)
  split <;> (try rfl)
  split <;> rfl
@[simp] theorem Part.enter_notice (o : Owner) (off : Nat) (p : Part) : (p.enter o off).notice = p.notice := by
  unfold Part.enter
  split <;> (try rfl)
  split <;> (try rfl)
  split <;> rfl

@[simp] theorem Part.enterAll_mode (o : Owner) (offs : List Nat) (p : Part) :
    (p.enterAll o offs).mode = p.mode := foldl_keeps Part.mode _ (fun q a => Part.enter_mode o a q) offs p
@[simp] theorem Part.enterAll_straps (o : Owner) (offs : List Nat) (p : Part) :
    (p.enterAll o offs).straps = p.straps := foldl_keeps Part.straps _ (fun q a => Part.enter_straps o a q) offs p
@[simp] theorem Part.enterAll_mirrors (o : Owner) (offs : List Nat) (p : Part) :
    (p.enterAll o offs).mirrors = p.mirrors :=
    foldl_keeps Part.mirrors _ (fun q a => Part.enter_mirrors o a q) offs p
@[simp] theorem Part.enterAll_points (o : Owner) (offs : List Nat) (p : Part) :
    (p.enterAll o offs).points = p.points := foldl_keeps Part.points _ (fun q a => Part.enter_points o a q) offs p
@[simp] theorem Part.enterAll_queue (o : Owner) (offs : List Nat) (p : Part) :
    (p.enterAll o offs).queue = p.queue := foldl_keeps Part.queue _ (fun q a => Part.enter_queue o a q) offs p
@[simp] theorem Part.enterAll_routes (o : Owner) (offs : List Nat) (p : Part) :
    (p.enterAll o offs).routes = p.routes := foldl_keeps Part.routes _ (fun q a => Part.enter_routes o a q) offs p
@[simp] theorem Part.enterAll_lines (o : Owner) (offs : List Nat) (p : Part) :
    (p.enterAll o offs).lines = p.lines := foldl_keeps Part.lines _ (fun q a => Part.enter_lines o a q) offs p
@[simp] theorem Part.enterAll_arbiter (o : Owner) (offs : List Nat) (p : Part) :
    (p.enterAll o offs).arbiter = p.arbiter :=
    foldl_keeps Part.arbiter _ (fun q a => Part.enter_arbiter o a q) offs p
@[simp] theorem Part.enterAll_time (o : Owner) (offs : List Nat) (p : Part) :
    (p.enterAll o offs).time = p.time := foldl_keeps Part.time _ (fun q a => Part.enter_time o a q) offs p
@[simp] theorem Part.enterAll_heartbeat (o : Owner) (offs : List Nat) (p : Part) :
    (p.enterAll o offs).heartbeat = p.heartbeat :=
    foldl_keeps Part.heartbeat _ (fun q a => Part.enter_heartbeat o a q) offs p
@[simp] theorem Part.enterAll_notice (o : Owner) (offs : List Nat) (p : Part) :
    (p.enterAll o offs).notice = p.notice := foldl_keeps Part.notice _ (fun q a => Part.enter_notice o a q) offs p

@[simp] theorem Part.admitWaiter_mode (p : Part) : (p.admitWaiter).mode = p.mode := by
  unfold Part.admitWaiter
  split
  · rfl
  · split
    · simp
    · split <;> simp
@[simp] theorem Part.admitWaiter_straps (p : Part) : (p.admitWaiter).straps = p.straps := by
  unfold Part.admitWaiter
  split
  · rfl
  · split
    · simp
    · split <;> simp
@[simp] theorem Part.admitWaiter_mirrors (p : Part) : (p.admitWaiter).mirrors = p.mirrors := by
  unfold Part.admitWaiter
  split
  · rfl
  · split
    · simp
    · split <;> simp
@[simp] theorem Part.admitWaiter_points (p : Part) : (p.admitWaiter).points = p.points := by
  unfold Part.admitWaiter
  split
  · rfl
  · split
    · simp
    · split <;> simp
@[simp] theorem Part.admitWaiter_queue (p : Part) : (p.admitWaiter).queue = p.queue := by
  unfold Part.admitWaiter
  split
  · rfl
  · split
    · simp
    · split <;> simp
@[simp] theorem Part.admitWaiter_routes (p : Part) : (p.admitWaiter).routes = p.routes := by
  unfold Part.admitWaiter
  split
  · rfl
  · split
    · simp
    · split <;> simp
@[simp] theorem Part.admitWaiter_lines (p : Part) : (p.admitWaiter).lines = p.lines := by
  unfold Part.admitWaiter
  split
  · rfl
  · split
    · simp
    · split <;> simp
@[simp] theorem Part.admitWaiter_arbiter (p : Part) : (p.admitWaiter).arbiter = p.arbiter := by
  unfold Part.admitWaiter
  split
  · rfl
  · split
    · simp
    · split <;> simp
@[simp] theorem Part.admitWaiter_time (p : Part) : (p.admitWaiter).time = p.time := by
  unfold Part.admitWaiter
  split
  · rfl
  · split
    · simp
    · split <;> simp
@[simp] theorem Part.admitWaiter_heartbeat (p : Part) : (p.admitWaiter).heartbeat = p.heartbeat := by
  unfold Part.admitWaiter
  split
  · rfl
  · split
    · simp
    · split <;> simp
@[simp] theorem Part.admitWaiter_notice (p : Part) : (p.admitWaiter).notice = p.notice := by
  unfold Part.admitWaiter
  split
  · rfl
  · split
    · simp
    · split <;> simp

@[simp] theorem Part.raise_mode (c : Cause) (p : Part) : (p.raise c).mode = p.mode := by
  unfold Part.raise
  split <;> simp
@[simp] theorem Part.raise_straps (c : Cause) (p : Part) : (p.raise c).straps = p.straps := by
  unfold Part.raise
  split <;> simp
@[simp] theorem Part.raise_mirrors (c : Cause) (p : Part) : (p.raise c).mirrors = p.mirrors := by
  unfold Part.raise
  split <;> simp
@[simp] theorem Part.raise_points (c : Cause) (p : Part) : (p.raise c).points = p.points := by
  unfold Part.raise
  split <;> simp
@[simp] theorem Part.raise_queue (c : Cause) (p : Part) : (p.raise c).queue = p.queue := by
  unfold Part.raise
  split <;> simp
@[simp] theorem Part.raise_routes (c : Cause) (p : Part) : (p.raise c).routes = p.routes := by
  unfold Part.raise
  split <;> simp
@[simp] theorem Part.raise_lines (c : Cause) (p : Part) : (p.raise c).lines = p.lines := by
  unfold Part.raise
  split <;> simp
@[simp] theorem Part.raise_arbiter (c : Cause) (p : Part) : (p.raise c).arbiter = p.arbiter := by
  unfold Part.raise
  split <;> simp
@[simp] theorem Part.raise_time (c : Cause) (p : Part) : (p.raise c).time = p.time := by
  unfold Part.raise
  split <;> simp
@[simp] theorem Part.raise_heartbeat (c : Cause) (p : Part) : (p.raise c).heartbeat = p.heartbeat := by
  unfold Part.raise
  split <;> simp

@[simp] theorem Part.stage_mode (s : Staged) (p : Part) : (p.stage s).mode = p.mode := by
  unfold Part.stage
  split <;> rfl
@[simp] theorem Part.stage_straps (s : Staged) (p : Part) : (p.stage s).straps = p.straps := by
  unfold Part.stage
  split <;> rfl
@[simp] theorem Part.stage_mirrors (s : Staged) (p : Part) : (p.stage s).mirrors = p.mirrors := by
  unfold Part.stage
  split <;> rfl
@[simp] theorem Part.stage_points (s : Staged) (p : Part) : (p.stage s).points = p.points := by
  unfold Part.stage
  split <;> rfl
@[simp] theorem Part.stage_queue (s : Staged) (p : Part) : (p.stage s).queue = p.queue := by
  unfold Part.stage
  split <;> rfl
@[simp] theorem Part.stage_routes (s : Staged) (p : Part) : (p.stage s).routes = p.routes := by
  unfold Part.stage
  split <;> rfl
@[simp] theorem Part.stage_lines (s : Staged) (p : Part) : (p.stage s).lines = p.lines := by
  unfold Part.stage
  split <;> rfl
@[simp] theorem Part.stage_arbiter (s : Staged) (p : Part) : (p.stage s).arbiter = p.arbiter := by
  unfold Part.stage
  split <;> rfl
@[simp] theorem Part.stage_time (s : Staged) (p : Part) : (p.stage s).time = p.time := by
  unfold Part.stage
  split <;> rfl
@[simp] theorem Part.stage_heartbeat (s : Staged) (p : Part) : (p.stage s).heartbeat = p.heartbeat := by
  unfold Part.stage
  split <;> rfl
@[simp] theorem Part.stage_notice (s : Staged) (p : Part) : (p.stage s).notice = p.notice := by
  unfold Part.stage
  split <;> rfl

@[simp] theorem Part.makeLog_mode (r : LogRecord) (p : Part) : (p.makeLog r).mode = p.mode := by
  unfold Part.makeLog
  split <;> simp
@[simp] theorem Part.makeLog_straps (r : LogRecord) (p : Part) : (p.makeLog r).straps = p.straps := by
  unfold Part.makeLog
  split <;> simp
@[simp] theorem Part.makeLog_mirrors (r : LogRecord) (p : Part) : (p.makeLog r).mirrors = p.mirrors := by
  unfold Part.makeLog
  split <;> simp
@[simp] theorem Part.makeLog_points (r : LogRecord) (p : Part) : (p.makeLog r).points = p.points := by
  unfold Part.makeLog
  split <;> simp
@[simp] theorem Part.makeLog_queue (r : LogRecord) (p : Part) : (p.makeLog r).queue = p.queue := by
  unfold Part.makeLog
  split <;> simp
@[simp] theorem Part.makeLog_routes (r : LogRecord) (p : Part) : (p.makeLog r).routes = p.routes := by
  unfold Part.makeLog
  split <;> simp
@[simp] theorem Part.makeLog_lines (r : LogRecord) (p : Part) : (p.makeLog r).lines = p.lines := by
  unfold Part.makeLog
  split <;> simp
@[simp] theorem Part.makeLog_arbiter (r : LogRecord) (p : Part) : (p.makeLog r).arbiter = p.arbiter := by
  unfold Part.makeLog
  split <;> simp
@[simp] theorem Part.makeLog_time (r : LogRecord) (p : Part) : (p.makeLog r).time = p.time := by
  unfold Part.makeLog
  split <;> simp
@[simp] theorem Part.makeLog_heartbeat (r : LogRecord) (p : Part) : (p.makeLog r).heartbeat = p.heartbeat := by
  unfold Part.makeLog
  split <;> simp

@[simp] theorem Part.logNow_mode (r : LogRecord) (p : Part) : (p.logNow r).mode = p.mode := by
  unfold Part.logNow
  simp
@[simp] theorem Part.logNow_straps (r : LogRecord) (p : Part) : (p.logNow r).straps = p.straps := by
  unfold Part.logNow
  simp
@[simp] theorem Part.logNow_mirrors (r : LogRecord) (p : Part) : (p.logNow r).mirrors = p.mirrors := by
  unfold Part.logNow
  simp
@[simp] theorem Part.logNow_points (r : LogRecord) (p : Part) : (p.logNow r).points = p.points := by
  unfold Part.logNow
  simp
@[simp] theorem Part.logNow_queue (r : LogRecord) (p : Part) : (p.logNow r).queue = p.queue := by
  unfold Part.logNow
  simp
@[simp] theorem Part.logNow_routes (r : LogRecord) (p : Part) : (p.logNow r).routes = p.routes := by
  unfold Part.logNow
  simp
@[simp] theorem Part.logNow_lines (r : LogRecord) (p : Part) : (p.logNow r).lines = p.lines := by
  unfold Part.logNow
  simp
@[simp] theorem Part.logNow_arbiter (r : LogRecord) (p : Part) : (p.logNow r).arbiter = p.arbiter := by
  unfold Part.logNow
  simp
@[simp] theorem Part.logNow_time (r : LogRecord) (p : Part) : (p.logNow r).time = p.time := by
  unfold Part.logNow
  simp
@[simp] theorem Part.logNow_heartbeat (r : LogRecord) (p : Part) : (p.logNow r).heartbeat = p.heartbeat := by
  unfold Part.logNow
  simp

@[simp] theorem Part.setResult_mode (tag : BitVec 8) (st : ResultStatus) (p : Part) :
    (p.setResult tag st).mode = p.mode := by
  unfold Part.setResult
  simp
@[simp] theorem Part.setResult_straps (tag : BitVec 8) (st : ResultStatus) (p : Part) :
    (p.setResult tag st).straps = p.straps := by
  unfold Part.setResult
  simp
@[simp] theorem Part.setResult_mirrors (tag : BitVec 8) (st : ResultStatus) (p : Part) :
    (p.setResult tag st).mirrors = p.mirrors := by
  unfold Part.setResult
  simp
@[simp] theorem Part.setResult_points (tag : BitVec 8) (st : ResultStatus) (p : Part) :
    (p.setResult tag st).points = p.points := by
  unfold Part.setResult
  simp
@[simp] theorem Part.setResult_queue (tag : BitVec 8) (st : ResultStatus) (p : Part) :
    (p.setResult tag st).queue = p.queue := by
  unfold Part.setResult
  simp
@[simp] theorem Part.setResult_routes (tag : BitVec 8) (st : ResultStatus) (p : Part) :
    (p.setResult tag st).routes = p.routes := by
  unfold Part.setResult
  simp
@[simp] theorem Part.setResult_lines (tag : BitVec 8) (st : ResultStatus) (p : Part) :
    (p.setResult tag st).lines = p.lines := by
  unfold Part.setResult
  simp
@[simp] theorem Part.setResult_arbiter (tag : BitVec 8) (st : ResultStatus) (p : Part) :
    (p.setResult tag st).arbiter = p.arbiter := by
  unfold Part.setResult
  simp
@[simp] theorem Part.setResult_time (tag : BitVec 8) (st : ResultStatus) (p : Part) :
    (p.setResult tag st).time = p.time := by
  unfold Part.setResult
  simp
@[simp] theorem Part.setResult_heartbeat (tag : BitVec 8) (st : ResultStatus) (p : Part) :
    (p.setResult tag st).heartbeat = p.heartbeat := by
  unfold Part.setResult
  simp

@[simp] theorem Part.finalResult_mode (c : Command) (st : ResultStatus) (p : Part) :
    (p.finalResult c st).mode = p.mode := by
  unfold Part.finalResult
  simp
@[simp] theorem Part.finalResult_straps (c : Command) (st : ResultStatus) (p : Part) :
    (p.finalResult c st).straps = p.straps := by
  unfold Part.finalResult
  simp
@[simp] theorem Part.finalResult_mirrors (c : Command) (st : ResultStatus) (p : Part) :
    (p.finalResult c st).mirrors = p.mirrors := by
  unfold Part.finalResult
  simp
@[simp] theorem Part.finalResult_points (c : Command) (st : ResultStatus) (p : Part) :
    (p.finalResult c st).points = p.points := by
  unfold Part.finalResult
  simp
@[simp] theorem Part.finalResult_queue (c : Command) (st : ResultStatus) (p : Part) :
    (p.finalResult c st).queue = p.queue := by
  unfold Part.finalResult
  simp
@[simp] theorem Part.finalResult_routes (c : Command) (st : ResultStatus) (p : Part) :
    (p.finalResult c st).routes = p.routes := by
  unfold Part.finalResult
  simp
@[simp] theorem Part.finalResult_lines (c : Command) (st : ResultStatus) (p : Part) :
    (p.finalResult c st).lines = p.lines := by
  unfold Part.finalResult
  simp
@[simp] theorem Part.finalResult_arbiter (c : Command) (st : ResultStatus) (p : Part) :
    (p.finalResult c st).arbiter = p.arbiter := by
  unfold Part.finalResult
  simp
@[simp] theorem Part.finalResult_time (c : Command) (st : ResultStatus) (p : Part) :
    (p.finalResult c st).time = p.time := by
  unfold Part.finalResult
  simp
@[simp] theorem Part.finalResult_heartbeat (c : Command) (st : ResultStatus) (p : Part) :
    (p.finalResult c st).heartbeat = p.heartbeat := by
  unfold Part.finalResult
  simp

@[simp] theorem Part.answerRefused_mode (c : Command) (st : ResultStatus) (p : Part) :
    (p.answerRefused c st).mode = p.mode := by
  unfold Part.answerRefused
  split <;> simp
@[simp] theorem Part.answerRefused_straps (c : Command) (st : ResultStatus) (p : Part) :
    (p.answerRefused c st).straps = p.straps := by
  unfold Part.answerRefused
  split <;> simp
@[simp] theorem Part.answerRefused_mirrors (c : Command) (st : ResultStatus) (p : Part) :
    (p.answerRefused c st).mirrors = p.mirrors := by
  unfold Part.answerRefused
  split <;> simp
@[simp] theorem Part.answerRefused_points (c : Command) (st : ResultStatus) (p : Part) :
    (p.answerRefused c st).points = p.points := by
  unfold Part.answerRefused
  split <;> simp
@[simp] theorem Part.answerRefused_queue (c : Command) (st : ResultStatus) (p : Part) :
    (p.answerRefused c st).queue = p.queue := by
  unfold Part.answerRefused
  split <;> simp
@[simp] theorem Part.answerRefused_routes (c : Command) (st : ResultStatus) (p : Part) :
    (p.answerRefused c st).routes = p.routes := by
  unfold Part.answerRefused
  split <;> simp
@[simp] theorem Part.answerRefused_lines (c : Command) (st : ResultStatus) (p : Part) :
    (p.answerRefused c st).lines = p.lines := by
  unfold Part.answerRefused
  split <;> simp
@[simp] theorem Part.answerRefused_arbiter (c : Command) (st : ResultStatus) (p : Part) :
    (p.answerRefused c st).arbiter = p.arbiter := by
  unfold Part.answerRefused
  split <;> simp
@[simp] theorem Part.answerRefused_time (c : Command) (st : ResultStatus) (p : Part) :
    (p.answerRefused c st).time = p.time := by
  unfold Part.answerRefused
  split <;> simp
@[simp] theorem Part.answerRefused_heartbeat (c : Command) (st : ResultStatus) (p : Part) :
    (p.answerRefused c st).heartbeat = p.heartbeat := by
  unfold Part.answerRefused
  split <;> simp

@[simp] theorem Part.beginDrain_mode (p : Part) : (p.beginDrain).mode = p.mode := by
  unfold Part.beginDrain
  split
  · simp only
    split
    · exact foldl_keeps Part.mode (fun (q : Part) (a : Command × ResultStatus) => q.answerRefused a.1 a.2)
        (fun q a => Part.answerRefused_mode a.1 a.2 q) _ _
    · rfl
  · rfl
@[simp] theorem Part.beginDrain_straps (p : Part) : (p.beginDrain).straps = p.straps := by
  unfold Part.beginDrain
  split
  · simp only
    split
    · exact foldl_keeps Part.straps (fun (q : Part) (a : Command × ResultStatus) => q.answerRefused a.1 a.2)
        (fun q a => Part.answerRefused_straps a.1 a.2 q) _ _
    · rfl
  · rfl
@[simp] theorem Part.beginDrain_mirrors (p : Part) : (p.beginDrain).mirrors = p.mirrors := by
  unfold Part.beginDrain
  split
  · simp only
    split
    · exact foldl_keeps Part.mirrors (fun (q : Part) (a : Command × ResultStatus) => q.answerRefused a.1 a.2)
        (fun q a => Part.answerRefused_mirrors a.1 a.2 q) _ _
    · rfl
  · rfl
@[simp] theorem Part.beginDrain_points (p : Part) : (p.beginDrain).points = p.points := by
  unfold Part.beginDrain
  split
  · simp only
    split
    · exact foldl_keeps Part.points (fun (q : Part) (a : Command × ResultStatus) => q.answerRefused a.1 a.2)
        (fun q a => Part.answerRefused_points a.1 a.2 q) _ _
    · rfl
  · rfl
@[simp] theorem Part.beginDrain_queue (p : Part) : (p.beginDrain).queue = p.queue := by
  unfold Part.beginDrain
  split
  · simp only
    split
    · exact foldl_keeps Part.queue (fun (q : Part) (a : Command × ResultStatus) => q.answerRefused a.1 a.2)
        (fun q a => Part.answerRefused_queue a.1 a.2 q) _ _
    · rfl
  · rfl
@[simp] theorem Part.beginDrain_routes (p : Part) : (p.beginDrain).routes = p.routes := by
  unfold Part.beginDrain
  split
  · simp only
    split
    · exact foldl_keeps Part.routes (fun (q : Part) (a : Command × ResultStatus) => q.answerRefused a.1 a.2)
        (fun q a => Part.answerRefused_routes a.1 a.2 q) _ _
    · rfl
  · rfl
@[simp] theorem Part.beginDrain_lines (p : Part) : (p.beginDrain).lines = p.lines := by
  unfold Part.beginDrain
  split
  · simp only
    split
    · exact foldl_keeps Part.lines (fun (q : Part) (a : Command × ResultStatus) => q.answerRefused a.1 a.2)
        (fun q a => Part.answerRefused_lines a.1 a.2 q) _ _
    · rfl
  · rfl
@[simp] theorem Part.beginDrain_arbiter (p : Part) : (p.beginDrain).arbiter = p.arbiter := by
  unfold Part.beginDrain
  split
  · simp only
    split
    · exact foldl_keeps Part.arbiter (fun (q : Part) (a : Command × ResultStatus) => q.answerRefused a.1 a.2)
        (fun q a => Part.answerRefused_arbiter a.1 a.2 q) _ _
    · rfl
  · rfl
@[simp] theorem Part.beginDrain_time (p : Part) : (p.beginDrain).time = p.time := by
  unfold Part.beginDrain
  split
  · simp only
    split
    · exact foldl_keeps Part.time (fun (q : Part) (a : Command × ResultStatus) => q.answerRefused a.1 a.2)
        (fun q a => Part.answerRefused_time a.1 a.2 q) _ _
    · rfl
  · rfl
@[simp] theorem Part.beginDrain_heartbeat (p : Part) : (p.beginDrain).heartbeat = p.heartbeat := by
  unfold Part.beginDrain
  split
  · simp only
    split
    · exact foldl_keeps Part.heartbeat (fun (q : Part) (a : Command × ResultStatus) => q.answerRefused a.1 a.2)
        (fun q a => Part.answerRefused_heartbeat a.1 a.2 q) _ _
    · rfl
  · rfl

@[simp] theorem Part.admitLog_mode (p : Part) : (p.admitLog).mode = p.mode := by
  unfold Part.admitLog
  split
  · split <;> rfl
  · rfl
@[simp] theorem Part.admitLog_straps (p : Part) : (p.admitLog).straps = p.straps := by
  unfold Part.admitLog
  split
  · split <;> rfl
  · rfl
@[simp] theorem Part.admitLog_mirrors (p : Part) : (p.admitLog).mirrors = p.mirrors := by
  unfold Part.admitLog
  split
  · split <;> rfl
  · rfl
@[simp] theorem Part.admitLog_points (p : Part) : (p.admitLog).points = p.points := by
  unfold Part.admitLog
  split
  · split <;> rfl
  · rfl
@[simp] theorem Part.admitLog_queue (p : Part) : (p.admitLog).queue = p.queue := by
  unfold Part.admitLog
  split
  · split <;> rfl
  · rfl
@[simp] theorem Part.admitLog_routes (p : Part) : (p.admitLog).routes = p.routes := by
  unfold Part.admitLog
  split
  · split <;> rfl
  · rfl
@[simp] theorem Part.admitLog_lines (p : Part) : (p.admitLog).lines = p.lines := by
  unfold Part.admitLog
  split
  · split <;> rfl
  · rfl
@[simp] theorem Part.admitLog_arbiter (p : Part) : (p.admitLog).arbiter = p.arbiter := by
  unfold Part.admitLog
  split
  · split <;> rfl
  · rfl
@[simp] theorem Part.admitLog_time (p : Part) : (p.admitLog).time = p.time := by
  unfold Part.admitLog
  split
  · split <;> rfl
  · rfl
@[simp] theorem Part.admitLog_heartbeat (p : Part) : (p.admitLog).heartbeat = p.heartbeat := by
  unfold Part.admitLog
  split
  · split <;> rfl
  · rfl
@[simp] theorem Part.admitLog_notice (p : Part) : (p.admitLog).notice = p.notice := by
  unfold Part.admitLog
  split
  · split <;> rfl
  · rfl

@[simp] theorem Part.complete_mode (st : ResultStatus) (p : Part) : (p.complete st).mode = p.mode := by
  unfold Part.complete
  split <;> simp
@[simp] theorem Part.complete_straps (st : ResultStatus) (p : Part) : (p.complete st).straps = p.straps := by
  unfold Part.complete
  split <;> simp
@[simp] theorem Part.complete_mirrors (st : ResultStatus) (p : Part) : (p.complete st).mirrors = p.mirrors := by
  unfold Part.complete
  split <;> simp
@[simp] theorem Part.complete_points (st : ResultStatus) (p : Part) : (p.complete st).points = p.points := by
  unfold Part.complete
  split <;> simp
@[simp] theorem Part.complete_queue (st : ResultStatus) (p : Part) : (p.complete st).queue = p.queue := by
  unfold Part.complete
  split <;> simp
@[simp] theorem Part.complete_routes (st : ResultStatus) (p : Part) : (p.complete st).routes = p.routes := by
  unfold Part.complete
  split <;> simp
@[simp] theorem Part.complete_lines (st : ResultStatus) (p : Part) : (p.complete st).lines = p.lines := by
  unfold Part.complete
  split <;> simp
@[simp] theorem Part.complete_arbiter (st : ResultStatus) (p : Part) : (p.complete st).arbiter = p.arbiter := by
  unfold Part.complete
  split <;> simp
@[simp] theorem Part.complete_time (st : ResultStatus) (p : Part) : (p.complete st).time = p.time := by
  unfold Part.complete
  split <;> simp
@[simp] theorem Part.complete_heartbeat (st : ResultStatus) (p : Part) : (p.complete st).heartbeat = p.heartbeat := by
  unfold Part.complete
  split <;> simp

@[simp] theorem Part.retrouble_mode (p : Part) : (p.retrouble).mode = p.mode := by
  unfold Part.retrouble
  split <;> rfl
@[simp] theorem Part.retrouble_straps (p : Part) : (p.retrouble).straps = p.straps := by
  unfold Part.retrouble
  split <;> rfl
@[simp] theorem Part.retrouble_bus (p : Part) : (p.retrouble).bus = p.bus := by
  unfold Part.retrouble
  split <;> rfl
@[simp] theorem Part.retrouble_mirrors (p : Part) : (p.retrouble).mirrors = p.mirrors := by
  unfold Part.retrouble
  split <;> rfl
@[simp] theorem Part.retrouble_points (p : Part) : (p.retrouble).points = p.points := by
  unfold Part.retrouble
  split <;> rfl
@[simp] theorem Part.retrouble_queue (p : Part) : (p.retrouble).queue = p.queue := by
  unfold Part.retrouble
  split <;> rfl
@[simp] theorem Part.retrouble_routes (p : Part) : (p.retrouble).routes = p.routes := by
  unfold Part.retrouble
  split <;> rfl
@[simp] theorem Part.retrouble_lines (p : Part) : (p.retrouble).lines = p.lines := by
  unfold Part.retrouble
  split <;> rfl
@[simp] theorem Part.retrouble_arbiter (p : Part) : (p.retrouble).arbiter = p.arbiter := by
  unfold Part.retrouble
  split <;> rfl
@[simp] theorem Part.retrouble_time (p : Part) : (p.retrouble).time = p.time := by
  unfold Part.retrouble
  split <;> rfl
@[simp] theorem Part.retrouble_heartbeat (p : Part) : (p.retrouble).heartbeat = p.heartbeat := by
  unfold Part.retrouble
  split <;> rfl

@[simp] theorem Part.settle_mode (old p : Part) : (Part.settle old p).mode = p.mode := by
  unfold Part.settle
  simp only
  split <;> simp
@[simp] theorem Part.settle_straps (old p : Part) : (Part.settle old p).straps = p.straps := by
  unfold Part.settle
  simp only
  split <;> simp
@[simp] theorem Part.settle_mirrors (old p : Part) : (Part.settle old p).mirrors = p.mirrors := by
  unfold Part.settle
  simp only
  split <;> simp
@[simp] theorem Part.settle_points (old p : Part) : (Part.settle old p).points = p.points := by
  unfold Part.settle
  simp only
  split <;> simp
@[simp] theorem Part.settle_queue (old p : Part) : (Part.settle old p).queue = p.queue := by
  unfold Part.settle
  simp only
  split <;> simp
@[simp] theorem Part.settle_routes (old p : Part) : (Part.settle old p).routes = p.routes := by
  unfold Part.settle
  simp only
  split <;> simp
@[simp] theorem Part.settle_lines (old p : Part) : (Part.settle old p).lines = p.lines := by
  unfold Part.settle
  simp only
  split <;> simp
@[simp] theorem Part.settle_arbiter (old p : Part) : (Part.settle old p).arbiter = p.arbiter := by
  unfold Part.settle
  simp only
  split <;> simp
@[simp] theorem Part.settle_time (old p : Part) : (Part.settle old p).time = p.time := by
  unfold Part.settle
  simp only
  split <;> simp
@[simp] theorem Part.settle_heartbeat (old p : Part) : (Part.settle old p).heartbeat = p.heartbeat := by
  unfold Part.settle
  simp only
  split <;> simp

@[simp] theorem Part.withRecords_mode (rs : List Record) (p : Part) : (p.withRecords rs).mode = p.mode := rfl
@[simp] theorem Part.withRecords_straps (rs : List Record) (p : Part) : (p.withRecords rs).straps = p.straps := rfl
@[simp] theorem Part.withRecords_bus (rs : List Record) (p : Part) : (p.withRecords rs).bus = p.bus := rfl
@[simp] theorem Part.withRecords_mirrors (rs : List Record) (p : Part) : (p.withRecords rs).mirrors = p.mirrors := rfl
@[simp] theorem Part.withRecords_points (rs : List Record) (p : Part) : (p.withRecords rs).points = p.points := rfl
@[simp] theorem Part.withRecords_routes (rs : List Record) (p : Part) : (p.withRecords rs).routes = p.routes := rfl
@[simp] theorem Part.withRecords_lines (rs : List Record) (p : Part) : (p.withRecords rs).lines = p.lines := rfl
@[simp] theorem Part.withRecords_arbiter (rs : List Record) (p : Part) : (p.withRecords rs).arbiter = p.arbiter := rfl
@[simp] theorem Part.withRecords_time (rs : List Record) (p : Part) : (p.withRecords rs).time = p.time := rfl
@[simp] theorem Part.withRecords_heartbeat (rs : List Record) (p : Part) :
    (p.withRecords rs).heartbeat = p.heartbeat := rfl
@[simp] theorem Part.withRecords_notice (rs : List Record) (p : Part) : (p.withRecords rs).notice = p.notice := rfl

@[simp] theorem Part.setRecords_mode (rs : List Record) (p : Part) : (p.setRecords rs).mode = p.mode := by
  unfold Part.setRecords
  simp only
  split <;> simp
@[simp] theorem Part.setRecords_straps (rs : List Record) (p : Part) : (p.setRecords rs).straps = p.straps := by
  unfold Part.setRecords
  simp only
  split <;> simp
@[simp] theorem Part.setRecords_mirrors (rs : List Record) (p : Part) : (p.setRecords rs).mirrors = p.mirrors := by
  unfold Part.setRecords
  simp only
  split <;> simp
@[simp] theorem Part.setRecords_points (rs : List Record) (p : Part) : (p.setRecords rs).points = p.points := by
  unfold Part.setRecords
  simp only
  split <;> simp
@[simp] theorem Part.setRecords_routes (rs : List Record) (p : Part) : (p.setRecords rs).routes = p.routes := by
  unfold Part.setRecords
  simp only
  split <;> simp
@[simp] theorem Part.setRecords_lines (rs : List Record) (p : Part) : (p.setRecords rs).lines = p.lines := by
  unfold Part.setRecords
  simp only
  split <;> simp
@[simp] theorem Part.setRecords_arbiter (rs : List Record) (p : Part) : (p.setRecords rs).arbiter = p.arbiter := by
  unfold Part.setRecords
  simp only
  split <;> simp
@[simp] theorem Part.setRecords_time (rs : List Record) (p : Part) : (p.setRecords rs).time = p.time := by
  unfold Part.setRecords
  simp only
  split <;> simp
@[simp] theorem Part.setRecords_heartbeat (rs : List Record) (p : Part) :
    (p.setRecords rs).heartbeat = p.heartbeat := by
  unfold Part.setRecords
  simp only
  split <;> simp
@[simp] theorem Part.setRecords_notice (rs : List Record) (p : Part) : (p.setRecords rs).notice = p.notice := by
  unfold Part.setRecords
  simp only
  split <;> simp

@[simp] theorem Part.changeRecord_mode (id : Nat) (f : Record → Record) (p : Part) :
    (p.changeRecord id f).mode = p.mode := by
  unfold Part.changeRecord
  simp
@[simp] theorem Part.changeRecord_straps (id : Nat) (f : Record → Record) (p : Part) :
    (p.changeRecord id f).straps = p.straps := by
  unfold Part.changeRecord
  simp
@[simp] theorem Part.changeRecord_mirrors (id : Nat) (f : Record → Record) (p : Part) :
    (p.changeRecord id f).mirrors = p.mirrors := by
  unfold Part.changeRecord
  simp
@[simp] theorem Part.changeRecord_points (id : Nat) (f : Record → Record) (p : Part) :
    (p.changeRecord id f).points = p.points := by
  unfold Part.changeRecord
  simp
@[simp] theorem Part.changeRecord_routes (id : Nat) (f : Record → Record) (p : Part) :
    (p.changeRecord id f).routes = p.routes := by
  unfold Part.changeRecord
  simp
@[simp] theorem Part.changeRecord_lines (id : Nat) (f : Record → Record) (p : Part) :
    (p.changeRecord id f).lines = p.lines := by
  unfold Part.changeRecord
  simp
@[simp] theorem Part.changeRecord_arbiter (id : Nat) (f : Record → Record) (p : Part) :
    (p.changeRecord id f).arbiter = p.arbiter := by
  unfold Part.changeRecord
  simp
@[simp] theorem Part.changeRecord_time (id : Nat) (f : Record → Record) (p : Part) :
    (p.changeRecord id f).time = p.time := by
  unfold Part.changeRecord
  simp
@[simp] theorem Part.changeRecord_heartbeat (id : Nat) (f : Record → Record) (p : Part) :
    (p.changeRecord id f).heartbeat = p.heartbeat := by
  unfold Part.changeRecord
  simp
@[simp] theorem Part.changeRecord_notice (id : Nat) (f : Record → Record) (p : Part) :
    (p.changeRecord id f).notice = p.notice := by
  unfold Part.changeRecord
  simp

@[simp] theorem Part.removeRecord_mode (id : Nat) (p : Part) : (p.removeRecord id).mode = p.mode := by
  unfold Part.removeRecord
  simp
@[simp] theorem Part.removeRecord_straps (id : Nat) (p : Part) : (p.removeRecord id).straps = p.straps := by
  unfold Part.removeRecord
  simp
@[simp] theorem Part.removeRecord_mirrors (id : Nat) (p : Part) : (p.removeRecord id).mirrors = p.mirrors := by
  unfold Part.removeRecord
  simp
@[simp] theorem Part.removeRecord_points (id : Nat) (p : Part) : (p.removeRecord id).points = p.points := by
  unfold Part.removeRecord
  simp
@[simp] theorem Part.removeRecord_routes (id : Nat) (p : Part) : (p.removeRecord id).routes = p.routes := by
  unfold Part.removeRecord
  simp
@[simp] theorem Part.removeRecord_lines (id : Nat) (p : Part) : (p.removeRecord id).lines = p.lines := by
  unfold Part.removeRecord
  simp
@[simp] theorem Part.removeRecord_arbiter (id : Nat) (p : Part) : (p.removeRecord id).arbiter = p.arbiter := by
  unfold Part.removeRecord
  simp
@[simp] theorem Part.removeRecord_time (id : Nat) (p : Part) : (p.removeRecord id).time = p.time := by
  unfold Part.removeRecord
  simp
@[simp] theorem Part.removeRecord_heartbeat (id : Nat) (p : Part) : (p.removeRecord id).heartbeat = p.heartbeat := by
  unfold Part.removeRecord
  simp
@[simp] theorem Part.removeRecord_notice (id : Nat) (p : Part) : (p.removeRecord id).notice = p.notice := by
  unfold Part.removeRecord
  simp

@[simp] theorem Part.replaceRecords_mode (rs : List Record) (p : Part) : (p.replaceRecords rs).mode = p.mode := by
  unfold Part.replaceRecords
  simp
@[simp] theorem Part.replaceRecords_straps (rs : List Record) (p : Part) : (p.replaceRecords rs).straps = p.straps := by
  unfold Part.replaceRecords
  simp
@[simp] theorem Part.replaceRecords_mirrors (rs : List Record) (p : Part) :
    (p.replaceRecords rs).mirrors = p.mirrors := by
  unfold Part.replaceRecords
  simp
@[simp] theorem Part.replaceRecords_points (rs : List Record) (p : Part) : (p.replaceRecords rs).points = p.points := by
  unfold Part.replaceRecords
  simp
@[simp] theorem Part.replaceRecords_routes (rs : List Record) (p : Part) : (p.replaceRecords rs).routes = p.routes := by
  unfold Part.replaceRecords
  simp
@[simp] theorem Part.replaceRecords_lines (rs : List Record) (p : Part) : (p.replaceRecords rs).lines = p.lines := by
  unfold Part.replaceRecords
  simp
@[simp] theorem Part.replaceRecords_arbiter (rs : List Record) (p : Part) :
    (p.replaceRecords rs).arbiter = p.arbiter := by
  unfold Part.replaceRecords
  simp
@[simp] theorem Part.replaceRecords_time (rs : List Record) (p : Part) : (p.replaceRecords rs).time = p.time := by
  unfold Part.replaceRecords
  simp
@[simp] theorem Part.replaceRecords_heartbeat (rs : List Record) (p : Part) :
    (p.replaceRecords rs).heartbeat = p.heartbeat := by
  unfold Part.replaceRecords
  simp
@[simp] theorem Part.replaceRecords_notice (rs : List Record) (p : Part) : (p.replaceRecords rs).notice = p.notice := by
  unfold Part.replaceRecords
  simp

@[simp] theorem Part.onShadow_mode (i : PointNo) (f : Shadow → Shadow) (p : Part) :
    (p.onShadow i f).mode = p.mode := rfl
@[simp] theorem Part.onShadow_straps (i : PointNo) (f : Shadow → Shadow) (p : Part) :
    (p.onShadow i f).straps = p.straps := rfl
@[simp] theorem Part.onShadow_bus (i : PointNo) (f : Shadow → Shadow) (p : Part) : (p.onShadow i f).bus = p.bus := rfl
@[simp] theorem Part.onShadow_mirrors (i : PointNo) (f : Shadow → Shadow) (p : Part) :
    (p.onShadow i f).mirrors = p.mirrors := rfl
@[simp] theorem Part.onShadow_queue (i : PointNo) (f : Shadow → Shadow) (p : Part) :
    (p.onShadow i f).queue = p.queue := rfl
@[simp] theorem Part.onShadow_routes (i : PointNo) (f : Shadow → Shadow) (p : Part) :
    (p.onShadow i f).routes = p.routes := rfl
@[simp] theorem Part.onShadow_lines (i : PointNo) (f : Shadow → Shadow) (p : Part) :
    (p.onShadow i f).lines = p.lines := rfl
@[simp] theorem Part.onShadow_arbiter (i : PointNo) (f : Shadow → Shadow) (p : Part) :
    (p.onShadow i f).arbiter = p.arbiter := rfl
@[simp] theorem Part.onShadow_time (i : PointNo) (f : Shadow → Shadow) (p : Part) :
    (p.onShadow i f).time = p.time := rfl
@[simp] theorem Part.onShadow_heartbeat (i : PointNo) (f : Shadow → Shadow) (p : Part) :
    (p.onShadow i f).heartbeat = p.heartbeat := rfl
@[simp] theorem Part.onShadow_notice (i : PointNo) (f : Shadow → Shadow) (p : Part) :
    (p.onShadow i f).notice = p.notice := rfl

@[simp] theorem Part.setOwed_mode (i : PointNo) (b : Bool) (p : Part) : (p.setOwed i b).mode = p.mode := rfl
@[simp] theorem Part.setOwed_straps (i : PointNo) (b : Bool) (p : Part) : (p.setOwed i b).straps = p.straps := rfl
@[simp] theorem Part.setOwed_bus (i : PointNo) (b : Bool) (p : Part) : (p.setOwed i b).bus = p.bus := rfl
@[simp] theorem Part.setOwed_mirrors (i : PointNo) (b : Bool) (p : Part) : (p.setOwed i b).mirrors = p.mirrors := rfl
@[simp] theorem Part.setOwed_queue (i : PointNo) (b : Bool) (p : Part) : (p.setOwed i b).queue = p.queue := rfl
@[simp] theorem Part.setOwed_routes (i : PointNo) (b : Bool) (p : Part) : (p.setOwed i b).routes = p.routes := rfl
@[simp] theorem Part.setOwed_lines (i : PointNo) (b : Bool) (p : Part) : (p.setOwed i b).lines = p.lines := rfl
@[simp] theorem Part.setOwed_arbiter (i : PointNo) (b : Bool) (p : Part) : (p.setOwed i b).arbiter = p.arbiter := rfl
@[simp] theorem Part.setOwed_time (i : PointNo) (b : Bool) (p : Part) : (p.setOwed i b).time = p.time := rfl
@[simp] theorem Part.setOwed_heartbeat (i : PointNo) (b : Bool) (p : Part) :
    (p.setOwed i b).heartbeat = p.heartbeat := rfl
@[simp] theorem Part.setOwed_notice (i : PointNo) (b : Bool) (p : Part) : (p.setOwed i b).notice = p.notice := rfl

@[simp] theorem Part.setFifo_mode (f : List Capture) (p : Part) : (p.setFifo f).mode = p.mode := rfl
@[simp] theorem Part.setFifo_straps (f : List Capture) (p : Part) : (p.setFifo f).straps = p.straps := rfl
@[simp] theorem Part.setFifo_bus (f : List Capture) (p : Part) : (p.setFifo f).bus = p.bus := rfl
@[simp] theorem Part.setFifo_mirrors (f : List Capture) (p : Part) : (p.setFifo f).mirrors = p.mirrors := rfl
@[simp] theorem Part.setFifo_queue (f : List Capture) (p : Part) : (p.setFifo f).queue = p.queue := rfl
@[simp] theorem Part.setFifo_routes (f : List Capture) (p : Part) : (p.setFifo f).routes = p.routes := rfl
@[simp] theorem Part.setFifo_lines (f : List Capture) (p : Part) : (p.setFifo f).lines = p.lines := rfl
@[simp] theorem Part.setFifo_arbiter (f : List Capture) (p : Part) : (p.setFifo f).arbiter = p.arbiter := rfl
@[simp] theorem Part.setFifo_time (f : List Capture) (p : Part) : (p.setFifo f).time = p.time := rfl
@[simp] theorem Part.setFifo_heartbeat (f : List Capture) (p : Part) : (p.setFifo f).heartbeat = p.heartbeat := rfl
@[simp] theorem Part.setFifo_notice (f : List Capture) (p : Part) : (p.setFifo f).notice = p.notice := rfl

@[simp] theorem Part.restatus_mode (i : PointNo) (p : Part) : (p.restatus i).mode = p.mode := by
  unfold Part.restatus
  split <;> simp
@[simp] theorem Part.restatus_straps (i : PointNo) (p : Part) : (p.restatus i).straps = p.straps := by
  unfold Part.restatus
  split <;> simp
@[simp] theorem Part.restatus_mirrors (i : PointNo) (p : Part) : (p.restatus i).mirrors = p.mirrors := by
  unfold Part.restatus
  split <;> simp
@[simp] theorem Part.restatus_queue (i : PointNo) (p : Part) : (p.restatus i).queue = p.queue := by
  unfold Part.restatus
  split <;> simp
@[simp] theorem Part.restatus_routes (i : PointNo) (p : Part) : (p.restatus i).routes = p.routes := by
  unfold Part.restatus
  split <;> simp
@[simp] theorem Part.restatus_lines (i : PointNo) (p : Part) : (p.restatus i).lines = p.lines := by
  unfold Part.restatus
  split <;> simp
@[simp] theorem Part.restatus_arbiter (i : PointNo) (p : Part) : (p.restatus i).arbiter = p.arbiter := by
  unfold Part.restatus
  split <;> simp
@[simp] theorem Part.restatus_time (i : PointNo) (p : Part) : (p.restatus i).time = p.time := by
  unfold Part.restatus
  split <;> simp
@[simp] theorem Part.restatus_heartbeat (i : PointNo) (p : Part) : (p.restatus i).heartbeat = p.heartbeat := by
  unfold Part.restatus
  split <;> simp
@[simp] theorem Part.restatus_notice (i : PointNo) (p : Part) : (p.restatus i).notice = p.notice := by
  unfold Part.restatus
  split <;> simp

@[simp] theorem Part.oweNow_mode (i : PointNo) (p : Part) : (p.oweNow i).mode = p.mode := by
  unfold Part.oweNow
  simp
@[simp] theorem Part.oweNow_straps (i : PointNo) (p : Part) : (p.oweNow i).straps = p.straps := by
  unfold Part.oweNow
  simp
@[simp] theorem Part.oweNow_mirrors (i : PointNo) (p : Part) : (p.oweNow i).mirrors = p.mirrors := by
  unfold Part.oweNow
  simp
@[simp] theorem Part.oweNow_queue (i : PointNo) (p : Part) : (p.oweNow i).queue = p.queue := by
  unfold Part.oweNow
  simp
@[simp] theorem Part.oweNow_routes (i : PointNo) (p : Part) : (p.oweNow i).routes = p.routes := by
  unfold Part.oweNow
  simp
@[simp] theorem Part.oweNow_lines (i : PointNo) (p : Part) : (p.oweNow i).lines = p.lines := by
  unfold Part.oweNow
  simp
@[simp] theorem Part.oweNow_arbiter (i : PointNo) (p : Part) : (p.oweNow i).arbiter = p.arbiter := by
  unfold Part.oweNow
  simp
@[simp] theorem Part.oweNow_time (i : PointNo) (p : Part) : (p.oweNow i).time = p.time := by
  unfold Part.oweNow
  simp
@[simp] theorem Part.oweNow_heartbeat (i : PointNo) (p : Part) : (p.oweNow i).heartbeat = p.heartbeat := by
  unfold Part.oweNow
  simp
@[simp] theorem Part.oweNow_notice (i : PointNo) (p : Part) : (p.oweNow i).notice = p.notice := by
  unfold Part.oweNow
  simp

@[simp] theorem Part.moveLine_mode (n : LineNo) (f : Line → Line) (p : Part) : (p.moveLine n f).mode = p.mode := by
  unfold Part.moveLine
  simp only
  split <;> simp
@[simp] theorem Part.moveLine_straps (n : LineNo) (f : Line → Line) (p : Part) :
    (p.moveLine n f).straps = p.straps := by
  unfold Part.moveLine
  simp only
  split <;> simp
@[simp] theorem Part.moveLine_mirrors (n : LineNo) (f : Line → Line) (p : Part) :
    (p.moveLine n f).mirrors = p.mirrors := by
  unfold Part.moveLine
  simp only
  split <;> simp
@[simp] theorem Part.moveLine_points (n : LineNo) (f : Line → Line) (p : Part) :
    (p.moveLine n f).points = p.points := by
  unfold Part.moveLine
  simp only
  split <;> simp
@[simp] theorem Part.moveLine_queue (n : LineNo) (f : Line → Line) (p : Part) : (p.moveLine n f).queue = p.queue := by
  unfold Part.moveLine
  simp only
  split <;> simp
@[simp] theorem Part.moveLine_routes (n : LineNo) (f : Line → Line) (p : Part) :
    (p.moveLine n f).routes = p.routes := by
  unfold Part.moveLine
  simp only
  split <;> simp
@[simp] theorem Part.moveLine_time (n : LineNo) (f : Line → Line) (p : Part) : (p.moveLine n f).time = p.time := by
  unfold Part.moveLine
  simp only
  split <;> simp
@[simp] theorem Part.moveLine_heartbeat (n : LineNo) (f : Line → Line) (p : Part) :
    (p.moveLine n f).heartbeat = p.heartbeat := by
  unfold Part.moveLine
  simp only
  split <;> simp
@[simp] theorem Part.moveLine_notice (n : LineNo) (f : Line → Line) (p : Part) :
    (p.moveLine n f).notice = p.notice := by
  unfold Part.moveLine
  simp only
  split <;> simp

@[simp] theorem Part.setHeartbeat_mode (t : Option Nat) (b : Bool) (p : Part) : (p.setHeartbeat t b).mode = p.mode := by
  unfold Part.setHeartbeat
  simp only
  split <;> simp
@[simp] theorem Part.setHeartbeat_straps (t : Option Nat) (b : Bool) (p : Part) :
    (p.setHeartbeat t b).straps = p.straps := by
  unfold Part.setHeartbeat
  simp only
  split <;> simp
@[simp] theorem Part.setHeartbeat_bus (t : Option Nat) (b : Bool) (p : Part) : (p.setHeartbeat t b).bus = p.bus := by
  unfold Part.setHeartbeat
  simp only
  split <;> simp
@[simp] theorem Part.setHeartbeat_mirrors (t : Option Nat) (b : Bool) (p : Part) :
    (p.setHeartbeat t b).mirrors = p.mirrors := by
  unfold Part.setHeartbeat
  simp only
  split <;> simp
@[simp] theorem Part.setHeartbeat_queue (t : Option Nat) (b : Bool) (p : Part) :
    (p.setHeartbeat t b).queue = p.queue := by
  unfold Part.setHeartbeat
  simp only
  split <;> simp
@[simp] theorem Part.setHeartbeat_routes (t : Option Nat) (b : Bool) (p : Part) :
    (p.setHeartbeat t b).routes = p.routes := by
  unfold Part.setHeartbeat
  simp only
  split <;> simp
@[simp] theorem Part.setHeartbeat_lines (t : Option Nat) (b : Bool) (p : Part) :
    (p.setHeartbeat t b).lines = p.lines := by
  unfold Part.setHeartbeat
  simp only
  split <;> simp
@[simp] theorem Part.setHeartbeat_arbiter (t : Option Nat) (b : Bool) (p : Part) :
    (p.setHeartbeat t b).arbiter = p.arbiter := by
  unfold Part.setHeartbeat
  simp only
  split <;> simp
@[simp] theorem Part.setHeartbeat_time (t : Option Nat) (b : Bool) (p : Part) : (p.setHeartbeat t b).time = p.time := by
  unfold Part.setHeartbeat
  simp only
  split <;> simp
@[simp] theorem Part.setHeartbeat_notice (t : Option Nat) (b : Bool) (p : Part) :
    (p.setHeartbeat t b).notice = p.notice := by
  unfold Part.setHeartbeat
  simp only
  split <;> simp

@[simp] theorem Part.enterTime_mode (p : Part) : (p.enterTime).mode = p.mode := by
  unfold Part.enterTime
  simp
@[simp] theorem Part.enterTime_straps (p : Part) : (p.enterTime).straps = p.straps := by
  unfold Part.enterTime
  simp
@[simp] theorem Part.enterTime_mirrors (p : Part) : (p.enterTime).mirrors = p.mirrors := by
  unfold Part.enterTime
  simp
@[simp] theorem Part.enterTime_points (p : Part) : (p.enterTime).points = p.points := by
  unfold Part.enterTime
  simp
@[simp] theorem Part.enterTime_queue (p : Part) : (p.enterTime).queue = p.queue := by
  unfold Part.enterTime
  simp
@[simp] theorem Part.enterTime_routes (p : Part) : (p.enterTime).routes = p.routes := by
  unfold Part.enterTime
  simp
@[simp] theorem Part.enterTime_lines (p : Part) : (p.enterTime).lines = p.lines := by
  unfold Part.enterTime
  simp
@[simp] theorem Part.enterTime_arbiter (p : Part) : (p.enterTime).arbiter = p.arbiter := by
  unfold Part.enterTime
  simp
@[simp] theorem Part.enterTime_time (p : Part) : (p.enterTime).time = p.time := by
  unfold Part.enterTime
  simp
@[simp] theorem Part.enterTime_heartbeat (p : Part) : (p.enterTime).heartbeat = p.heartbeat := by
  unfold Part.enterTime
  simp
@[simp] theorem Part.enterTime_notice (p : Part) : (p.enterTime).notice = p.notice := by
  unfold Part.enterTime
  simp

@[simp] theorem Part.withdraw_mode (r : Record) (p : Part) : (p.withdraw r).mode = p.mode := by
  unfold Part.withdraw
  simp
@[simp] theorem Part.withdraw_straps (r : Record) (p : Part) : (p.withdraw r).straps = p.straps := by
  unfold Part.withdraw
  simp
@[simp] theorem Part.withdraw_mirrors (r : Record) (p : Part) : (p.withdraw r).mirrors = p.mirrors := by
  unfold Part.withdraw
  simp
@[simp] theorem Part.withdraw_routes (r : Record) (p : Part) : (p.withdraw r).routes = p.routes := by
  unfold Part.withdraw
  simp
@[simp] theorem Part.withdraw_lines (r : Record) (p : Part) : (p.withdraw r).lines = p.lines := by
  unfold Part.withdraw
  simp
@[simp] theorem Part.withdraw_arbiter (r : Record) (p : Part) : (p.withdraw r).arbiter = p.arbiter := by
  unfold Part.withdraw
  simp
@[simp] theorem Part.withdraw_time (r : Record) (p : Part) : (p.withdraw r).time = p.time := by
  unfold Part.withdraw
  simp
@[simp] theorem Part.withdraw_heartbeat (r : Record) (p : Part) : (p.withdraw r).heartbeat = p.heartbeat := by
  unfold Part.withdraw
  simp

@[simp] theorem Part.withdrawPoint_mode (i : PointNo) (p : Part) :
    (p.withdrawPoint i).mode = p.mode := foldl_keeps Part.mode _ (fun q r => Part.withdraw_mode r q) _ p
@[simp] theorem Part.withdrawPoint_straps (i : PointNo) (p : Part) :
    (p.withdrawPoint i).straps = p.straps := foldl_keeps Part.straps _ (fun q r => Part.withdraw_straps r q) _ p
@[simp] theorem Part.withdrawPoint_mirrors (i : PointNo) (p : Part) :
    (p.withdrawPoint i).mirrors = p.mirrors := foldl_keeps Part.mirrors _ (fun q r => Part.withdraw_mirrors r q) _ p
@[simp] theorem Part.withdrawPoint_routes (i : PointNo) (p : Part) :
    (p.withdrawPoint i).routes = p.routes := foldl_keeps Part.routes _ (fun q r => Part.withdraw_routes r q) _ p
@[simp] theorem Part.withdrawPoint_lines (i : PointNo) (p : Part) :
    (p.withdrawPoint i).lines = p.lines := foldl_keeps Part.lines _ (fun q r => Part.withdraw_lines r q) _ p
@[simp] theorem Part.withdrawPoint_arbiter (i : PointNo) (p : Part) :
    (p.withdrawPoint i).arbiter = p.arbiter := foldl_keeps Part.arbiter _ (fun q r => Part.withdraw_arbiter r q) _ p
@[simp] theorem Part.withdrawPoint_time (i : PointNo) (p : Part) :
    (p.withdrawPoint i).time = p.time := foldl_keeps Part.time _ (fun q r => Part.withdraw_time r q) _ p
@[simp] theorem Part.withdrawPoint_heartbeat (i : PointNo) (p : Part) :
    (p.withdrawPoint i).heartbeat = p.heartbeat :=
    foldl_keeps Part.heartbeat _ (fun q r => Part.withdraw_heartbeat r q) _ p

@[simp] theorem Part.enterNext_mode (o : Owner) (off : Nat) (e : Part × List Nat) :
    (Part.enterNext o off e).1.mode = e.1.mode := by
  unfold Part.enterNext
  split <;> simp
@[simp] theorem Part.enterNext_straps (o : Owner) (off : Nat) (e : Part × List Nat) :
    (Part.enterNext o off e).1.straps = e.1.straps := by
  unfold Part.enterNext
  split <;> simp
@[simp] theorem Part.enterNext_mirrors (o : Owner) (off : Nat) (e : Part × List Nat) :
    (Part.enterNext o off e).1.mirrors = e.1.mirrors := by
  unfold Part.enterNext
  split <;> simp
@[simp] theorem Part.enterNext_points (o : Owner) (off : Nat) (e : Part × List Nat) :
    (Part.enterNext o off e).1.points = e.1.points := by
  unfold Part.enterNext
  split <;> simp
@[simp] theorem Part.enterNext_queue (o : Owner) (off : Nat) (e : Part × List Nat) :
    (Part.enterNext o off e).1.queue = e.1.queue := by
  unfold Part.enterNext
  split <;> simp
@[simp] theorem Part.enterNext_routes (o : Owner) (off : Nat) (e : Part × List Nat) :
    (Part.enterNext o off e).1.routes = e.1.routes := by
  unfold Part.enterNext
  split <;> simp
@[simp] theorem Part.enterNext_lines (o : Owner) (off : Nat) (e : Part × List Nat) :
    (Part.enterNext o off e).1.lines = e.1.lines := by
  unfold Part.enterNext
  split <;> simp
@[simp] theorem Part.enterNext_arbiter (o : Owner) (off : Nat) (e : Part × List Nat) :
    (Part.enterNext o off e).1.arbiter = e.1.arbiter := by
  unfold Part.enterNext
  split <;> simp
@[simp] theorem Part.enterNext_time (o : Owner) (off : Nat) (e : Part × List Nat) :
    (Part.enterNext o off e).1.time = e.1.time := by
  unfold Part.enterNext
  split <;> simp
@[simp] theorem Part.enterNext_heartbeat (o : Owner) (off : Nat) (e : Part × List Nat) :
    (Part.enterNext o off e).1.heartbeat = e.1.heartbeat := by
  unfold Part.enterNext
  split <;> simp
@[simp] theorem Part.enterNext_notice (o : Owner) (off : Nat) (e : Part × List Nat) :
    (Part.enterNext o off e).1.notice = e.1.notice := by
  unfold Part.enterNext
  split <;> simp

@[simp] theorem Part.countDelivery_mode (r : RouteNo) (leg : Leg) (e : Part × List Nat) :
    (Part.countDelivery r leg e).1.mode = e.1.mode := by
  unfold Part.countDelivery
  simp only
  repeat' split
  all_goals simp
@[simp] theorem Part.countDelivery_straps (r : RouteNo) (leg : Leg) (e : Part × List Nat) :
    (Part.countDelivery r leg e).1.straps = e.1.straps := by
  unfold Part.countDelivery
  simp only
  repeat' split
  all_goals simp
@[simp] theorem Part.countDelivery_mirrors (r : RouteNo) (leg : Leg) (e : Part × List Nat) :
    (Part.countDelivery r leg e).1.mirrors = e.1.mirrors := by
  unfold Part.countDelivery
  simp only
  repeat' split
  all_goals simp
@[simp] theorem Part.countDelivery_points (r : RouteNo) (leg : Leg) (e : Part × List Nat) :
    (Part.countDelivery r leg e).1.points = e.1.points := by
  unfold Part.countDelivery
  simp only
  repeat' split
  all_goals simp
@[simp] theorem Part.countDelivery_queue (r : RouteNo) (leg : Leg) (e : Part × List Nat) :
    (Part.countDelivery r leg e).1.queue = e.1.queue := by
  unfold Part.countDelivery
  simp only
  repeat' split
  all_goals simp
@[simp] theorem Part.countDelivery_lines (r : RouteNo) (leg : Leg) (e : Part × List Nat) :
    (Part.countDelivery r leg e).1.lines = e.1.lines := by
  unfold Part.countDelivery
  simp only
  repeat' split
  all_goals simp
@[simp] theorem Part.countDelivery_arbiter (r : RouteNo) (leg : Leg) (e : Part × List Nat) :
    (Part.countDelivery r leg e).1.arbiter = e.1.arbiter := by
  unfold Part.countDelivery
  simp only
  repeat' split
  all_goals simp
@[simp] theorem Part.countDelivery_time (r : RouteNo) (leg : Leg) (e : Part × List Nat) :
    (Part.countDelivery r leg e).1.time = e.1.time := by
  unfold Part.countDelivery
  simp only
  repeat' split
  all_goals simp
@[simp] theorem Part.countDelivery_heartbeat (r : RouteNo) (leg : Leg) (e : Part × List Nat) :
    (Part.countDelivery r leg e).1.heartbeat = e.1.heartbeat := by
  unfold Part.countDelivery
  simp only
  repeat' split
  all_goals simp

@[simp] theorem Part.removeDelivered_mode (id : Nat) (p : Part) : ((p.removeDelivered id).1).mode = p.mode := by
  unfold Part.removeDelivered
  simp
@[simp] theorem Part.removeDelivered_straps (id : Nat) (p : Part) : ((p.removeDelivered id).1).straps = p.straps := by
  unfold Part.removeDelivered
  simp
@[simp] theorem Part.removeDelivered_mirrors (id : Nat) (p : Part) :
    ((p.removeDelivered id).1).mirrors = p.mirrors := by
  unfold Part.removeDelivered
  simp
@[simp] theorem Part.removeDelivered_points (id : Nat) (p : Part) : ((p.removeDelivered id).1).points = p.points := by
  unfold Part.removeDelivered
  simp
@[simp] theorem Part.removeDelivered_routes (id : Nat) (p : Part) : ((p.removeDelivered id).1).routes = p.routes := by
  unfold Part.removeDelivered
  simp
@[simp] theorem Part.removeDelivered_lines (id : Nat) (p : Part) : ((p.removeDelivered id).1).lines = p.lines := by
  unfold Part.removeDelivered
  simp
@[simp] theorem Part.removeDelivered_arbiter (id : Nat) (p : Part) :
    ((p.removeDelivered id).1).arbiter = p.arbiter := by
  unfold Part.removeDelivered
  simp
@[simp] theorem Part.removeDelivered_time (id : Nat) (p : Part) : ((p.removeDelivered id).1).time = p.time := by
  unfold Part.removeDelivered
  simp
@[simp] theorem Part.removeDelivered_heartbeat (id : Nat) (p : Part) :
    ((p.removeDelivered id).1).heartbeat = p.heartbeat := by
  unfold Part.removeDelivered
  simp
@[simp] theorem Part.removeDelivered_notice (id : Nat) (p : Part) : ((p.removeDelivered id).1).notice = p.notice := by
  unfold Part.removeDelivered
  simp

@[simp] theorem Part.latchAs_mode (i : PointNo) (b : Bool) (p : Part) : (p.latchAs i b).mode = p.mode := by
  unfold Part.latchAs
  split <;> rfl
@[simp] theorem Part.latchAs_straps (i : PointNo) (b : Bool) (p : Part) : (p.latchAs i b).straps = p.straps := by
  unfold Part.latchAs
  split <;> rfl
@[simp] theorem Part.latchAs_bus (i : PointNo) (b : Bool) (p : Part) : (p.latchAs i b).bus = p.bus := by
  unfold Part.latchAs
  split <;> rfl
@[simp] theorem Part.latchAs_mirrors (i : PointNo) (b : Bool) (p : Part) : (p.latchAs i b).mirrors = p.mirrors := by
  unfold Part.latchAs
  split <;> rfl
@[simp] theorem Part.latchAs_queue (i : PointNo) (b : Bool) (p : Part) : (p.latchAs i b).queue = p.queue := by
  unfold Part.latchAs
  split <;> rfl
@[simp] theorem Part.latchAs_routes (i : PointNo) (b : Bool) (p : Part) : (p.latchAs i b).routes = p.routes := by
  unfold Part.latchAs
  split <;> rfl
@[simp] theorem Part.latchAs_lines (i : PointNo) (b : Bool) (p : Part) : (p.latchAs i b).lines = p.lines := by
  unfold Part.latchAs
  split <;> rfl
@[simp] theorem Part.latchAs_arbiter (i : PointNo) (b : Bool) (p : Part) : (p.latchAs i b).arbiter = p.arbiter := by
  unfold Part.latchAs
  split <;> rfl
@[simp] theorem Part.latchAs_time (i : PointNo) (b : Bool) (p : Part) : (p.latchAs i b).time = p.time := by
  unfold Part.latchAs
  split <;> rfl
@[simp] theorem Part.latchAs_heartbeat (i : PointNo) (b : Bool) (p : Part) :
    (p.latchAs i b).heartbeat = p.heartbeat := by
  unfold Part.latchAs
  split <;> rfl
@[simp] theorem Part.latchAs_notice (i : PointNo) (b : Bool) (p : Part) : (p.latchAs i b).notice = p.notice := by
  unfold Part.latchAs
  split <;> rfl

@[simp] theorem Part.admission_mode (rq : Request) (p : Part) : (p.admission rq).mode = p.mode := by
  unfold Part.admission
  simp
@[simp] theorem Part.admission_straps (rq : Request) (p : Part) : (p.admission rq).straps = p.straps := by
  unfold Part.admission
  simp
@[simp] theorem Part.admission_mirrors (rq : Request) (p : Part) : (p.admission rq).mirrors = p.mirrors := by
  unfold Part.admission
  simp
@[simp] theorem Part.admission_points (rq : Request) (p : Part) : (p.admission rq).points = p.points := by
  unfold Part.admission
  simp
@[simp] theorem Part.admission_routes (rq : Request) (p : Part) : (p.admission rq).routes = p.routes := by
  unfold Part.admission
  simp
@[simp] theorem Part.admission_lines (rq : Request) (p : Part) : (p.admission rq).lines = p.lines := by
  unfold Part.admission
  simp
@[simp] theorem Part.admission_time (rq : Request) (p : Part) : (p.admission rq).time = p.time := by
  unfold Part.admission
  simp
@[simp] theorem Part.admission_heartbeat (rq : Request) (p : Part) : (p.admission rq).heartbeat = p.heartbeat := by
  unfold Part.admission
  simp
@[simp] theorem Part.admission_notice (rq : Request) (p : Part) : (p.admission rq).notice = p.notice := by
  unfold Part.admission
  simp

@[simp] theorem Part.refuse_mode (rq : Request) (p : Part) : (p.refuse rq).mode = p.mode := by
  unfold Part.refuse
  simp
@[simp] theorem Part.refuse_straps (rq : Request) (p : Part) : (p.refuse rq).straps = p.straps := by
  unfold Part.refuse
  simp
@[simp] theorem Part.refuse_mirrors (rq : Request) (p : Part) : (p.refuse rq).mirrors = p.mirrors := by
  unfold Part.refuse
  simp
@[simp] theorem Part.refuse_points (rq : Request) (p : Part) : (p.refuse rq).points = p.points := by
  unfold Part.refuse
  simp
@[simp] theorem Part.refuse_queue (rq : Request) (p : Part) : (p.refuse rq).queue = p.queue := by
  unfold Part.refuse
  simp
@[simp] theorem Part.refuse_routes (rq : Request) (p : Part) : (p.refuse rq).routes = p.routes := by
  unfold Part.refuse
  simp
@[simp] theorem Part.refuse_lines (rq : Request) (p : Part) : (p.refuse rq).lines = p.lines := by
  unfold Part.refuse
  simp
@[simp] theorem Part.refuse_arbiter (rq : Request) (p : Part) : (p.refuse rq).arbiter = p.arbiter := by
  unfold Part.refuse
  simp
@[simp] theorem Part.refuse_time (rq : Request) (p : Part) : (p.refuse rq).time = p.time := by
  unfold Part.refuse
  simp
@[simp] theorem Part.refuse_heartbeat (rq : Request) (p : Part) : (p.refuse rq).heartbeat = p.heartbeat := by
  unfold Part.refuse
  simp

@[simp] theorem Part.refresh_mode (o : Option Intended) (i : PointNo) (p : Part) : (p.refresh o i).mode = p.mode := by
  unfold Part.refresh
  repeat' split
  all_goals simp
@[simp] theorem Part.refresh_straps (o : Option Intended) (i : PointNo) (p : Part) :
    (p.refresh o i).straps = p.straps := by
  unfold Part.refresh
  repeat' split
  all_goals simp
@[simp] theorem Part.refresh_bus (o : Option Intended) (i : PointNo) (p : Part) : (p.refresh o i).bus = p.bus := by
  unfold Part.refresh
  repeat' split
  all_goals simp
@[simp] theorem Part.refresh_mirrors (o : Option Intended) (i : PointNo) (p : Part) :
    (p.refresh o i).mirrors = p.mirrors := by
  unfold Part.refresh
  repeat' split
  all_goals simp
@[simp] theorem Part.refresh_queue (o : Option Intended) (i : PointNo) (p : Part) :
    (p.refresh o i).queue = p.queue := by
  unfold Part.refresh
  repeat' split
  all_goals simp
@[simp] theorem Part.refresh_routes (o : Option Intended) (i : PointNo) (p : Part) :
    (p.refresh o i).routes = p.routes := by
  unfold Part.refresh
  repeat' split
  all_goals simp
@[simp] theorem Part.refresh_lines (o : Option Intended) (i : PointNo) (p : Part) :
    (p.refresh o i).lines = p.lines := by
  unfold Part.refresh
  repeat' split
  all_goals simp
@[simp] theorem Part.refresh_arbiter (o : Option Intended) (i : PointNo) (p : Part) :
    (p.refresh o i).arbiter = p.arbiter := by
  unfold Part.refresh
  repeat' split
  all_goals simp
@[simp] theorem Part.refresh_time (o : Option Intended) (i : PointNo) (p : Part) : (p.refresh o i).time = p.time := by
  unfold Part.refresh
  repeat' split
  all_goals simp
@[simp] theorem Part.refresh_heartbeat (o : Option Intended) (i : PointNo) (p : Part) :
    (p.refresh o i).heartbeat = p.heartbeat := by
  unfold Part.refresh
  repeat' split
  all_goals simp
@[simp] theorem Part.refresh_notice (o : Option Intended) (i : PointNo) (p : Part) :
    (p.refresh o i).notice = p.notice := by
  unfold Part.refresh
  repeat' split
  all_goals simp

end Sys2Proof.Machine
end

