-- ==== Sys2Proof/Laws/State.lean ====
section
/-! SUPPORT. What each update of a field gives. -/

namespace Sys2Proof.Machine

@[simp] theorem Part.line_setLine (n : LineNo) (l : Line) (p : Part) : (p.setLine n l).line n = l := by
  simp [Part.line, Part.setLine]

theorem Part.line_setLine_ne {n m : LineNo} (h : m ≠ n) (l : Line) (p : Part) : (p.setLine n l).line m = p.line m := by
  have : n.val ≠ m.val := fun e => h (Fin.ext e.symm)
  simp [Part.line, Part.setLine, Vector.getElem_set, this]

@[simp] theorem Part.shadow_setShadow (i : PointNo) (s : Shadow) (p : Part) : (p.setShadow i s).shadow i = s := by
  simp [Part.shadow, Part.setShadow]

theorem Part.shadow_setShadow_ne {i j : PointNo} (h : j ≠ i) (s : Shadow) (p : Part) :
    (p.setShadow i s).shadow j = p.shadow j := by
  have : i.val ≠ j.val := fun e => h (Fin.ext e.symm)
  simp [Part.shadow, Part.setShadow, Vector.getElem_set, this]

@[simp] theorem Part.route_setRoute (r : RouteNo) (v : Route) (p : Part) : (p.setRoute r v).route r = v := by
  simp [Part.route, Part.setRoute]

theorem Part.route_setRoute_ne {r k : RouteNo} (h : k ≠ r) (v : Route) (p : Part) :
    (p.setRoute r v).route k = p.route k := by
  have : r.val ≠ k.val := fun e => h (Fin.ext e.symm)
  simp [Part.route, Part.setRoute, Vector.getElem_set, this]

@[simp] theorem Part.offers_setOffer (n : LineNo) (o : Option Offer) (p : Part) :
    (p.setOffer n o).arbiter.offers[n] = o := by
  simp [Part.setOffer]

@[simp] theorem Part.mode_setMode (m : Mode) (p : Part) : (p.setMode m).mode = m := rfl

@[simp] theorem Part.occasion_decisionPending (p : Part) : p.occasion.arbiter.decisionPending = true := rfl

@[simp] theorem Part.occasion_offers (p : Part) : p.occasion.arbiter.offers = p.arbiter.offers := rfl

@[simp] theorem Part.occasion_formations (p : Part) : p.occasion.arbiter.formations = p.arbiter.formations := rfl

@[simp] theorem Part.tell_work (w : Work) (p : Part) : (p.tell w).points.work = p.points.work ++ [w] := rfl

@[simp] theorem Part.tell_shadows (w : Work) (p : Part) : (p.tell w).points.shadows = p.points.shadows := rfl

@[simp] theorem Part.tell_fifo (w : Work) (p : Part) : (p.tell w).points.fifo = p.points.fifo := rfl

@[simp] theorem Part.tell_overrun (w : Work) (p : Part) : (p.tell w).points.overrun = p.points.overrun := rfl

@[simp] theorem Part.withRecords_records (rs : List Record) (p : Part) : (p.withRecords rs).queue.records = rs := rfl

@[simp] theorem Part.withRecords_clock (rs : List Record) (p : Part) :
    (p.withRecords rs).queue.clock = p.queue.clock := rfl

@[simp] theorem Part.latchAs_latch (b : Bool) (p : Part) : (p.latchAs 262 b).points.latch = b := rfl

@[simp] theorem Part.latchAs_shadows (i : PointNo) (b : Bool) (p : Part) :
    (p.latchAs i b).points.shadows = p.points.shadows := by
  unfold Part.latchAs
  split <;> rfl

@[simp] theorem Part.latchAs_work (i : PointNo) (b : Bool) (p : Part) :
    (p.latchAs i b).points.work = p.points.work := by
  unfold Part.latchAs
  split <;> rfl

@[simp] theorem Part.setRecords_records (rs : List Record) (p : Part) : (p.setRecords rs).queue.records = rs := by
  unfold Part.setRecords
  simp only
  split <;> simp

@[simp] theorem Part.setRecords_clock (rs : List Record) (p : Part) :
    (p.setRecords rs).queue.clock = p.queue.clock := by
  unfold Part.setRecords
  simp only
  split <;> simp

@[simp] theorem Part.setFifo_fifo (f : List Capture) (p : Part) : (p.setFifo f).points.fifo = f := rfl

/-- A line is named by its lines: a block that keeps the lines keeps each. -/
theorem Part.line_of_lines {p q : Part} (h : q.lines = p.lines) (n : LineNo) : q.line n = p.line n := by
  simp [Part.line, h]

theorem Part.shadow_of_points {p q : Part} (h : q.points = p.points) (i : PointNo) : q.shadow i = p.shadow i := by
  simp [Part.shadow, h]

/-- The line a move leaves. -/
@[simp] theorem Part.line_moveLine (n : LineNo) (f : Line → Line) (p : Part) :
    (p.moveLine n f).line n = f (p.line n) := by
  unfold Part.moveLine
  simp only
  split
  · simp
  · rw [Part.line_of_lines (Part.occasion_lines _), Part.line_of_lines (Part.enter_lines _ _ _), Part.line_setLine]

theorem Part.line_moveLine_ne {n m : LineNo} (h : m ≠ n) (f : Line → Line) (p : Part) :
    (p.moveLine n f).line m = p.line m := by
  unfold Part.moveLine
  simp only
  split
  · exact Part.line_setLine_ne h _ _
  · rw [Part.line_of_lines (Part.occasion_lines _), Part.line_of_lines (Part.enter_lines _ _ _),
      Part.line_setLine_ne h]

/-- A shadow update at one point. -/
@[simp] theorem Part.shadow_onShadow (i : PointNo) (f : Shadow → Shadow) (p : Part) :
    (p.onShadow i f).shadow i = f (p.shadow i) := by
  simp [Part.onShadow]

theorem Part.shadow_onShadow_ne {i j : PointNo} (h : j ≠ i) (f : Shadow → Shadow) (p : Part) :
    (p.onShadow i f).shadow j = p.shadow j := Part.shadow_setShadow_ne h _ _

/-- A step of a part that works, and of one that does not. -/
theorem Part.work_of_live {f : Part → Part} {p : Part} (h : p.mode.live = true) : p.work f = Part.settle p (f p) := by
  simp [Part.work, h]

theorem Part.work_of_not_live {f : Part → Part} {p : Part} (h : p.mode.live = false) : p.work f = p := by
  simp [Part.work, h]

theorem Part.serve_of_serving {f : Part → Part} {p : Part} (h : p.mode.serving = true) :
    p.serve f = Part.settle p (f p) := by
  simp [Part.serve, h]

theorem Part.serve_of_not_serving {f : Part → Part} {p : Part} (h : p.mode.serving = false) : p.serve f = p := by
  simp [Part.serve, h]

theorem Mode.live_of_serving {m : Mode} (h : m.serving = true) : m.live = true := by
  cases m <;> simp_all [Mode.serving, Mode.live]

end Sys2Proof.Machine
end

