-- ==== Sys2Proof/Laws/Bus.lean ====
section
/-! SUPPORT. What entering an address, settling after a step, and beginning a panel cycle do, said once. -/

namespace Sys2Proof.Machine

/-! ### Entries -/

theorem Bus.keepsButEntries_refl (b : Bus) : b.keepsButEntries b := ⟨rfl, rfl, rfl, rfl, rfl, List.prefix_rfl⟩

theorem Bus.keepsButEntries_trans {a b c : Bus} (h : a.keepsButEntries b) (k : b.keepsButEntries c) :
    a.keepsButEntries c :=
  ⟨k.1.trans h.1, k.2.1.trans h.2.1, k.2.2.1.trans h.2.2.1, k.2.2.2.1.trans h.2.2.2.1,
    k.2.2.2.2.1.trans h.2.2.2.2.1, h.2.2.2.2.2.trans k.2.2.2.2.2⟩

/-- Entering an address loses none and touches nothing of the Bus Path but the entries. -/
theorem Part.enter_entries (o : Owner) (off : Nat) (p : Part) : p.bus.keepsButEntries (p.enter o off).bus := by
  unfold Part.enter
  split
  · exact Bus.keepsButEntries_refl _
  split
  · exact Bus.keepsButEntries_refl _
  split
  · exact ⟨rfl, rfl, rfl, rfl, rfl, List.prefix_append _ _⟩
  · exact ⟨rfl, rfl, rfl, rfl, rfl, List.prefix_rfl⟩

theorem Part.enterAll_entries (o : Owner) (offs : List Nat) (p : Part) :
    p.bus.keepsButEntries (p.enterAll o offs).bus := by
  unfold Part.enterAll
  induction offs generalizing p with
  | nil => exact Bus.keepsButEntries_refl _
  | cons a as ih => exact Bus.keepsButEntries_trans (Part.enter_entries o a p) (ih _)

/-- An address entered when it is not there yet, no owner waits and a place is free is the newest (R12). -/
theorem Part.enter_wbq {o : Owner} {off : Nat} {p : Part} (hm : p.mode.live = true)
    (hc : off ∉ p.bus.wbq) (hw : p.bus.wbWait = []) (hl : p.bus.wbq.length < Config.writeBackPlaces) :
    (p.enter o off).bus.wbq = p.bus.wbq ++ [off] := by
  simp [Part.enter, hm, hc, hw, hl]

/-- An address that is there keeps its place (R12). -/
theorem Part.enter_present {o : Owner} {off : Nat} {p : Part} (hc : off ∈ p.bus.wbq) : p.enter o off = p := by
  simp [Part.enter, hc]

/-- The bound of the queue survives an entry (R12). -/
theorem Part.enter_bounded {o : Owner} {off : Nat} {p : Part}
    (h : p.bus.wbq.length ≤ Config.writeBackPlaces ∧ p.bus.wbq.Nodup) :
    (p.enter o off).bus.wbq.length ≤ Config.writeBackPlaces ∧ (p.enter o off).bus.wbq.Nodup := by
  unfold Part.enter
  split
  · exact h
  rename_i hc
  split
  · exact h
  split
  · rename_i hp
    have hn : off ∉ p.bus.wbq := by
      simp only [Bool.or_eq_true, not_or] at hc
      simpa using hc.2
    refine ⟨by simpa using hp.2, ?_⟩
    exact List.Nodup.append h.2 (by simp) (by simpa using hn)
  · exact h

/-- The next address of one piece of work is entered, or left for later behind those already left (R12). -/
theorem Part.enterNext_eq (o : Owner) (off : Nat) (e : Part × List Nat) :
    Part.enterNext o off e = (e.1.enter o off, e.2) ∨ Part.enterNext o off e = (e.1, e.2 ++ [off]) := by
  unfold Part.enterNext
  split
  · exact .inl rfl
  · exact .inr rfl

theorem Part.enterNext_entries (o : Owner) (off : Nat) (e : Part × List Nat) :
    e.1.bus.keepsButEntries (Part.enterNext o off e).1.bus := by
  rcases Part.enterNext_eq o off e with h | h <;> rw [h]
  · exact Part.enter_entries o off e.1
  · exact Bus.keepsButEntries_refl _

/-! ### The drain of a RESTART and a waiting capture of RELOAD -/

/-- Without a RESTART nothing is drained, and what is drained already does not begin again (R20). -/
theorem Part.beginDrain_of {p : Part} (h : ∀ es before later, p.bus.drain ≠ some (.finishing es before later)) :
    p.beginDrain = p := by
  unfold Part.beginDrain
  split
  · rename_i es before later hd
    exact absurd hd (h es before later)
  · rfl

/-- Without a RESTART a refused command has its result at once (R176). -/
theorem Part.answerRefused_of {p : Part} (h : p.bus.drain = none) (c : Command) (st : ResultStatus) :
    p.answerRefused c st = p.finalResult c st := by
  simp [Part.answerRefused, h]

/-- RELOAD goes on only where a capture of it waits (R44). -/
theorem Part.reloadResume_of {p : Part} (h : p.mirrors.waitsSince = none) : p.reloadResume = p := by
  unfold Part.reloadResume
  split
  · rename_i hr
    simp [Mirrors.waitsSince, hr] at h
  · rfl

/-- A capture of RELOAD that still has to wait goes on waiting (R44). -/
theorem Part.reloadResume_waits {p : Part} {next : Nat} {w : WaitingCapture}
    (h : p.mirrors.reload = some { next, waiting := some w }) (hw : p.reloadReady w = false) : p.reloadResume = p := by
  simp [Part.reloadResume, h, hw]

/-! ### Settling -/

theorem Notice.keepsButTrouble_refl (n : Notice) : n.keepsButTrouble n := ⟨rfl, rfl, rfl, rfl, rfl⟩

theorem Notice.keepsButTrouble_trans {a b c : Notice} (h : a.keepsButTrouble b) (k : b.keepsButTrouble c) :
    a.keepsButTrouble c :=
  ⟨k.1.trans h.1, k.2.1.trans h.2.1, k.2.2.1.trans h.2.2.1, k.2.2.2.1.trans h.2.2.2.1, k.2.2.2.2.trans h.2.2.2.2⟩

theorem Part.retrouble_trouble (p : Part) : p.notice.keepsButTrouble p.retrouble.notice := by
  unfold Part.retrouble
  split <;> exact ⟨rfl, rfl, rfl, rfl, rfl⟩

/-- Settling touches the entries of the write-back queue and the trouble pattern only. -/
theorem Part.settle_entries (old p : Part) : p.bus.keepsButEntries (Part.settle old p).bus := by
  unfold Part.settle
  simp only
  split
  · rw [Part.retrouble_bus]; exact Bus.keepsButEntries_refl _
  · have := Part.enter_entries .windowMirrors 0x017 p.retrouble
    rwa [Part.retrouble_bus] at this

theorem Part.settle_trouble (old p : Part) : p.notice.keepsButTrouble (Part.settle old p).notice := by
  unfold Part.settle
  simp only
  split
  · exact Part.retrouble_trouble p
  · rw [Part.enter_notice]; exact Part.retrouble_trouble p

theorem Part.settle_keeps (old p : Part) : p.keepsBut [.bus, .notice] (Part.settle old p) := by
  intro b hb
  cases b <;> simp [Block.same] at hb ⊢

/-- A part whose trouble pattern is current and whose status word has not changed is settled. -/
theorem Part.settle_of_current {old p : Part} (h : p.troubleDue = p.notice.trouble)
    (hs : p.statusWord = old.statusWord) : Part.settle old p = p := by
  have hr : p.retrouble = p := by simp [Part.retrouble, h]
  simp [Part.settle, hr, hs]

/-! ### Panel cycles -/

theorem State.setHold_none {s : State} (h : s.part.bus.hold = none) : s.setHold none = s := by
  obtain ⟨mem, up, part, pending⟩ := s
  obtain ⟨mode, straps, bus, mirrors, points, queue, routes, lines, arbiter, time, heartbeat, notice⟩ := part
  obtain ⟨wbq, wbWait, staging, stagePos, logWait, tickets, hold, drain⟩ := bus
  simp only at h
  subst h
  rfl

/-- A write that begins while the bus is free and that does not wait for a place in the FIFO is made at once. -/
theorem State.begin_write {s : State} {a : Addr} {w : Word} (hm : s.part.mode.live = true) (hb : s.busFree)
    (hs : s.part.stalls (.write a w) = false) : s.begin (.write a w) = s.writeWord a w := by
  unfold State.begin
  have h1 := State.setHold_none hb.1
  cases hmode : s.part.mode <;> simp_all [Mode.live, State.undriven, State.attempt, State.make, State.busFree]

/-- A read that begins while the bus is free shows the overlay at once. -/
theorem State.begin_read {s : State} {a : Addr} (hm : s.part.mode.live = true) (hb : s.busFree) :
    s.begin (.read a) = { s with upData := some (s.shown a) } := by
  unfold State.begin
  have h1 := State.setHold_none hb.1
  cases hmode : s.part.mode <;>
    simp_all [Mode.live, State.undriven, State.attempt, State.make, State.busFree, Part.stalls, State.shown]

/-- The address of an offset of the window names that offset. -/
theorem State.toNat_address (s : State) {off : Nat} (h : off < 4096) :
    (s.address off).toNat = windowBase s.part.straps + off := by
  have hw : s.part.straps.wsel.toNat < 32 := s.part.straps.wsel.isLt
  simp only [State.address, windowBase, BitVec.toNat_ofNat]
  omega

theorem State.windowOffset_address (s : State) {off : Nat} (h : off < 4096) :
    windowOffset s.part.straps (s.address off).toNat = some off := by
  rw [State.toNat_address s h]
  simp only [windowOffset]
  rw [if_pos (by omega)]
  congr 1
  omega

/-- A panel write to a window offset, begun while the bus is free, is made at once: memory receives the word by
ownership class, and the mirrors' owners take it (R4, R5). -/
theorem State.panelWriteAt_eq {s : State} {off : Nat} {w : Word} (hoff : off < 4096) (hm : s.part.mode.live = true)
    (hb : s.busFree) (hs : s.part.stalls (.write (s.address off) w) = false) :
    s.panelWriteAt off w =
      { s with
        mem := s.mem.write (windowBase s.part.straps + off) ((s.part.clearByWrite off w).downstream off w)
        part := Part.settle s.part ((s.part.clearByWrite off w).takeWrite off w) } := by
  unfold State.panelWriteAt
  rw [State.begin_write hm hb hs]
  unfold State.writeWord
  rw [State.windowOffset_address s hoff, State.toNat_address s hoff]
  simp only [Part.work_of_live hm]

/-- Only a write of word w0 of a point entry waits for a place in the FIFO (R16). -/
theorem Part.stalls_eq_false {p : Part} {off : Nat} {w : Word} {s : State} (hp : s.part = p) (hoff : off < 4096)
    (h : p.captures off w = false) : p.stalls (.write (s.address off) w) = false := by
  subst hp
  simp [Part.stalls, State.windowOffset_address s hoff, h]

end Sys2Proof.Machine
end

