-- ==== Sys2Proof/Laws/Points.lean ====
section
/-! SUPPORT. What committed is (R40), that taking a delivery leaves it as it is (log 39), and when no point is owed. -/

namespace Sys2Proof.Machine

/-- With no piece of work waiting, what a point has delivered is what its shadow entry holds. -/
theorem Points.delivered_idle {q : Points} (h : q.work = []) (i : PointNo) :
    q.delivered i = (q.shadows[i].delivered.sense, q.shadows[i].delivered.code) := by
  simp [Points.delivered, h]

/-- With no piece of work waiting, committed is the newest record's, else the delivered part's (R40). -/
theorem Part.committed_idle {p : Part} (h : p.points.work = []) (i : PointNo) :
    p.committed i = match p.queue.records.reverse.find? (·.point = i) with
      | some r => (r.sense.code, r.code)
      | none => ((p.shadow i).delivered.sense, (p.shadow i).delivered.code) := by
  simp only [Part.committed, Points.delivered_idle h, Part.shadow] <;> rfl

/-- A delivery that waits, of an ACTIVE or NORMAL report, is what its point has delivered unless a later one waits too. -/
theorem Points.delivered_waiting {q : Points} {i : PointNo} {sense : BitVec 2} {code : BitVec 10} {fold : BitVec 4}
    {words : List Nat} {before after : List Work} (hs : sense = 1 ∨ sense = 2)
    (h : q.work = before ++ .delivery i sense code fold words :: after)
    (hn : ∀ w ∈ after, w.delivers i = none) : q.delivered i = (sense, code) := by
  have hn' : after.reverse.findSome? (Work.delivers i) = none := by
    simpa [List.findSome?_eq_none_iff] using hn
  have hd : Work.delivers i (.delivery i sense code fold words) = some (sense, code) := by
    simp only [Work.delivers, true_and]
    exact if_pos hs
  simp [Points.delivered, h, List.findSome?_append, hn', hd]

/-- With no shadow entry OWED, the sweep has no next point (R58). -/
theorem Points.nextOwed_none {q : Points} (h : q.shadows.toList.all (fun e => !e.owed) = true) : q.nextOwed = none := by
  have h' : ∀ i : PointNo, q.shadows[i.val].owed = false := fun i => by
    have := List.all_eq_true.mp h q.shadows[i.val] (by simp)
    simpa using this
  have hf : (List.finRange 264).find? (fun _ => false) = none := List.find?_eq_none.mpr (by simp)
  simp [Points.nextOwed, h', hf]

end Sys2Proof.Machine
end

