-- ==== Sys2Proof/Laws/Idle.lean ====
section
/-! SUPPORT. When nothing is left before the next ms of time. -/

namespace Sys2Proof.Machine

/-- The first of the part's own steps before the owed sweep. -/
def State.nextUnswept (s : State) : Option Instr :=
  firstOf
    [onlyIf (s.part.mode.live && s.part.bus.canAdmit) .writeBackEntryAdmitted,
     onlyIf (s.part.mode.live && s.part.bus.canStage) .logRecordAdmitted,
     onlyIf (s.part.mode.live && s.part.canEndHold) .waitHoldEnd,
     onlyIf (s.part.mode.live && s.part.bus.drained) .restartDrainDone,
     s.part.nextWork,
     s.part.nextOffer,
     onlyIf (s.part.mode.serving && s.part.arbiter.decisionPending) .decision,
     s.nextInserted]

/-- The owed sweep is the last of the part's own steps. -/
theorem State.nextOwn_eq (s : State) : s.nextOwn = s.nextUnswept.or
    (onlyIf (s.part.mode.serving && s.part.maySweep && s.part.points.nextOwed.isSome) .owedSweepStep) := by
  simp only [State.nextOwn, State.nextUnswept, firstOf]
  rw [show ∀ a b c d e f g h i : Option Instr, [a, b, c, d, e, f, g, h, i] = [a, b, c, d, e, f, g, h] ++ [i] from
    fun _ _ _ _ _ _ _ _ _ => rfl, List.findSome?_append]
  simp

/-- Nothing is left before the next ms when no step before the owed sweep can be taken and no point is owed. -/
theorem State.nextOwn_none {s : State} (h : s.nextUnswept = none)
    (ho : s.part.points.shadows.toList.all (fun e => !e.owed) = true) : s.nextOwn = none := by
  simp [State.nextOwn_eq, h, Points.nextOwed_none ho, onlyIf]

end Sys2Proof.Machine
end

