-- ==== Sys2Proof/Tests/Slice0.lean ====
section
/-! SUPPORT. Tests: what the well-formedness check refuses, one step of every command on a small state, and a state and
operands that meet the hypotheses of every statement. -/

namespace Sys2Proof.Tests

open Sys2Proof Sys2Proof.Machine

set_option Elab.async false

/-! ### Small states -/

/-- The state a command leaves. -/
def run (c : Instr) (s : State) : State :=
  match exec c s with
  | .next t => t
  | .fault _ | .refused _ => s

/-- Mirrors of a small configuration: start-on-load with group action 3, heartbeat period 30 s, test minute 120 and interval
7, lines with barge threshold 3, every cause enabled, eight virtual records, routes 0 and 1 to destination 0, its entry with
account 482117 and dial string 1 WAIT PAUSE *, two state codes of class 0, points 17 and 40 enabled. -/
def conf : List (Nat × Word) :=
  [(0x002, 7), (0x004, 30), (0x005, 2), (0x006, 120), (0x007, 7), (0x008, 7), (0x009, 7), (0x00A, 0x27), (0x00B, 7),
    (0x014, 0x3FF), (0x050, 0x15), (0x051, 900), (0x054, 0x15), (0x055, 901), (0x058, 0x15), (0x059, 902),
    (0x068, 0x15), (0x069, 906), (0x06C, 0x15), (0x06D, 907), (0x070, 0x1281), (0x071, 0x0A1E), (0x074, 0x1281),
    (0x075, 0x0A1E), (0x076, 0xC000)] ++
  [(0x0B0, 0x9F), (0x0B1, 0x4821), (0x0B2, 0x1700), (0x0B3, 0x1DCA), (0x402, 0x2E), (0x403, 310), (0x40A, 0x25),
    (0x40B, 110), (0x844, 0x101), (0x8A0, 0x105)]

/-- A part in a mode with the small configuration, its queues empty. -/
def base (m : Mode) : State :=
  { State.reset with part := { Part.atReset with
    mode := m
    bus := Bus.empty
    mirrors := { Mirrors.empty with
      words := conf.foldl (fun w e => Memory.write w e.1 e.2) []
      valid := Vector.replicate 8 true }
    notice := { Part.atReset.notice with heads := some { alloc := 4, shown := 4 }, resultStatus := .done } } }

def onPart (f : Part → Part) (s : State) : State := { s with part := f s.part }
def onBus (f : Bus → Bus) (s : State) : State := onPart (fun p => { p with bus := f p.bus }) s
def onPoints (f : Points → Points) (s : State) : State := onPart (fun p => { p with points := f p.points }) s
def onNotice (f : Notice → Notice) (s : State) : State := onPart (fun p => { p with notice := f p.notice }) s
def onTime (f : TimeBase → TimeBase) (s : State) : State := onPart (fun p => { p with time := f p.time }) s
def onMirrors (f : Mirrors → Mirrors) (s : State) : State := onPart (fun p => { p with mirrors := f p.mirrors }) s
def onLine (n : LineNo) (f : Line → Line) (s : State) : State := onPart (fun p => p.setLine n (f (p.line n))) s
def onShadow (i : PointNo) (f : Shadow → Shadow) (s : State) : State := onPart (Part.onShadow i f) s
def mirrored (off : Nat) (w : Word) (s : State) : State := onPart (Part.setMirror off w) s
def withRecords (rs : List Record) (s : State) : State :=
  onPart (fun p => { p with queue := { p.queue with records := rs, nextId := 99 } }) s
def withWork (w : Work) (s : State) : State := onPoints (fun q => { q with work := [w] }) s
def withFifo (n : Nat) (s : State) : State :=
  onPoints (fun q => { q with fifo := List.replicate n { point := 40, code := 6 } }) s
def withOffer (n : LineNo) (k : OfferKind) (id : Nat) (s : State) : State :=
  onPart (Part.setOffer n (some { kind := k, records := [id], dest := 0, priority := 1 })) s
def withClock (k : Nat) (s : State) : State := onPart (fun p => { p with queue := { p.queue with clock := k } }) s
def busy (code : BitVec 4) (s : State) : State := onNotice (fun n => { n with inProgress := some { code, tag := 9 } }) s

def running : State := base .running
def stopped : State := base .stopped
def unconfigured : State := base .unconfigured |> onNotice fun n => { n with trouble := .steady }
def loading (next : Nat) : State := base .loading |> onMirrors fun m => { m with load := some { kind := .xrst, next } }
def reloading (next : Nat) : State :=
  busy 4 running |> onMirrors fun m => { m with reload := some { next, waiting := none } }
/-- Mirrors of 000H and 001H with which the configuration check passes. -/
def configured (s : State) : State :=
  let s := mirrored 0x001 0 (mirrored 0x000 0x6C5A s)
  mirrored 0x001 (0 - ((List.range 16).map s.part.mirror).sum) s
def powered (m : Mode) : State := { State.reset with part := { Part.atReset with mode := m } }

/-- A record of point 40: ACTIVE, event code 110, priority 1, route 1, WAITING in slot 0. -/
def record : Record :=
  { id := 3, slot := 0, point := 40, sense := .active, code := 110, priority := 1, route := 1, unrouted := false
    fold := 0, state := .waiting, leg := .primary, attempts := 0, cycles := 0, retry := none, holdUntil := none
    created := { day := 0, minute := 0, second := 5 }, call := none }

def heldRecord : Record := { record with state := .held, holdUntil := some 600 }
def joined : Record := { record with state := .assigned, call := some { line := 1, position := 1 } }
def second : Record := { record with id := 5, slot := 1, point := 17, priority := 0 }

/-- A NORMAL record of point 40, admitted after it. -/
def normalRecord : Record := { record with id := 5, slot := 1, sense := .normal }

/-- A queue of 64 records, of points 100 to 163. -/
def filled : List Record :=
  (List.finRange 64).map fun k => { record with id := k.val, slot := k, point := Fin.ofNat 264 (100 + k.val) }

/-- A call to destination 0 with the report of slot 0. -/
def call : Call :=
  { dest := 0, account := [4, 8, 2, 1, 1, 7], dial := [.digit 1, .wait, .pause, .star], dialPos := 0, reports := [0]
    priority := 1, mark := 0, endMark := false, phase := .none, current := none, sequence := 0, sends := 0
    delivered := 0, symbols := [] }

/-- Line 1 carries a call in a state; the call's record is the only one. -/
def calling (st : LineState) (c : Call) : State :=
  withRecords [joined] running |> onLine 1 fun l => { l with state := st, call := some c, timer := some 0 }

/-- Line 1 is in a state without a call. -/
def lineIn (st : LineState) : State := running |> onLine 1 fun l => { l with state := st, timer := some 0 }

/-- Every line in its guard; line 1 in office use; line 1 ringing with a call of a less urgent report. -/
def noLine : State :=
  let guard (l : Line) : Line := { l with state := .release }
  onLine 0 guard (onLine 1 guard (onLine 2 guard (onLine 3 guard (withRecords [record] running))))
def oneOffice : State := onLine 1 (fun l => { l with state := .office }) noLine
def lessUrgent : Call := { call with priority := 5, reports := [60] }
def oneRinging : State := onLine 1 (fun l => { l with state := .ringback, call := some lessUrgent }) noLine

/-- Line 1 in the last ms of its interval. -/
def lastMs (s : State) : State := onLine 1 (fun l => { l with timer := some 1 }) s

/-- A live part with nothing left before the next ms, each of a list. -/
theorem leavesNothing_of {l : List State} (h : ∀ s ∈ l, s.pending = [] ∧ s.part.mode.live = true ∧ s.nextUnswept = none ∧
      s.part.points.shadows.toList.all (fun e => !e.owed) = true) :
    ∀ s ∈ l, s.pending = [] ∧ s.part.mode.live = true ∧ s.nextOwn = none :=
  fun s hs => ⟨(h s hs).1, (h s hs).2.1, State.nextOwn_none (h s hs).2.2.1 (h s hs).2.2.2⟩

/-! ### Well-formedness -/

/-- UNKNOWN_COMMAND with the code of a command is refused by the check, at both ends of the codes. -/
theorem test_wellFormed_refuses_known_code :
    Instr.wellFormed (.unknownCommand 1 0 0) = false ∧ Instr.wellFormed (.unknownCommand 10 0 0) = false ∧
      Instr.wellFormed (.unknownCommand 0 0 0) = true ∧ Instr.wellFormed (.unknownCommand 11 0 0) = true := by decide

/-- ACCESSED_FLAG_CLEAR that writes a 1 to the flag is refused by the check. -/
theorem test_wellFormed_refuses_flag_kept :
    Instr.wellFormed (.accessedFlagClear 0 1) = false ∧ Instr.wellFormed (.accessedFlagClear 0 6) = true := by decide

/-- No row of the table gives bits. -/
theorem test_no_word_spells_a_command : decodeTableWord 16 0 = none ∧ State.reset.withFetchWord 16 0 = State.reset :=
  ⟨rfl, rfl⟩

/-! ### One step of each command -/

/-- POWER_ON of a part without power, with the straps at their pull-downs, gives the reset state of the part. -/
theorem test_powerOn :
    (run (.powerOn strapsPulledDown) (powered .off)).part = Part.atReset ∧
      (run (.powerOn { wsel := 1, stall := false, bypass := true }) running).part.mode = .bypass := by decide +kernel

theorem test_powerLoss : (run .powerLoss running).part.mode = .off ∧
    (run .powerLoss (calling .linked call)).part.seize 1 = false := by decide +kernel

theorem test_xrstAssert : (run .xrstAssert running).part.mode = .xrst ∧ (run .xrstAssert running).part.troubleOut = true ∧
    (run .xrstAssert (calling .dialing call)).part.hook 1 = false := by decide +kernel

theorem test_xrstRelease :
    (run (.xrstRelease { wsel := 31, stall := true, bypass := false }) (powered .xrst)).part.mode = .loading ∧
    (run (.xrstRelease { wsel := 31, stall := true, bypass := false }) (powered .xrst)).address 0xFFF = 0x1FFFF ∧
    (run (.xrstRelease { wsel := 0, stall := false, bypass := true }) (powered .xrst)).part.mode = .bypass := by
  decide +kernel

theorem test_panelWrite :
    (run (.panelWrite .cycle 0x1000 0xBEEF) running).mem = [(0x1000, 0xBEEF)] ∧
    (run (.panelWrite .cycle 0x017 0xFFFF) running).mem = [(0x017, 3)] ∧
    (run (.panelWrite .both 0x1000 0xBEEF) running).mem = [] := by decide +kernel

theorem test_panelWrite_group :
    (run (.panelWrite .cycle 0x042 0x8001) (mirrored 0x002 5 running)).part.points.work = [.group .rescan [32, 47]] ∧
    (run (.panelWrite .cycle 0x042 0x8001) running).part.points.work = [] := by decide +kernel

theorem test_panelRead :
    (run (.panelRead .cycle 0x017) running).upData = some 3 ∧
    (run (.panelRead .cycle 0x01A) (onTime (fun t => { t with day := 500 }) running)).upData = some 500 ∧
    (run (.panelRead .cycle 0x015) running).upData = some 4 ∧ (run (.panelRead .both 0) running).upData = none := by
  decide +kernel

theorem test_waitHoldEnd :
    (run .waitHoldEnd (onBus (fun b => { b with hold := some { cycle := .read 0x017, before := 0, stalled := none } })
      running)).upData = some 3 ∧
    (run .waitHoldEnd (onBus (fun b => { b with hold := some { cycle := .read 0x017, before := 0, stalled := none } })
      running)).part.waitOut = false := by decide +kernel

theorem test_heldCycleAbandoned :
    (run .heldCycleAbandoned (onBus (fun b => { b with
      hold := some { cycle := .write 0x020 5, before := 0, stalled := none } }) running)).part.bus = Bus.empty ∧
    (run .heldCycleAbandoned (onBus (fun b => { b with
      hold := some { cycle := .write 0x020 5, before := 0, stalled := none } }) running)).mem = [] := by decide +kernel

theorem test_writeBack :
    (run .writeBack (onBus (fun b => { b with wbq := [0x017, 0x018] }) running)).mem = [(0x017, 3)] ∧
    (run .writeBack (onBus (fun b => { b with wbq := [0x017, 0x018] }) running)).part.bus.wbq = [0x018] := by
  decide +kernel

theorem test_writeBackEntryAdmitted :
    (run .writeBackEntryAdmitted (onBus (fun b => { b with
      wbWait := [{ owner := .timeBase, ticket := 0, first := 0x01A, later := [0x01B] }] }) running)).part.bus.wbq =
      [0x01A, 0x01B] := by decide +kernel

theorem test_logStagingWrite :
    (run .logStagingWrite (onBus (fun b => { b with
      staging := [{ slot := 31, record := { kind := .command, attempts := 9 } }], stagePos := 3 }) running)).mem =
        [(0x27F, 9)] ∧
    (run .logStagingWrite (onBus (fun b => { b with
      staging := [{ slot := 31, record := { kind := .command } }], stagePos := 3 }) running)).part.notice.heads =
        some { alloc := 4, shown := 0 } := by decide +kernel

/-- LOGWRAP is raised as the shown head comes to the tail, here 0. -/
theorem test_logwrap :
    (run .logStagingWrite (onBus (fun b => { b with
      staging := [{ slot := 31, record := { kind := .command } }], stagePos := 3 }) running)).part.notice.causes =
        Cause.logwrap.bits := by decide +kernel

theorem test_logRecordAdmitted :
    (run .logRecordAdmitted (onBus (fun b => { b with
      logWait := [(0, { slot := 4, record := { kind := .command } })] }) running)).part.bus.staging.map (·.slot) = [4] := by
  decide +kernel

theorem test_loadRead :
    (run .loadRead { loading 0 with mem := [(0x000, 0x6C5A)] }).part.mirror 0x000 = 0x6C5A ∧
    (run .loadRead (loading 22)).part.mode = .unconfigured ∧
    (run .loadRead (loading 22)).part.notice.causes = Cause.loadfail.bits := by decide +kernel

theorem test_loadRead_ends :
    ((Part.rebuildPoints (loading 1471).part).shadow 40).owed = true ∧
    ((loading 1471).part.loadTake 0x015 32).notice.heads = some { alloc := 0, shown := 0 } := by decide +kernel

theorem test_reloadRead :
    (run .reloadRead { reloading 711 with mem := [(0x8A0, 0x101)] }).part.points.fifo = [{ point := 40, code := 1 }] ∧
    (run .reloadRead (withFifo 16 { reloading 711 with mem := [(0x8A0, 0x101)] })).part.mirrors.reload =
      some { next := 711, waiting := some { since := 0, capture := { point := 40, code := 1 } } } ∧
    (run .reloadRead (reloading 22)).part.mode = .unconfigured ∧
    (run .reloadRead (reloading 926)).part.notice.resultStatus = .done := by decide +kernel

theorem test_setTimeRead :
    (run .setTimeRead { busy 7 unconfigured with
      part := { (busy 7 unconfigured).part with mirrors := { Mirrors.empty with timeReads := some [600, 1439] } } }).part.time =
      { Part.atReset.time with day := 600, minute := 1439 } := by decide +kernel

theorem test_start : (run (.start 7 0) stopped).part.mode = .running ∧ (run (.start 7 0) stopped).part.notice.resultTag = 7 ∧
    (run (.start 7 0) stopped).mem = [(0x010, 0x0107)] ∧
    (run (.start 7 0) (loading 3)).part.notice.resultStatus = .refusedState := by decide +kernel

theorem test_stop : (run (.stop 8 0) running).part.mode = .stopped ∧
    (run (.stop 8 0) (busy 4 running)).part.notice.resultStatus = .refusedBusy := by decide +kernel

theorem test_abortCalls :
    ((run (.abortCalls 1 0) (calling .ringback call)).part.line 1).state = .release ∧
    (run (.abortCalls 1 0) (calling .ringback call)).part.queue.records = [record] ∧
    (run (.abortCalls 1 0) (calling .ringback call)).part.bus.logged.map (·.kind) = [.aborted, .command] := by
  decide +kernel

theorem test_reload :
    (run (.reload 1 0) running).part.mirrors.reload = some { next := 0, waiting := none } ∧
    (run (.reload 1 0) unconfigured).part.mode = .loading ∧
    (run (.reload 1 0) running).part.notice.resultStatus = .inProgress := by decide +kernel

theorem test_adoptBaseline :
    (run (.adoptBaseline 1 0) (withRecords [record] stopped)).part.points.todo.head? = some (.baseline 16) ∧
    (run (.adoptBaseline 1 0) running).part.notice.resultStatus = .refusedState := by decide +kernel

/-- The first points of ADOPT BASELINE: intended from the condition of virtual point 256 and its record, and the owed mark of a
point whose record in a call has another code. -/
theorem test_baseline_of_a_point :
    let s := onPart (fun p => { p with heartbeat := { timer := none, silent := true } }) (withRecords
      [{ joined with point := 256, code := 310 }, { joined with id := 4, slot := 1, point := 257, sense := .normal }] stopped)
    let t := onPart (fun p => (p.baseline 256).baseline 257) s
    ((t.part.shadow 256).intended.sense, (t.part.shadow 256).intended.code, (t.part.shadow 256).owed) = (1, 900, true) ∧
    ((t.part.shadow 257).delivered.sense, (t.part.shadow 257).owed) = (2, false) := by decide +kernel

theorem test_testCall :
    (run (.testCall 1 0) (mirrored 0x011 16 running)).part.points.work = [.test 1 true] ∧
    (run (.testCall 1 0) (mirrored 0x011 17 running)).part.notice.resultStatus = .badArgument := by decide +kernel

theorem test_setTime :
    (run (.setTime 1 0) (mirrored 0x01D 600 (mirrored 0x01E 60 running))).part.time.nextTest = some 600 ∧
    (run (.setTime 1 0) (onBus (fun b => { b with wbq := (List.range 28).map (0xA00 + ·) }) running)).part.bus.wbq.drop 28 =
      [0x012, 0x01A, 0x01B, 0x01C] ∧
    (run (.setTime 1 0) (mirrored 0x01E 1440 running)).part.notice.resultStatus = .badArgument := by decide +kernel

theorem test_clearTrouble :
    (let s := run (.clearTrouble 1 0) (onPoints (fun q => { q with latch := true })
      (onShadow 262 (fun x => { x with delivered := { sense := 1, fold := 0, code := 906 } }) running))
    s.part.points.latch = false ∧ s.part.queue.records.map (fun r => (r.point, r.sense)) = [(262, .normal)] ∧
      s.part.notice.resultStatus = .done ∧ s.part.bus.logged.map (·.kind) = [.command]) ∧
    (run (.clearTrouble 1 0) (onPoints (fun q => { q with latch := true, overrun := true }) running)).part.points.latch =
      true := by decide +kernel

theorem test_releaseHeld :
    (run (.releaseHeld 1 0) (withRecords [heldRecord] running)).part.queue.records = [record] ∧
    (run (.releaseHeld 1 0) (withRecords [heldRecord] running)).part.notice.trouble = .off := by decide +kernel

theorem test_restart :
    (run (.restart 33 0) running).part.bus.drain = some (.draining 1 [0x012, 0x013] false) ∧
    (run (.restart 33 0) running).part.notice.inProgress = some { code := 10, tag := 33 } := by decide +kernel

/-- On a full queue the drain begins when 012H and 013H have entered, with what has entered before them. A command refused
meanwhile has its result kept: 012H is written as the DONE of the RESTART. -/
theorem test_restart_full :
    let full := onBus (fun b => { b with wbq := (List.range 32).map (0x801 + 4 * ·) }) running
    let room (s : State) : State := onBus (fun b => { b with wbq := b.wbq.tail }) s
    let refused := run (.stop 8 0) (room (run (.restart 33 0) full))
    let first := run .writeBackEntryAdmitted refused
    let last := run .writeBackEntryAdmitted (room first)
    refused.part.bus.drain = some (.finishing [0x012, 0x013] 1 [({ code := 2, tag := 8 }, .refusedBusy)]) ∧
    first.part.bus.drain = some (.finishing [0x013] 1 [({ code := 2, tag := 8 }, .refusedBusy)]) ∧
    last.part.bus.drain = some (.draining 1 last.part.bus.wbq false) ∧ last.part.notice.resultStatus = .refusedBusy ∧
    last.part.backWord 0x012 = 0x0121 ∧ last.part.backWord 0x013 = 0x080 := by decide +kernel

theorem test_unknownCommand :
    (run (.unknownCommand 15 3 0) running).part.notice.resultStatus = .unknown ∧
    (run (.unknownCommand 0 3 0) (loading 3)).part.notice.resultStatus = .unknown := by decide +kernel

theorem test_restartDrainDone :
    (run .restartDrainDone (onBus (fun b => { b with drain := some (.draining 0 [] false) })
      (busy 10 running))).part.mirrors.load = some { kind := .restart, next := 0 } ∧
    (run .restartDrainDone (onBus (fun b => { b with drain := some (.draining 1 [] false) })
      running)).part.mode = .running := by decide +kernel

theorem test_causeWordWrite :
    (run (.causeWordWrite 0x080) (onNotice (fun n => { n with causes := 0x0C0 }) running)).mem = [(0x013, 0x040)] := by
  decide +kernel

theorem test_causeEnableWrite :
    (run (.causeEnableWrite 0) (onNotice (fun n => { n with causes := 0x0C0 }) running)).part.irq = false ∧
    (onNotice (fun n => { n with causes := 0x0C0 }) running).part.irq = true := by decide +kernel

theorem test_heartbeat :
    (run (.heartbeat 0) (onPart (fun p => { p with heartbeat := { timer := none, silent := true } }) running)).part.heartbeat
      = { timer := some 0, silent := false } := by decide +kernel

theorem test_heartbeatPeriodChange :
    (run (.heartbeatPeriodChange 0) (onPart (fun p => { p with heartbeat := { timer := none, silent := true } })
      running)).part.points.work = [.condition 256 false] ∧
    (run (.heartbeatPeriodChange 30) running).part.heartbeat = running.part.heartbeat := by decide +kernel

theorem test_batteryThresholdChange :
    (run (.batteryThresholdChange 3) running).part.arbiter.decisionPending = true ∧
    (run (.batteryThresholdChange 0xFF02) running).part.arbiter.decisionPending = false := by decide +kernel

theorem test_testScheduleChange :
    (run (.testScheduleChange .minute 1) running).part.time.nextTest = some 0 ∧
    (run (.testScheduleChange .interval 0) running).part.time.nextTest = none := by decide +kernel

theorem test_logTailWrite : (run (.logTailWrite 31) running).part.logTail = 31 ∧
    (run (.logTailWrite 32) running).part.logTail = 0 := by decide +kernel

theorem test_lineEnableChange :
    ((run (.lineEnableChange 1 0) running).part.line 1).state = .disabled ∧
    ((run (.lineEnableChange 1 0) (calling .breaking call)).part.line 1).disablePending = true := by decide +kernel

theorem test_routeDescriptorWrite :
    (run (.routeDescriptorWrite 0 .w0 0x1381) (withRecords [{ record with unrouted := true }] running)).part.queue.records
      = [record] ∧
    (run (.routeDescriptorWrite 1 .w1 5) running).part.arbiter.decisionPending = false := by decide +kernel

theorem test_budgetWrite : ((run (.budgetWrite 1 1023) running).part.route 1).budget = 999 ∧
    (run (.budgetWrite 1 0) running).part.arbiter.decisionPending = false := by decide +kernel

theorem test_accessedFlagClear :
    (run (.accessedFlagClear 1 0) (onPart (Part.setRoute 1 { Route.empty with accessed := true, spent := true })
      running)).mem = [(0x077, 4)] := by decide +kernel

theorem test_directoryWrite :
    (run (.directoryWrite 0 1 0xA821) running).part.mirrors.valid[(0 : Fin 8)] = false ∧
    (run (.directoryWrite 0 2 0x1701) running).part.arbiter.decisionPending = false := by decide +kernel

theorem test_pointEntryWrite :
    (run (.pointEntryWrite 40 0x106) running).part.points.fifo = [{ point := 40, code := 6 }] ∧
    (run (.pointEntryWrite 40 0x006) running).part.points.work = [.disable 40] ∧
    (run (.pointEntryWrite 255 0x106) running).part.points.work = [.enable 255] := by decide +kernel

theorem test_pointEntryWrite_overrun :
    (run (.pointEntryWrite 17 0x106) (withFifo 16 running)).part.points.overrun = true ∧
    (run (.pointEntryWrite 17 0x106) (withFifo 16 running)).part.points.work = [.condition 262 true] ∧
    (run (.pointEntryWrite 17 0x106) (withFifo 16 running)).part.notice.trouble = .pulsed := by decide +kernel

theorem test_pointDisable :
    (run .pointDisable (withWork (.disable 40) (withRecords [record] running))).part.queue.records = [] ∧
    (run .pointDisable (withWork (.disable 40) (withRecords [record] running))).part.bus.logged.map (·.kind) =
      [.withdrawn] := by decide +kernel

theorem test_pointEnable :
    ((run .pointEnable (withWork (.enable 40) running)).part.shadow 40).owed = true ∧
    ((run .pointEnable (withWork (.enable 40) running)).part.shadow 40).intended =
      { sense := 1, code := 110, priority := 1, route := 1, unrouted := false } := by decide +kernel

theorem test_isolate :
    ((run .isolate (withWork (.group .isolate [40, 17]) running)).part.shadow 17).isolated = true ∧
    ((run .isolate (withWork (.group .isolate [40]) (mirrored 0x002 0x17 running))).part.shadow 40).isolated = false := by
  decide +kernel

theorem test_deisolate :
    ((run .deisolate (withWork (.group .deisolate [40]) (onShadow 40 (fun x => { x with isolated := true })
      running))).part.shadow 40).isolated = false ∧
    ((run .deisolate (withWork (.group .deisolate [40]) running)).part.shadow 40).status = 3 := by decide +kernel

theorem test_rescan :
    ((run .rescan (withWork (.group .rescan [40]) running)).part.shadow 40).owed = true ∧
    ((run .rescan (withWork (.group .rescan [41]) running)).part.shadow 41).owed = false := by decide +kernel

theorem test_fifoEntryTaken :
    (run .fifoEntryTaken (onPoints (fun q => { q with fifo := [{ point := 40, code := 5 }] })
      running)).part.queue.records.map (fun r => (r.point, r.sense, r.code, r.slot)) = [(40, .active, 110, 0)] ∧
    (run .fifoEntryTaken (onPoints (fun q => { q with fifo := [{ point := 40, code := 9 }] })
      running)).part.queue.records = [] := by decide +kernel

theorem test_owedSweepStep :
    (run .owedSweepStep (onShadow 40 (fun x => { x with owed := true }) running)).part.queue.records.map (·.code) = [110] ∧
    (run .owedSweepStep (onShadow 262 (fun x => { x with owed := true }) running)).part.points.sweepPos = 0 := by
  decide +kernel

theorem test_conditionChange :
    (run .conditionChange (withWork (.condition 262 true) running)).part.queue.records.map (fun r => (r.point, r.code)) =
      [(262, 906)] ∧
    (run .conditionChange (withWork (.condition 262 false) running)).part.queue.records = [] := by decide +kernel

theorem test_testRequest :
    (run .testRequest (withWork (.test 1 true) (busy 6 running))).part.queue.records.map (fun r => (r.point, r.sense)) =
      [(263, .test)] ∧
    (run .testRequest (withWork (.test 1 true) (busy 6 running))).part.notice.resultStatus = .done := by decide +kernel

theorem test_deliveryNotice :
    ((run .deliveryNotice (withWork (.delivery 40 1 110 3 []) running)).part.shadow 40).delivered =
      { sense := 1, fold := 3, code := 110 } ∧
    ((run .deliveryNotice (withWork (.delivery 263 3 907 0 []) running)).part.shadow 263).delivered.sense = 0 := by
  decide +kernel

theorem test_queueNotice :
    ((run .queueNotice (withWork (.notice .eviction 40) running)).part.shadow 40).owed = true ∧
    (run .queueNotice (withWork (.notice .returned 41) (withRecords [{ record with point := 41 }]
      running))).part.queue.records = [] := by decide +kernel

theorem test_retryTimePassed :
    (run (.retryTimePassed 0) (withClock 30 (withRecords [{ record with retry := some 30 }] running))).part.queue.records =
      [record] ∧
    (run (.retryTimePassed 0) (withClock 29 (withRecords [{ record with retry := some 30 }] running))).part.queue.records =
      [{ record with retry := some 30 }] := by decide +kernel

theorem test_holdExpiry :
    (run (.holdExpiry 0) (withClock 600 (withRecords [heldRecord] running))).part.queue.records = [record] ∧
    (run (.holdExpiry 0) (withClock 599 (withRecords [heldRecord] running))).part.queue.records = [heldRecord] ∧
    (run (.holdExpiry 0) (withRecords [record] running)).part.queue.records = [record] := by decide +kernel

theorem test_decision :
    (run .decision (onPart Part.occasion (withRecords [record] running))).part.arbiter.offers[(0 : Fin 4)] =
      some { kind := .idleGrant, records := [3], dest := 0, priority := 1 } ∧
    (run .decision (onPart Part.occasion (withRecords [record, second] running))).part.arbiter.offers[(0 : Fin 4)] =
      some { kind := .idleGrant, records := [5, 3], dest := 0, priority := 0 } := by decide +kernel

theorem test_grantOffer :
    (run (.grantOffer 1) (withOffer 1 .idleGrant 3 (withRecords [record] running))).part.queue.records = [joined] ∧
    ((run (.grantOffer 1) (withOffer 1 .bargeGrant 3 (withRecords [record] (lineIn .office)))).part.line 1).timer =
      some 2000 := by decide +kernel

/-- An entry that has become invalid since the offer is copied as its mirror holds it: a digit above 9 stands, a slot with the
code 14 adds no symbol (R25, R134, log 18). -/
theorem test_offer_to_invalid_entry :
    let s := mirrored 0x0B1 0xA821 (mirrored 0x0B3 0x1ECA (onMirrors (fun m => { m with valid := Vector.replicate 8 false })
      (withRecords [record] running)))
    (((run (.grantOffer 1) (withOffer 1 .idleGrant 3 s)).part.line 1).call.map fun c => (c.account, c.dial)) =
      some ([10, 8, 2, 1, 1, 7], [.digit 1, .pause, .star]) ∧
    ((run (.preemptionOffer 1) (withOffer 1 .preemption 3 (onLine 1 (fun l =>
      { l with state := .ringback, call := some lessUrgent }) s))).part.line 1).state = .breaking := by decide +kernel

theorem test_preemptionOffer :
    (run (.preemptionOffer 1) (withOffer 1 .preemption 5 (withRecords [joined, second]
      (calling .ringback call)))).part.queue.records.map (·.state) = [.waiting, .assigned] ∧
    (run (.preemptionOffer 1) (withOffer 1 .preemption 5 (withRecords [joined, second]
      (calling .linked call)))).part.queue.records = [joined, second] := by decide +kernel

theorem test_joinOffer :
    (run (.joinOffer 1) (withOffer 1 .join 5 (withRecords [joined, second] (calling .linked call)))).part.queue.records =
      [joined, { second with state := .assigned, call := some { line := 1, position := 2 } }] ∧
    (run (.joinOffer 1) (withOffer 1 .join 5 (withRecords [joined, second]
      (calling .linked { call with endMark := true })))).part.queue.records = [joined, second] := by decide +kernel

theorem test_office :
    ((run (.officeSenseChange 1 true) running).part.line 1).debounce = some 0 ∧
    ((run (.officeUseBegins 1) (onLine 1 (fun l => { l with officeSense := true, debounce := some 200 })
      running)).part.line 1).state = .office ∧
    ((run (.officeUseEnds 1) (onLine 1 (fun l => { l with debounce := some 500 }) (lineIn .office))).part.line 1).state =
      .idle := by decide +kernel

theorem test_loopLoss :
    ((run (.loopSenseChange 1 false) running).part.line 1).loopLoss = some 0 ∧
    ((run (.loopLossExpiry 1) (onLine 1 (fun l => { l with loopSense := false, loopLoss := some 10000 })
      running)).part.line 1).state = .fault ∧
    ((run (.loopLossExpiry 1) (onLine 1 (fun l => { l with loopLoss := some 10000 })
      (calling .breaking call))).part.bus.logged.map (·.kind)) = [.callFailed, .lineFault] := by decide +kernel

theorem test_presenceTimerExpiry :
    let s := onLine 1 (fun l => { l with presence := some 10000 }) (lineIn .fault)
    ((run (.presenceTimerExpiry 1) s).part.line 1).state = .idle ∧
    (run (.presenceTimerExpiry 1) s).part.points.work = [.condition 259 false] := by decide +kernel

theorem test_farClear :
    ((run (.farClear 1) (onLine 1 (fun l => { l with currentLoss := some 300 }) (calling .linked call))).part.line 1).state =
      .release ∧
    (run (.farClear 1) (onLine 1 (fun l => { l with currentLoss := some 300 })
      (calling .linked call))).part.queue.records = [{ record with attempts := 1, retry := some 30 }] := by decide +kernel

theorem test_breakExpiry : ((run (.breakExpiry 1) (calling .breaking call)).part.line 1).state = .dialtone ∧
    (run (.breakExpiry 1) (calling .breaking call)).part.hook 1 = true := by decide +kernel

theorem test_dialTone : ((run (.dialTone 1) (calling .dialtone call)).part.line 1).timer = some 160 ∧
    ((run (.dialTone 1) (calling .dialing { call with dialPos := 1 })).part.line 1).timer = some 2000 := by decide +kernel

theorem test_dialToneWaitExpiry :
    ((run (.dialToneWaitExpiry 1) (calling .dialtone call)).part.line 1).state = .release ∧
    ((run (.dialToneWaitExpiry 1) (mirrored 0x009 0x27 (calling .dialtone call))).part.line 1).state = .dialing := by
  decide +kernel

theorem test_dialSymbolEnd : ((run (.dialSymbolEnd 1) (calling .dialing call)).part.line 1).timer = some 5000 ∧
    ((run (.dialSymbolEnd 1) (calling .dialing { call with dialPos := 3 })).part.line 1).state = .ringback := by
  decide +kernel

theorem test_waitSymbolExpiry :
    ((run (.waitSymbolExpiry 1) (calling .dialing { call with dialPos := 1 })).part.line 1).state = .release ∧
    ((run (.waitSymbolExpiry 1) (calling .dialing call)).part.line 1).state = .dialing := by decide +kernel

theorem test_ringback :
    ((run (.busy 1) (calling .ringback call)).part.line 1).state = .release ∧
    ((run (.ringbackExpiry 1) (calling .ringback call)).part.line 1).state = .release ∧
    ((run (.ready 1) (calling .ringback call)).part.line 1).state = .linked := by decide +kernel

theorem test_handshake :
    ((run (.readyToneStopped 1) (calling .linked { call with phase := .handshake })).part.line 1).timer = some 100 ∧
    ((run (.handshakeExpiry 1) (calling .linked { call with phase := .handshake })).part.line 1).state = .release := by
  decide +kernel

theorem test_turnaroundEnd :
    ((run (.turnaroundEnd 1) (calling .linked { call with phase := .turnaround })).part.line 1).timer = some 1800 ∧
    (run (.turnaroundEnd 1) (calling .linked { call with phase := .turnaround })).part.queue.records =
      [{ joined with state := .sending }] := by decide +kernel

theorem test_burstSendingEnd :
    ((run (.burstSendingEnd 1) (calling .linked { call with phase := .sending })).part.line 1).timer = some 2000 := by
  decide +kernel

theorem test_ack :
    (run (.ack 1) (calling .linked { call with phase := .window, current := some 0, sends := 1 })).part.queue.records = [] ∧
    (run (.ack 1) (calling .linked { call with phase := .window, current := some 0, sends := 1 })).part.points.work =
      [.delivery 40 1 110 0 []] := by decide +kernel

theorem test_repeatToken :
    ((run (.repeatToken 1) (calling .linked { call with phase := .window, current := some 0, sends := 2 })).part.line 1).timer
      = some 100 ∧
    ((run (.repeatToken 1) (calling .linked { call with phase := .window, current := some 0, sends := 3 })).part.line 1).state
      = .release := by decide +kernel

theorem test_windowExpiry :
    ((run (.windowExpiry 1) (calling .linked { call with phase := .window, current := some 0, sends := 1 })).part.line 1).timer
      = some 100 ∧
    ((run (.windowExpiry 1) (onLine 1 (fun l => { l with detector := { l.detector with burst := .first 100 } })
      (calling .linked { call with phase := .window, current := some 0, sends := 3 }))).part.line 1).state = .linked := by
  decide +kernel

theorem test_endSymbolEnd :
    ((run (.endSymbolEnd 1) (calling .linked { call with phase := .ending, delivered := 1 })).part.line 1).state = .release ∧
    (run (.endSymbolEnd 1) (calling .linked { call with phase := .ending, delivered := 1 })).part.queue.records = [joined] :=
  by decide +kernel

theorem test_releaseGuardEnd :
    ((run (.releaseGuardEnd 1) (lineIn .release)).part.line 1).state = .idle ∧
    ((run (.releaseGuardEnd 1) (onLine 1 (fun l => { l with lossExpired := true }) (lineIn .release))).part.line 1).state =
      .fault := by decide +kernel

theorem test_clockSecond :
    (run .clockSecond (onTime (fun t => { t with minute := 1439, second := 59, elapsedMs := 1000 })
      running)).part.time.day = 1 ∧
    (run .clockSecond (onTime (fun t => { t with second := 59, elapsedMs := 1000 }) running)).part.bus.wbq =
      [0x01A, 0x01B, 0x01C] ∧
    (run .clockSecond (onTime (fun t => { t with minute := 119, second := 59, elapsedMs := 1000, nextTest := some 0 })
      running)).part.points.work = [.test 1 false] := by decide +kernel

theorem test_heartbeatExpiry :
    (run .heartbeatExpiry (onPart (fun p => { p with heartbeat := { timer := some 30000, silent := false } })
      running)).part.points.work = [.condition 256 true] := by decide +kernel

theorem test_mains :
    (run (.mainsLostChange true) running).part.time.mainsTimer = some 0 ∧
    (run .mainsTimerExpiry (onTime (fun t => { t with mainsTimer := some 60000 })
      (run (.mainsLostChange true) running))).part.statusWord = 0x23 ∧
    (run .mainsTimerExpiry (run (.mainsLostChange true) running)).part.time.mainsActive = false := by decide +kernel

theorem test_troublePulseToggle :
    (run .troublePulseToggle (onNotice (fun n => { n with trouble := .pulsed, pulseMs := 1000 })
      (lineIn .fault))).part.troubleOut = true ∧
    (run .troublePulseToggle (onNotice (fun n => { n with trouble := .pulsed, pulseMs := 999 })
      (lineIn .fault))).part.troubleOut = false := by
  decide +kernel

/-- The worked checks of section 8.2. -/
theorem test_burst_worked_checks :
    burst [4, 8, 2, 1, 1, 7] 1 { record with point := 17 } = [14, 4, 8, 2, 1, 1, 7, 1, 10, 1, 1, 0, 0, 1, 7, 0, 4, 4] ∧
    burst [9, 9, 9, 9, 8, 8] 4 { record with point := 199, sense := .normal, code := 999, fold := 9 } =
      [14, 9, 9, 9, 9, 8, 8, 4, 11, 9, 9, 9, 1, 9, 9, 9, 2, 5] := by decide +kernel

/-- A step with no command waiting takes the part's own next piece of work into the queue. -/
theorem test_idle_step :
    State.reset.idle.pending = [.writeBack] ∧ (base .xrst).idle.part.time.elapsedMs = 1 ∧
      (powered .off).idle.pending = [] := by decide +kernel

/-- The tokens at the ends of their ranges. -/
theorem test_tokens :
    heard .dialTone [(300, 700)] = 1 ∧ heard .dialTone [(500, 699)] = 0 ∧ heard .ready [(1435, 400)] = 1 ∧
    heard .ack [(2240, 900), (0, 300)] = 1 ∧ heard .ack [(2240, 399), (0, 300)] = 0 ∧
    heard .repeatToken [(2360, 299), (0, 299), (2240, 40), (0, 1)] = 1 := by decide +kernel

/-- The tone of a symbol for its first 80 ms of 160, and of a burst symbol for its first 50 ms of 100. -/
theorem test_toneOut :
    (∀ e ∈ [(160, some (697, 1209)), (81, some (697, 1209)), (80, none), (1, none)],
      (onLine 1 (fun l => { l with timer := some e.1 }) (calling .dialing call) |>.part.line 1).toneOut = e.2) ∧
    (∀ e ∈ [(200, some (941, 1477)), (151, some (941, 1477)), (150, none), (100, some (941, 1477)), (50, none)],
      (onLine 1 (fun l => { l with timer := some e.1 }) (calling .linked { call with phase := .ending, symbols := [15, 15] })
        |>.part.line 1).toneOut = e.2) := by decide +kernel

/-- A delivery on a full queue enters nothing itself, whatever owner a word has; its notice waits with the first address and
keeps the others for after it (R12). -/
theorem test_delivery_enters_one_at_a_time :
    let c := { call with phase := .window, current := some 0, sends := 1 }
    let r := { joined with state := .sending }
    let full (b : Bus) : Bus := { b with wbq := (List.range 32).map (0xA00 + ·) }
    let s := run (.ack 1) (onBus full (onPart (Part.setRoute 1 { Route.empty with budget := 5 })
      (withRecords [r] (calling .linked c))))
    s.part.bus.wbWait.filter (·.owner ≠ .noticeUnit) = [] ∧ s.part.points.carried = [0x019, 0x076, 0x077] ∧
    (run .deliveryNotice s).part.bus.wbWait.filter (·.owner = .pointEngine) =
      [{ owner := .pointEngine, ticket := 1, first := 0x8A1, later := [0x8A2, 0x019, 0x076, 0x077] }] := by decide +kernel

/-- A condition that ends between an ACK and its notice is reported: the report acknowledged counts as committed (R58,
log 39). -/
theorem test_restore_between_ack_and_notice :
    let c := { call with phase := .window, current := some 0, sends := 1 }
    let r := { joined with state := .sending, point := 256, code := 900 }
    let s := onPart (fun p => { p with heartbeat := { timer := none, silent := true } }) (withRecords [r] (calling .linked c))
    let s := run .conditionChange (run (.ack 1) (run (.heartbeat 1) s))
    s.part.queue.records.map (fun x => (x.point, x.sense, x.code)) = [(256, .normal, 900)] ∧
    (run .deliveryNotice s).part.committed 256 = (2, 900) := by decide +kernel

/-- CLEAR TROUBLE that waits before a beginning of OVERRUN: the latch ends, and the beginning makes it ACTIVE again, as point
262 reports (R165). -/
theorem test_clear_trouble_before_overrun :
    let ws : List Work := [.disable 40, .clearTrouble, .condition 262 true]
    let s := onPoints (fun q => { q with overrun := true, latch := true, work := ws }) (withFifo 1 (busy 8 running))
    let t := run .pointDisable s
    t.part.points.overrun = false ∧ t.part.points.latch = false ∧ t.part.notice.resultStatus = .done ∧
    (run .conditionChange t).part.points.latch = true ∧
    (run .conditionChange t).part.committed 262 = (1, 906) := by decide +kernel

/-- A capture of RELOAD that waits is made when OVERRUN begins, and RELOAD goes on. -/
theorem test_reload_waits_for_overrun :
    let s := onMirrors (fun m => { m with reload := some { next := 711, waiting := some { since := 0, capture :=
      { point := 40, code := 1 } } } }) (withFifo 16 (reloading 711))
    (run (.pointEntryWrite 17 0x106) s).part.mirrors.reload = some { next := 712, waiting := none } ∧
    ((run (.pointEntryWrite 17 0x106) s).part.shadow 40).owed = true ∧
    (run .fifoEntryTaken s).part.points.fifo.getLast? = some { point := 40, code := 1 } := by decide +kernel

/-! ### The hypotheses of the statements can be met

One theorem for each statement that has hypotheses: states and operands that meet them, for every clause and at the
boundaries of ranges. -/

theorem test_witness_MemoryStaysSound : running.memorySound ∧ (onBus (fun b => { b with stagePos := 3 }) running).memorySound ∧
    State.memorySound { running with mem := [(0, 1), (131071, 1)] } ∧
    (onMirrors (fun m => { m with words := [(0, 1), (4095, 1)] }) running).memorySound := by decide +kernel

theorem test_witness_BoundedBuffersStayBounded :
    (onBus (fun b => { b with wbq := List.range 32 }) running).writeBackBounded ∧
    (onBus (fun b => { b with staging := List.replicate 8 { slot := 0, record := { kind := .command } } })
      running).stagingBounded ∧
    (withFifo 16 running).fifoBounded ∧ running.fifoBounded := by decide +kernel

theorem test_witness_ReportQueueStaysSound : (withRecords [record, second] running).part.queue.sound ∧
    (withRecords filled running).part.queue.sound := by decide +kernel

theorem test_witness_TroubleHeadsTestPointAndReloadKept : running.part.troubleCurrent ∧ (withRecords [{ heldRecord with
      state := .waiting }] stopped).part.troubleCurrent ∧ running.headsHeld ∧ running.testNeverOwed ∧
    unconfigured.part.troubleCurrent := by decide +kernel

/-- A LOAD of kind RELOAD with its RELOAD in progress, and one of another kind. -/
theorem test_witness_reloadInProgress :
    (onMirrors (fun m => { m with load := some { kind := .reload, next := 3 } }) (busy 4 (loading 3))).reloadInProgress ∧
    (loading 3).reloadInProgress ∧ running.reloadInProgress := by
  refine ⟨⟨fun _ _ => ⟨rfl, rfl⟩, by decide +kernel⟩, ⟨fun k h => ?_, by decide +kernel⟩, fun k h => ?_, by decide +kernel⟩
  · have hk : (loading 3).part.mirrors.load.map Load.kind = some .reload := congrArg (Option.map Load.kind) h
    exact absurd hk (by decide +kernel)
  · have hk : running.part.mirrors.load.map Load.kind = some .reload := congrArg (Option.map Load.kind) h
    exact absurd hk (by decide +kernel)

/-- Each inserted cycle; an ms in which nothing else is left, in every mode with power; no power. -/
theorem test_witness_IdleStepsKeepTheOrderAndTheTimes :
    (∀ s ∈ [onBus (fun b => { b with wbq := [0x017], staging := [{ slot := 0, record := { kind := .command } }] }) running,
        onBus (fun b => { b with wbq := [0x017] }) running, loading 3, reloading 5,
        onMirrors (fun m => { m with timeReads := some [] }) (busy 7 unconfigured)],
      s.pending = [] ∧ s.part.mode.live = true ∧ s.part.bus.wbWait = [] ∧ s.part.bus.logWait = [] ∧
        s.part.bus.hold = none ∧ s.part.bus.drain = none ∧ s.part.engineIdle ∧ s.part.points.fifo = [] ∧
        (∀ n : LineNo, s.part.arbiter.offers[n] = none) ∧ s.part.arbiter.decisionPending = false) ∧
    (∀ s ∈ [running, unconfigured, onTime (fun t => { t with elapsedMs := 999, mainsTimer := some 59999 }) running,
        onLine 1 (fun l => { l with debounce := some 199 }) running,
        onLine 1 (fun l => { l with timer := some 1 }) (calling .ringback call)],
      s.pending = [] ∧ s.part.mode.live = true ∧ s.nextOwn = none) ∧
    (base .xrst).part.mode = .xrst ∧ (base .bypass).part.mode = .bypass ∧ (powered .off).part.mode = .off := by
  refine ⟨by decide +kernel, ?_, by decide +kernel⟩
  exact leavesNothing_of (by decide +kernel)

/-- An ms at the end of each interval of a call, with nothing else to do. -/
theorem test_witness_IdleStepsKeepTheOrderAndTheTimes_calls :
    (∀ s ∈ [0, 1].map (fun pos => lastMs (calling .dialing { call with dialPos := pos })) ++
        [Phase.handshake, .turnaround, .sending, .window, .ending].map
          (fun ph => lastMs (calling .linked { call with phase := ph })),
      s.pending = [] ∧ s.part.mode.live = true ∧ s.nextOwn = none) ∧
    (∀ s ∈ [0, 1].map (fun pos => lastMs (calling .dialing { call with dialPos := pos })) ++
        [Phase.handshake, .turnaround, .sending, .window, .ending].map
          (fun ph => lastMs (calling .linked { call with phase := ph })),
      (s.part.line 1).timer = some 1) ∧
    (∀ raised, let s := onBus (fun b => { b with drain := some (.draining 0 [] raised) }) (base .xrst)
      s.pending = [] ∧ s.part.mode = .xrst ∧ s.nextUnswept = none) :=
  ⟨leavesNothing_of (by decide +kernel), by decide +kernel, by decide +kernel⟩

/-- The intervals of a call end by the steps named for them. -/
theorem test_idle_call_intervals :
    (∀ e ∈ [(Phase.handshake, Instr.handshakeExpiry 1), (.turnaround, .turnaroundEnd 1), (.sending, .burstSendingEnd 1),
        (.window, .windowExpiry 1), (.ending, .endSymbolEnd 1)],
      (onLine 1 (fun l => { l with timer := some 1 }) (calling .linked { call with phase := e.1 })).tick.pending = [e.2]) ∧
    (onLine 1 (fun l => { l with timer := some 1 }) (calling .dialing { call with dialPos := 1 })).tick.pending =
      [.waitSymbolExpiry 1] := by decide +kernel

/-- Frequencies outside every band; a line that does not listen. -/
theorem test_witness_TonesAreRecognisedByTheirLengths :
    (∀ f ∈ [0, 299, 501, 1364, 1436, 2239, 2361],
      inLowBand f = false ∧ inReadyBand f = false ∧ inBurstBand f = false) ∧
    ((lineIn .idle).part.line 1).listens = false := by decide +kernel

/-- Without a held cycle, with a held read and with a held write. -/
theorem test_witness_XrstDropsAllWorkAndItsReleaseLoads :
    running.part.mode ≠ .off ∧ running.part.mode ≠ .xrst ∧ (base .bypass).part.mode ≠ .xrst ∧
    (base .xrst).part.mode = .xrst := by decide +kernel

theorem test_witness_RestartResetKeepsStrapsClockAndResult :
    (∀ raised, (onBus (fun b => { b with drain := some (.draining 0 [] raised) }) (busy 10 running)).part.bus.drain =
      some (.draining 0 [] raised)) ∧
    (busy 10 running).part.notice.inProgress = some { code := 10, tag := 9 } ∧
    (∀ raised, running.part.bus.drain ≠ some (.draining 0 [] raised)) := by decide +kernel

/-- The first address above the window and the last of memory lie outside it. -/
theorem test_witness_PanelCyclesPassThrough :
    running.mem.wf = true ∧ (base .xrst).part.mode = .xrst ∧ (base .bypass).part.mode = .bypass ∧
    running.part.mode.live = true ∧ running.busFree ∧ windowOffset running.part.straps 0x1000 = none ∧
    windowOffset running.part.straps 0x1FFFF = none ∧ running.part.bus.hold = none := by decide +kernel

/-- The first and the last entry of each kind; in LOADING once LOAD has read them. -/
theorem test_witness_PanelReadShowsOwnersValue :
    running.part.mode.live = true ∧ running.busFree ∧ running.part.mode.serving = true ∧
    running.part.actsOn 0xFFF = false ∧ partOwned 0x000 = false ∧ running.part.notice.heads = some { alloc := 4, shown := 4 } ∧
    pointOffset 0 1 = 0x801 ∧ pointOffset 255 2 = 0xBFE ∧ virtualOffset 0 2 = 0x052 ∧ virtualOffset 7 3 = 0x06F ∧
    routeOffset 0 2 = 0x072 ∧ routeOffset 15 3 = 0x0AF ∧ (loading 1471).part.mode = .loading ∧ (loading 1471).busFree ∧
    (loading 1471).part.loadHasRead 0x801 = true ∧ (loading 1471).part.loadHasRead 0x072 = true := by decide +kernel

theorem test_witness_PanelWriteToPartWordIsMasked :
    0x012 ∈ [0x012, 0x017, 0x018, 0x019, 0x01A, 0x01B, 0x01C] ∧ running.part.mode.live = true ∧ running.writable ∧
    running.part.troubleCurrent ∧ unconfigured.writable ∧ unconfigured.part.troubleCurrent ∧
    running.part.notice.heads.isSome = true ∧ running.part.mode.serving = true := by decide +kernel

/-- Both ends of every range of words, and the first and last group alias and virtual record. -/
theorem test_witness_PanelWritesReachTheirOwners :
    running.part.mode.serving = true ∧ running.writable ∧ running.part.troubleCurrent ∧
    (∀ off ∈ [0x020, 0x03F, 0x130, 0x3FF, 0x600, 0x7FF, 0xC00, 0xFFF, 0x0B9, 0x12F, 0x803, 0xBFF],
      off < 4096 ∧ ((0x020 ≤ off ∧ off < 0x040) ∨ (0x130 ≤ off ∧ off < 0x400) ∨ (0x600 ≤ off ∧ off < 0x800) ∨ 0xC00 ≤ off ∨
        (0x0B0 ≤ off ∧ off < 0x130 ∧ 9 ≤ off % 16) ∨ (0x800 ≤ off ∧ off < 0xC00 ∧ off % 4 = 3)) ∧
        partOwned off = false) ∧
    (∀ off ∈ [0x400, 0x5FF, virtualOffset 0 1, virtualOffset 7 1, 0x000, 0x01F], off < 4096 ∧ partOwned off = false) ∧
    0x040 + 15 < virtualOffset 0 0 ∧ virtualOffset 7 0 < 4096 := by decide +kernel

/-- LOAD before its first read and at its last; UNCONFIGURED. -/
theorem test_witness_LoadingAndUnconfiguredWritesChangeMirrorsOnly :
    (∀ s ∈ [loading 0, loading 1471, unconfigured], s.writable ∧ s.part.troubleCurrent) ∧
    (loading 0).part.mode = .loading ∧ (loading 0).part.loadHasRead 0x000 = false ∧ (loading 0).part.actsOn 0x000 = false ∧
    (loading 1471).part.loadHasRead 0x0B8 = true ∧ partOwned 0x0B8 = false ∧
    (loading 1471).part.loadHasRead (routeOffset 15 2) = true ∧ (loading 1471).part.loadHasRead (routeOffset 15 3) = true ∧
    (loading 58).part.loadHasRead (routeOffset 0 2) = true ∧ (loading 58).part.loadHasRead (routeOffset 0 3) = false ∧
    unconfigured.part.mode = .unconfigured ∧ unconfigured.part.actsOn 0x000 = false := by decide +kernel

/-- A write-back queue of 32 with an owner waiting; a FIFO of 16 with STALL strapped. -/
theorem test_witness_FullQueuesHoldThePanel :
    (onBus (fun b => { b with
      wbq := List.range 32, wbWait := [{ owner := .timeBase, ticket := 0, first := 0x01A, later := [] }] })
      running).part.bus.full = true ∧
    (let s := onPart (fun p => { p with straps := { p.straps with stall := true } }) (withFifo 16 running)
    s.part.mode.serving = true ∧ s.busFree ∧ s.part.straps.stall = true ∧
      enabledField (s.part.mirror (pointOffset 40 0)) = true ∧ enabledField 0x106 = true ∧
      stateCodeField (s.part.mirror (pointOffset 40 0)) ≠ stateCodeField 0x106 ∧ s.part.points.overrun = false ∧
      Config.fifoPlaces ≤ s.part.points.fifo.length) := by decide +kernel

/-- Held for the queues, with a read and a write; held for the FIFO, with no place and with one. -/
theorem test_witness_HeldCycleIsMadeOrAbandoned :
    (let b := { Bus.empty with wbWait := [{ owner := .timeBase, ticket := 3, first := 0x01A, later := [] }] }
    b.entered 4 = false ∧ b.entered 3 = true) ∧
    (let s := onBus (fun b => { b with hold := some { cycle := .write 0x1000 5, before := 0, stalled := none } }) running
    s.part.mode.live = true ∧ s.part.bus.hold = some { cycle := .write 0x1000 5, before := 0, stalled := none } ∧
      s.mem.wf = true ∧ s.part.bus.entered 0 = true ∧ windowOffset s.part.straps 0x1000 = none) ∧
    (onBus (fun b => { b with hold := some { cycle := .read 0, before := 0, stalled := none } })
      running).part.bus.hold = some { cycle := .read 0, before := 0, stalled := none } ∧
    ∀ n ∈ [15, 16],
      let h : Hold := { cycle := .write 0x8A0 0x106, before := 0, stalled := some 0 }
      let s := onBus (fun b => { b with hold := some h }) (withFifo n running)
      s.part.mode.serving = true ∧ s.part.bus.hold = some h ∧ h.cycle = .write (s.address (pointOffset 40 0)) 0x106 ∧
        s.part.points.fifo.length = n ∧ s.part.mirrors.waitsSince = none ∧ s.mem.wf = true ∧
        s.part.mirrors.words.wf = true ∧ s.part.troubleCurrent ∧ s.part.points.overrun = false ∧
        enabledField (s.part.mirror (pointOffset 40 0)) = true ∧ enabledField 0x106 = true ∧
        stateCodeField (s.part.mirror (pointOffset 40 0)) ≠ stateCodeField 0x106 := by decide +kernel

/-- An address the part acts on and one it does not; the drain of a RESTART; a queue with one place left; a staging buffer
with one. -/
theorem test_witness_WriteBackServesTheQueueInOrder :
    (let s := onBus (fun b => { b with wbq := [0x017, 0x8A1] }) running
    s.mem.wf = true ∧ s.part.mode.live = true ∧ s.part.bus.staging = [] ∧ s.part.bus.drain = none ∧
      s.part.bus.wbq = [0x017, 0x8A1] ∧ s.writeBackBounded ∧ s.part.actsOn 0x017 = true ∧
      unconfigured.part.actsOn 0x8A1 = false) ∧
    (∀ k ∈ [0, 1], let s := onBus (fun b => { b with
        wbq := [0x017, 0x013, 0x012], drain := some (.draining k [0x012, 0x013] true) }) (busy 10 running)
      s.mem.wf = true ∧ s.part.mode.live = true ∧ s.part.bus.drain = some (.draining k [0x012, 0x013] true) ∧
        s.part.notice.inProgress = some { code := 10, tag := 9 } ∧ s.writeBackBounded ∧
        s.part.bus.wbq = [0x017] ++ 0x013 :: [0x012] ∧ (∀ a ∈ [0x017], a ∉ [0x012, 0x013]) ∧ s.part.bus.staging = [] ∧
        s.part.actsOn 0x013 = true) ∧
    (let s := onBus (fun b => { b with
        wbq := List.range 31, wbWait := [{ owner := .timeBase, ticket := 0, first := 0x801, later := [] }] }) running
    s.part.mode.live = true ∧ 0x801 ∉ s.part.bus.wbq ∧ s.part.bus.wbq.length < Config.writeBackPlaces ∧
      s.part.bus.drain = none ∧ s.part.points.todo = [] ∧ s.part.points.work = [] ∧ s.part.troubleCurrent) ∧
    (let s := onBus (fun b => { b with
        staging := List.replicate 7 { slot := 0, record := { kind := .command } }
        logWait := [(0, { slot := 4, record := { kind := .command } })] }) running
    s.part.mode.live = true ∧ s.part.bus.logWait = [(0, { slot := 4, record := { kind := .command } })] ∧
      s.part.bus.staging.length < Config.stagingPlaces ∧ s.part.troubleCurrent) := by decide +kernel

/-- At the first and at the last word of a record. -/
theorem test_witness_StagingWritesRecordsInOrder :
    ∀ k ∈ [0, 3],
      let s := onBus (fun b => { b with staging := [{ slot := 31, record := { kind := .command } }], stagePos := k }) running
      s.mem.wf = true ∧ s.part.mode.serving = true ∧ s.part.bus.drain = none ∧
        s.part.bus.staging = [{ slot := 31, record := { kind := .command } }] ∧
        s.part.notice.heads = some { alloc := 4, shown := 4 } ∧ s.part.troubleCurrent ∧ s.part.bus.stagePos = k ∧
        k < 4 := by decide +kernel

/-- At a panel-owned word, the last of step 1 with the check passing, each kind of part-owned word, the last but one word. -/
theorem test_witness_LoadReadTakesTheNextWord :
    (∀ k ∈ [0, 22, 57, 58, 704, 1470],
      let s := configured (loading k)
      s.part.mode = .loading ∧ s.part.bus.staging = [] ∧ s.part.bus.wbq = [] ∧
        s.part.mirrors.load = some { kind := .xrst, next := k } ∧ s.part.mirrors.words.wf = true ∧
        s.part.troubleCurrent ∧ k + 1 < Config.loadReads ∧ s.part.configOk = true) ∧
    partOwned (loadOffset 0) = false ∧ loadOffset 57 = routeOffset 0 2 ∧ loadOffset 58 = routeOffset 0 3 ∧
    loadOffset 704 = pointOffset 0 1 ∧ loadOffset 705 = pointOffset 0 2 := by decide +kernel

/-- Of kind XRST, and of kind RELOAD with the RELOAD in progress. -/
theorem test_witness_LoadCheckFailureUnconfigures :
    ∀ k ∈ [LoadKind.xrst, .reload],
      let s := onMirrors (fun m => { m with load := some { kind := k, next := 22 } }) (busy 4 (loading 22))
      s.part.mode = .loading ∧ s.part.bus.staging = [] ∧ s.part.bus.wbq = [] ∧
        s.part.mirrors.load = some { kind := k, next := 22 } ∧ s.part.mirrors.words.wf = true ∧
        s.part.notice.inProgress = some { code := 4, tag := 9 } ∧ s.part.configOk = false := by decide +kernel

theorem test_witness_LoadEndServesWithPointsOwed :
    ∀ k ∈ [LoadKind.xrst, .reload],
      let s := onPart (Part.setRoute 15 { Route.empty with w3AtEnd := true })
        (onMirrors (fun m => { m with load := some { kind := k, next := 1471 } }) (busy 4 (loading 1471)))
      s.part.mode = .loading ∧ s.part.bus = Bus.empty ∧ s.part.mirrors.load = some { kind := k, next := 1471 } ∧
        s.part.queue.records = [] ∧ s.part.notice.inProgress = some { code := 4, tag := 9 } ∧
        s.part.notice.inProgress.isSome = true ∧ (s.part.route 15).w3AtEnd = true := by decide +kernel

/-- The words that only fill their mirror, the first and the last translation word, a word that has not changed, one taken
as a panel write, and the word of point 40 with a place in the FIFO and without; a capture that waits. -/
theorem test_witness_ReloadReadTakesCapturesOrWaits :
    (∀ k ∈ [2, 5, 22, 159, 670, 711],
      let s := configured (reloading k)
      s.part.mode.serving = true ∧ s.part.bus.staging = [] ∧ s.part.bus.wbq = [] ∧
        s.part.mirrors.reload = some { next := k, waiting := none } ∧ s.part.mirrors.words.wf = true ∧ s.mem.wf = true ∧
        s.part.troubleCurrent ∧ s.part.bus.hold = none ∧ s.part.configOk = true) ∧
    reloadOffset 3 = 0x003 ∧ reloadOffset 5 ∉ [0x003, 0x010, 0x011] ∧ (∀ r : RouteNo, reloadOffset 5 ≠ routeOffset r.val 2) ∧
    (∀ n, (running.part.line n).takenEnable = running.part.lineEnabled n) ∧
    (let s := { reloading 5 with mem := [(0x005, 2)] }
    s.windowMem 0x005 &&& mirrorMask 0x005 = s.part.mirror 0x005) ∧
    (∀ n ∈ [15, 16],
      let s := withFifo n { reloading 711 with mem := [(0x8A0, 0x101)] }
      enabledField (s.part.mirror (pointOffset 40 0)) = true ∧ enabledField (s.windowMem (pointOffset 40 0)) = true ∧
        stateCodeField (s.part.mirror (pointOffset 40 0)) ≠ stateCodeField (s.windowMem (pointOffset 40 0)) ∧
        s.part.points.overrun = false ∧ s.part.points.fifo.length = n) ∧
    (let w : WaitingCapture := { since := 0, capture := { point := 40, code := 1 } }
    let s := onMirrors (fun m => { m with reload := some { next := 711, waiting := some w } }) (withFifo 16 (reloading 711))
    s.part.mirrors.reload = some { next := 711, waiting := some w } ∧ s.part.points.fifo.length = Config.fifoPlaces ∧
      s.part.points.overrun = false ∧ s.part.pointEnabled w.capture.point = true ∧ w.capture.point.val < 256 ∧
      s.part.engineIdle ∧ s.writable ∧ s.part.straps.stall = false ∧ s.part.troubleCurrent ∧
      enabledField (s.part.mirror (pointOffset 17 0)) = true ∧ enabledField 0x106 = true ∧
      stateCodeField (s.part.mirror (pointOffset 17 0)) ≠ stateCodeField 0x106 ∧ enabledField 0x005 = false) := by
  decide +kernel

/-- The last read without a change and with a captured one; the last read of step 1 with the check failing. -/
theorem test_witness_ReloadEndsInSweepOrUnconfigured :
    (∀ s ∈ [reloading 926, { mirrored 0xBFC 0x105 (reloading 926) with mem := [(0xBFC, 0x106)] }],
      s.part.mode.serving = true ∧ s.part.bus = Bus.empty ∧
        s.part.mirrors.reload = some { next := 926, waiting := none } ∧ s.part.mirrors.words.wf = true ∧
        s.part.notice.inProgress = some { code := 4, tag := 9 } ∧ s.part.notice.heads = some { alloc := 4, shown := 4 } ∧
        enabledField (s.part.mirror (pointOffset 255 0)) = enabledField (s.windowMem (pointOffset 255 0)) ∧
        s.part.points.overrun = false ∧ s.part.points.fifo.length < Config.fifoPlaces) ∧
    (let s := reloading 22
    s.part.mirrors.reload = some { next := 22, waiting := none } ∧ s.part.notice.inProgress = some { code := 4, tag := 9 } ∧
      s.part.configOk = false) := by decide +kernel

/-- Of StartStopAndReloadSetTheState, TestCallAndClearTroubleReachThePointEngine and SetTimeLoadsTheClock. -/
theorem test_witness_commands_accepted :
    stopped.part.mode.serving = true ∧ stopped.commandFree ∧ running.part.mode.serving = true ∧ running.commandFree ∧
    unconfigured.part.mode = .unconfigured ∧ unconfigured.commandFree ∧ running.part.engineIdle ∧
    running.part.points.latch = false ∧
    (let s := onPoints (fun q => { q with latch := true })
      (onShadow 262 (fun x => { x with delivered := { sense := 1, fold := 0, code := 906 } }) running)
    s.part.points.latch = true ∧ s.part.points.overrun = false ∧ s.part.engineIdle ∧ s.commandFree ∧
      s.part.queue.sound ∧ s.part.bus.wbWait = [] ∧ s.part.bus.wbq.length + 4 ≤ Config.writeBackPlaces ∧
      s.part.pointEnabled 262 = true ∧ (s.part.committed 262).1 = 1) := by decide +kernel

/-- The record of the call alone; with a later record of its point of the same sense, of the other, and with two. -/
theorem test_witness_AbortCallsReleasesEveryCall :
    (∀ rs ∈ [[joined], [joined, { record with id := 4, slot := 2 }], [joined, normalRecord],
        [joined, { record with id := 4, slot := 2 }, normalRecord], [joined, normalRecord, { record with id := 6, slot := 2 }]],
      let s := withRecords rs (calling .linked call)
      s.part.mode.serving = true ∧ s.commandFree ∧ (s.part.line 1).call = some call ∧
        (∀ m, m ≠ 1 → (s.part.line m).call = none) ∧ s.part.queue.sound ∧
        s.part.queue.records.filter (·.point = joined.point) = rs) ∧
    call.undelivered = [joined.slot] ∧ joined.state ≠ .waiting ∧ joined.state ≠ .held ∧ record.chained = true ∧
      normalRecord.chained = true ∧ record.sense ≠ normalRecord.sense ∧
      (calling .linked call).part.queue.carries call [joined] ∧ (calling .linked call).part.queue.alone [joined] := by
  unfold Queue.carries Queue.alone
  decide +kernel

/-- Room for every entry; the last address and the last record still waiting; a command refused meanwhile. -/
theorem test_witness_RestartAnswersAndDrains :
    running.commandFree ∧ running.part.troubleCurrent ∧ running.part.mode.serving = true ∧
    unconfigured.part.mode = .unconfigured ∧ unconfigured.commandFree ∧
    running.part.bus.wbq.length + 2 ≤ Config.writeBackPlaces ∧ running.part.bus.staging.length < Config.stagingPlaces ∧
    (let s := onBus (fun b => { b with
        wbq := List.range 31, wbWait := [{ owner := .noticeUnit, ticket := 0, first := 0x801, later := [] }]
        drain := some (.finishing [0x801] 1 []) }) (busy 10 running)
    s.part.mode.live = true ∧ s.part.bus.drain = some (.finishing [0x801] 1 []) ∧ (∀ a ∈ [0x801], a = 0x801) ∧
      s.part.bus.logWait = [] ∧ 0x801 ∉ s.part.bus.wbq ∧ s.part.bus.wbq.length < Config.writeBackPlaces ∧
      s.part.points.todo = [] ∧ s.part.points.work = [] ∧ s.part.troubleCurrent) ∧
    (let s := onBus (fun b => { b with
        staging := List.replicate 7 { slot := 0, record := { kind := .command } }
        logWait := [(0, { slot := 4, record := { kind := .command } })], drain := some (.finishing [] 1 []) })
      (busy 10 running)
    s.part.bus.drain = some (.finishing [] 1 []) ∧ s.part.bus.staging.length < Config.stagingPlaces ∧
      s.part.troubleCurrent ∧ s.writable ∧ s.part.notice.inProgress.isSome = true ∧ unknownCode 2 = false) := by
  decide +kernel

/-- With a chain to withdraw, and with the last address waiting. -/
theorem test_witness_AdoptBaselineDeliversPresentState :
    (let s := withRecords [record, second] stopped
    s.part.mode = .stopped ∧ s.commandFree ∧ s.part.engineIdle ∧ s.part.points.fifo = [] ∧ s.part.queue.sound ∧
      PointOp.baseline 262 ∈ baselineOps) ∧
    (let w : Waiter := { owner := .pointEngine, ticket := 0, first := 0x06B, later := [] }
    let s := onBus (fun b => { b with wbWait := [w], wbq := List.range 31 })
      (onPoints (fun q => { q with todo := [.commandDone] }) (busy 5 stopped))
    s.part.points.todo = [.commandDone] ∧ s.part.points.work = [] ∧ s.part.bus.drain = none ∧
      s.part.notice.inProgress = some { code := 5, tag := 9 } ∧ s.part.bus.wbWait = [w] ∧ w.first ∉ s.part.bus.wbq ∧
      s.part.bus.wbq.length < Config.writeBackPlaces) := by decide +kernel

theorem test_witness_SetTimeLoadsTheClock :
    stopped.commandFree ∧
    ∀ l ∈ ([[], [600], [600, 1439]] : List (List Word)),
      let s := onMirrors (fun m => { m with timeReads := some l }) (busy 7 unconfigured)
      s.part.mode = .unconfigured ∧ s.part.bus.staging = [] ∧ s.part.bus.wbq = [] ∧
        s.part.notice.inProgress = some { code := 7, tag := 9 } ∧ s.part.troubleCurrent ∧
        s.part.mirrors.timeReads = some l := by decide +kernel

theorem test_witness_ReleaseHeldReleasesEveryHeldRecord :
    let s := withRecords [heldRecord, second] running
    s.part.mode.serving = true ∧ s.commandFree ∧ s.part.queue.sound := by decide +kernel

/-- An unknown code, LOADING, a command in progress, UNCONFIGURED, and ADOPT BASELINE in RUNNING. -/
theorem test_witness_CommandsAreRefusedInOrder :
    unknownCode 11 = true ∧ running.writable ∧ (loading 3).part.mode = .loading ∧ (loading 3).writable ∧
    (busy 4 running).part.notice.inProgress.isSome = true ∧ (busy 4 running).writable ∧
    unconfigured.part.mode = .unconfigured ∧ (1 : BitVec 4) ∉ ([4, 7, 8, 10] : List (BitVec 4)) ∧
    running.part.mode = .running ∧ running.part.bus.drain = none := by decide +kernel

/-- Of CauseAndSettingWritesTakeEffectAtOnce, HeartbeatWritesRestartSupervision, LineEnableActsByLineState,
RouteAndDirectoryWritesReachTheArbiter, BudgetAndAccessedWritesActOnTheRoute and PointWriteCapturesByTable. -/
theorem test_witness_single_word_writes :
    running.part.mode.live = true ∧ running.part.mode.serving = true ∧ running.writable ∧ running.part.troubleCurrent ∧
    running.part.straps.stall = false ∧ running.part.mirrors.waitsSince = none ∧ (withFifo 16 running).writable ∧
    (onPoints (fun q => { q with overrun := true }) (withFifo 16 running)).writable := by decide +kernel

theorem test_witness_DisableWithdrawsAndEnableOwes :
    (let s := withWork (.disable 40) (withRecords [record, second] running)
    s.part.mode.serving = true ∧ s.part.nextIs (.disable 40) ∧ s.part.queue.sound ∧ s.part.mirrors.waitsSince = none) ∧
    (withWork (.enable 0) running).part.nextIs (.enable 0) ∧ (withWork (.enable 262) running).part.nextIs (.enable 262) ∧
    (withWork (.disable 0) running).part.pointEnabled 0 = false := by decide +kernel

theorem test_witness_GroupActionsOnASelectedPoint :
    ∀ a ∈ [GroupAction.isolate, .deisolate, .rescan],
      let s := withWork (.group a [40]) (withRecords [record, second] running)
      s.part.mode.serving = true ∧ s.part.queue.sound ∧ s.part.nextIs (.group a [40]) := by decide +kernel

/-- An entry that calls for an ACTIVE report, one that calls for a NORMAL one, one that is ignored. -/
theorem test_witness_FifoEntryIsTranslatedAndReported :
    (let s := withFifo 1 running
    s.part.mode.serving = true ∧ s.part.engineIdle ∧ s.part.points.fifo = [{ point := 40, code := 6 }] ∧
      s.part.mirrors.waitsSince = none ∧ s.part.queue.sound ∧ s.part.translated 40 6 = none ∧
      s.part.translated 40 5 = some { sense := 1, code := 110, priority := 1, route := 1, unrouted := false } ∧
      s.part.committed 40 ≠ (1, 110)) ∧
    (let s := onShadow 40 (fun x => { x with delivered := { sense := 1, fold := 0, code := 110 } }) running
    s.part.translated 40 1 = some { sense := 2, code := 310, priority := 3, route := 1, unrouted := false } ∧
      (s.part.committed 40).1 = 1) := by decide +kernel

/-- Chains a request is folded into once and twice or placed behind; a full queue with a less urgent record that gives way,
and with none less urgent. -/
theorem test_witness_requested :
    (∀ rs ∈ [[], [record], [record, normalRecord], [normalRecord, { record with id := 7, slot := 2 }]],
      let s := withRecords rs running
      s.part.queue.sound ∧ s.part.queue.chain 40 = rs ∧ s.part.queue.count < Config.queuePlaces) ∧
    (∀ pr ∈ ([0, 5] : List (Fin 8)),
      let s := withRecords (filled.map fun r => { r with priority := pr }) running
      s.part.queue.sound ∧ s.part.queue.chain 40 = [] ∧ ¬ s.part.queue.count < Config.queuePlaces ∧
        s.part.queue.givesWay { record with id := 63, slot := 63, point := 163, priority := pr }) := by
  unfold Queue.givesWay
  decide +kernel

/-- Point 262, the last the sweep comes to, at its position, and point 0 below the position. -/
theorem test_witness_SweepReconcilesTheNextOwedPoint :
    (let s := onPoints (fun q => { q with sweepPos := 262 }) (onShadow 262 (fun x => { x with owed := true }) running)
    s.part.mode.serving = true ∧ s.part.engineIdle ∧ s.part.points.fifo = [] ∧ s.part.queue.sound ∧
      s.part.queue.count < Config.queuePlaces ∧ (s.part.shadow 262).owed = true ∧ s.part.points.sweepPos ≤ 262) ∧
    (let s := onPoints (fun q => { q with sweepPos := 262 }) (onShadow 0 (fun x => { x with owed := true }) running)
    (s.part.shadow 0).owed = true ∧ (s.part.shadow 262).owed = false ∧ (s.part.shadow 263).owed = false) := by
  decide +kernel

theorem test_witness_ConditionsAndTestsBecomeRequests :
    (∀ a ∈ [true, false],
      let s := withWork (.condition 262 a) running
      s.part.mode.serving = true ∧ s.part.nextIs (.condition 262 a) ∧ s.part.pointEnabled 262 = true ∧
        s.part.queue.sound ∧ s.part.committed 262 ≠ (1, s.part.virtualCode (virtualNo 262))) ∧
    (withWork (.condition 256 true) running).part.nextIs (.condition 256 true) ∧
    (∀ rs ∈ [[], [{ record with point := 263, sense := .test }]],
      let s := withRecords rs (withWork (.test 15 true) (busy 6 running))
      s.part.nextIs (.test 15 true) ∧ s.part.virtualEnabled 7 = true ∧ s.part.queue.sound ∧
        s.part.queue.chain 263 = rs) := by decide +kernel

theorem test_witness_NoticesBringThePointUpToDate :
    (withWork (.delivery 40 2 110 9 [0x077]) running).part.nextIs (.delivery 40 2 110 9 [0x077]) ∧
    (withWork (.delivery 263 3 907 0 []) running).part.nextIs (.delivery 263 3 907 0 []) ∧ running.part.bus.wbWait = [] ∧
    running.part.bus.wbq.length + 2 + [0x077].length ≤ Config.writeBackPlaces ∧
    (let s := withWork (.notice .returned 41) (withRecords [record] running)
    s.part.nextIs (.notice .returned 41) ∧ s.part.queue.sound ∧ s.part.pointEnabled 41 = false) ∧
    (withWork (.notice .eviction 40) running).part.nextIs (.notice .eviction 40) ∧
    (let s := onBus (fun b => { b with wbq := (List.range 32).map (0xA00 + ·) })
      (withWork (.delivery 40 1 110 9 [0x019, 0x076]) running)
    s.part.nextIs (.delivery 40 1 110 9 [0x019, 0x076]) ∧ s.part.bus.wbWait = [] ∧
      s.part.bus.wbq.length = Config.writeBackPlaces ∧ (statusOffset 40 :: codeOffset 40 :: [0x019, 0x076]).Nodup ∧
      ∀ a ∈ statusOffset 40 :: codeOffset 40 :: [0x019, 0x076], a ∉ s.part.bus.wbq) := by decide +kernel

/-- At the retry time and a second before it. -/
theorem test_witness_RetryAndHoldTimesFreeTheRecord_retry :
    ∀ k ∈ [29, 30],
      let r := { record with retry := some 30 }
      let s := withClock k (withRecords [r, second] running)
      s.part.mode.serving = true ∧ s.part.queue.sound ∧ r ∈ s.part.queue.records ∧ r.state = .waiting ∧
        r.retry = some 30 ∧ s.part.queue.clock = k ∧ s.part.troubleCurrent := by decide +kernel

/-- A free bus in every state in which the part works. -/
theorem test_witness_IrqFollowsTheEnabledCauses :
    ∀ s ∈ [running, stopped, unconfigured, loading 3], s.part.mode.live = true ∧ s.writable ∧ s.busFree := by
  decide +kernel

/-- At the hold expiry and a second before it; a record that is not HELD. -/
theorem test_witness_RetryAndHoldTimesFreeTheRecord_hold :
    ∀ k ∈ [599, 600],
      let s := onNotice (fun n => { n with trouble := .steady }) (withClock k (withRecords [heldRecord, second] running))
      s.part.mode.serving = true ∧ s.part.queue.sound ∧ heldRecord ∈ s.part.queue.records ∧ heldRecord.state = .held ∧
        heldRecord.holdUntil = some 600 ∧ s.part.queue.clock = k ∧ second ∈ s.part.queue.records ∧
        second.state ≠ .held ∧ s.part.troubleCurrent := by decide +kernel

/-- No eligible record; an idle line; no line but those in office use, with priority at the threshold, the lower one's
threshold refusing. -/
theorem test_witness_DecisionOffersTheFirstLine :
    (let s := onPart Part.occasion running
    s.part.mode.serving = true ∧ s.part.arbiter.decisionPending = true ∧ s.part.queue.records = [] ∧
      s.part.troubleCurrent) ∧
    (let s := onPart Part.occasion (withRecords [record] running)
    s.part.mode = .running ∧ s.part.arbiter.decisionPending = true ∧ s.part.eligible record = true ∧
      (∀ m, (s.part.line m).call = none) ∧ (∀ m : LineNo, s.part.arbiter.offers[m] = none) ∧
      s.part.destAllows (s.part.resolve 1 .primary) 0 = true ∧ (s.part.line 0).state = .idle) ∧
    (let r := { record with priority := 3 }
    let office (l : Line) : Line := { l with state := .office }
    let s := mirrored 0x008 1 (onLine 0 office (onLine 1 office (onLine 2 office (onLine 3 office
      (withRecords [r] running)))))
    s.part.eligible r = true ∧ (∀ m, (s.part.line m).state = .office) ∧
      (s.part.bargeThreshold 0).any (r.priority.val ≤ ·) = false ∧
      (s.part.bargeThreshold 1).any (r.priority.val ≤ ·) = true) := by decide +kernel

/-- One eligible record is the service order. -/
theorem inService_one {p : Part} {r : Record} (h : p.queue.records = [r]) (he : p.eligible r = true) :
    p.inService [r] := by
  refine ⟨List.pairwise_singleton .., fun x => ?_⟩
  rw [h]
  constructor
  · intro hx
    rw [List.mem_singleton.mp hx]
    exact ⟨List.mem_singleton_self r, he⟩
  · exact fun hx => hx.1

/-- Two eligible records are the service order, the more urgent one first. -/
theorem inService_two {p : Part} {r x : Record} (h : p.queue.records = [x, r]) (hp : r.priority < x.priority)
    (hr : p.eligible r = true) (hx : p.eligible x = true) : p.inService [r, x] := by
  refine ⟨by simp [hp], fun z => ?_⟩
  rw [h]
  constructor
  · intro hz
    rcases List.mem_cons.mp hz with rfl | hz
    · exact ⟨by simp, hr⟩
    · rw [List.mem_singleton.mp hz]
      exact ⟨by simp, hx⟩
  · rintro ⟨hz, -⟩
    rcases List.mem_cons.mp hz with rfl | hz
    · simp
    · rw [List.mem_singleton.mp hz]
      simp

/-- One record and two in service order, each the first of its point; no call, and line 0 idle. -/
theorem test_witness_DecisionsFollowTheServiceOrder :
    let s := onPart Part.occasion (withRecords [record] running)
    let t := onPart Part.occasion (withRecords [record, second] running)
    s.part.mode.serving = true ∧ s.part.arbiter.decisionPending = true ∧ s.part.troubleCurrent ∧ s.part.queue.sound ∧
      s.part.inService [record] ∧ t.part.queue.sound ∧ t.part.inService [second, record] ∧
      t.part.queue.firstOfPoint second ∧ t.part.queue.firstOfPoint record ∧
      s.part.finds (s.part.resolve record.route record.leg) record.priority 0 .idleGrant := by
  refine ⟨by decide +kernel, by decide +kernel, by decide +kernel, by decide +kernel,
    inService_one rfl (by decide +kernel), by decide +kernel,
    inService_two rfl (by decide +kernel) (by decide +kernel) (by decide +kernel), ?_, ?_, ?_⟩
  · unfold Queue.firstOfPoint; decide +kernel
  · unfold Queue.firstOfPoint; decide +kernel
  · exact .inl ⟨rfl, by unfold Part.idleFor; decide +kernel, by unfold Part.idleFor; decide +kernel⟩

/-- A call finds no line, a line to barge, a call to preempt; a record finds a call to join. -/
theorem test_witness_DecisionsFollowTheServiceOrder_lines :
    noLine.part.findsNone 0 1 ∧ oneOffice.part.finds 0 1 1 .bargeGrant ∧ oneRinging.part.finds 0 1 1 .preemption ∧
      oneRinging.part.mayJoin record 1 lessUrgent := by
  have guard : ∀ m, (noLine.part.line m).state = .release := by decide +kernel
  have calls : ∀ m, (noLine.part.line m).call = none := by decide +kernel
  have busy : ∀ m, (oneOffice.part.line m).state ≠ .idle ∧ (m < 1 → (oneOffice.part.line m).state ≠ .office) := by
    decide +kernel
  have ring : ∀ m, (oneRinging.part.line m).state ≠ .idle ∧ (oneRinging.part.line m).state ≠ .office ∧
      (m ≠ 1 → (oneRinging.part.line m).call = none) := by decide +kernel
  refine ⟨fun m => ⟨fun h => ?_, fun h => ?_, fun b h => ?_⟩, .inr (.inl ⟨rfl, fun m h => (busy m).1 h.2.2, ?_,
    fun m hm h => (busy m).2 hm h.2.2.1⟩), .inr (.inr ⟨rfl, fun m h => (ring m).1 h.2.2, fun m h => (ring m).2.1 h.2.2.1,
    lessUrgent, ?_, fun m hm b h => ?_⟩), ?_⟩
  · exact absurd h.2.2 (by rw [guard m]; decide)
  · exact absurd h.2.2.1 (by rw [guard m]; decide)
  · exact absurd h.1 (by rw [calls m]; exact nofun)
  · exact ⟨by decide +kernel, by decide +kernel, by decide +kernel, 3, by decide +kernel, by decide +kernel⟩
  · unfold Part.victimFor; decide +kernel
  · exact absurd h.1 (by rw [(ring m).2.2 hm]; exact nofun)
  · refine ⟨by decide +kernel, by decide +kernel, by decide +kernel, by decide +kernel, by decide +kernel,
      fun e he hp hi => ?_⟩
    obtain rfl : e = record := List.mem_singleton.mp he
    exact absurd hi (Nat.lt_irrefl _)

theorem test_witness_GrantFormsTheCallOrIsRefused :
    ∀ k ∈ [OfferKind.idleGrant, .bargeGrant],
      let s := withOffer 1 k 3 (withRecords [record, second] (lineIn .office))
      let o : Offer := { kind := k, records := [3], dest := 0, priority := 1 }
      s.part.mode.serving = true ∧ s.part.queue.sound ∧ s.part.arbiter.offers[(1 : LineNo)] = some o ∧
        o.records = [record.id] ∧ record ∈ s.part.queue.records ∧ record.unrouted = false ∧
        s.part.resolve record.route record.leg = o.dest := by decide +kernel

theorem test_witness_PreemptionReplacesTheVictim :
    let s := withOffer 1 .preemption 5 (withRecords [joined, second] (calling .ringback call))
    let o : Offer := { kind := .preemption, records := [5], dest := 0, priority := 1 }
    s.part.mode.serving = true ∧ s.part.arbiter.offers[(1 : LineNo)] = some o ∧ o.records = [second.id] ∧
      s.part.queue.records = [joined, second] ∧ joined.id < second.id ∧ joined.slot ≠ second.slot ∧
      joined.point ≠ second.point ∧ second.state = .waiting ∧ second.unrouted = false ∧
      s.part.resolve second.route second.leg = o.dest ∧
      (s.part.line 1).call = some call ∧ call.undelivered = [joined.slot] ∧
      (s.part.line 1).state.preemptible = true := by decide +kernel

/-- A call with a place left, and one with four reports. -/
theorem test_witness_JoinAddsTheReportAtTheTail :
    ∀ reports ∈ ([[0, 2, 3], [0, 2, 3, 4]] : List (List SlotNo)),
      let c := { call with reports }
      let s := withOffer 1 .join 5 (withRecords [joined, second] (calling .linked c))
      let o : Offer := { kind := .join, records := [5], dest := 0, priority := 1 }
      s.part.mode.serving = true ∧ s.part.queue.sound ∧ s.part.arbiter.offers[(1 : LineNo)] = some o ∧
        second ∈ s.part.queue.records ∧ second.state = .waiting ∧ second.unrouted = false ∧
        s.part.resolve second.route second.leg = o.dest ∧ (s.part.line 1).call = some c ∧ c.dest = o.dest := by
  decide +kernel

/-- At each debounce time and an ms before it; the guard at its end. -/
theorem test_witness_OfficeSenseAndGuardSetTheLineState :
    (∀ k ∈ [199, 200], let s := onLine 1 (fun l => { l with officeSense := true, debounce := some k }) running
      s.part.mode.live = true ∧ (s.part.line 1).debounce = some k ∧ (s.part.line 1).state = .idle ∧
        (s.part.line 1).officeSense = true ∧ s.part.troubleCurrent) ∧
    (∀ k ∈ [499, 500], let s := onLine 1 (fun l => { l with debounce := some k }) (lineIn .office)
      (s.part.line 1).debounce = some k ∧ (s.part.line 1).state = .office ∧ (s.part.line 1).officeSense = false) ∧
    (lineIn .release).part.mode.serving = true ∧ ((lineIn .release).part.line 1).state = .release ∧
    ((lineIn .release).part.line 1).timer = some 0 ∧
    (let s := onLine 1 (fun l => { l with disablePending := true }) (lineIn .release)
    (s.part.line 1).disablePending = true) ∧
    (let s := onLine 1 (fun l => { l with lossExpired := true }) (lineIn .release)
    (s.part.line 1).disablePending = false ∧ (s.part.line 1).lossExpired = true) := by decide +kernel

/-- At 10 s and an ms before; in each state; with the record of the call short of its limit and at it. -/
theorem test_witness_LoopLossPutsALineInFault :
    (∀ k ∈ [9999, 10000], ∀ st ∈ [LineState.idle, .office, .dialtone, .release],
      let s := onLine 1 (fun l => { l with loopSense := false, loopLoss := some k }) (lineIn st)
      s.part.mode.serving = true ∧ (s.part.line 1).loopLoss = some k ∧ (s.part.line 1).state = st ∧
        s.part.troubleCurrent) ∧
    (lineIn .dialtone).part.hook 1 = true ∧
    (∀ disable ∈ [true, false], ∀ attempts ∈ [0, 7],
      let r := { joined with attempts, cycles := 15 }
      let s := onLine 1 (fun l => { l with loopLoss := some 10000, disablePending := disable })
        (withRecords [r] (calling .breaking call))
      (s.part.line 1).state = .breaking ∧ (s.part.line 1).call = some call ∧ s.part.queue.carries call [r] ∧
        s.part.queue.alone [r] ∧ s.part.queue.sound) ∧
    (∀ k ∈ [9999, 10000], let s := onLine 1 (fun l => { l with presence := some k }) (lineIn .fault)
      (s.part.line 1).state = .fault ∧ (s.part.line 1).loopSense = true ∧ (s.part.line 1).presence = some k) := by
  unfold Queue.carries Queue.alone
  decide +kernel

/-- A READY tone that has already stopped when LINKED is entered, and one that has been silent for 1 ms less (R143). -/
theorem test_ready_tone_already_stopped :
    ∀ e ∈ [(49, Phase.handshake, 2000), (50, .turnaround, 100)],
      let s := onLine 1 (fun l => { l with detector := { l.detector with readySilence := e.1 } }) (calling .ringback call)
      let l := (run (.ready 1) s).part.line 1
      l.state = .linked ∧ l.call.map (·.phase) = some e.2.1 ∧ l.timer = some e.2.2 := by decide +kernel

/-- At a WAIT, at the last symbol of the dial string, with blind dial, and in every state of the call; an interval that has
not ended. -/
theorem test_witness_CallsAreDialledToTheHandshake :
    (∀ st ∈ [LineState.breaking, .dialtone, .ringback],
      let s := calling st call
      s.part.mode.live = true ∧ (s.part.line 1).call = some call ∧ (s.part.line 1).state = st ∧
        (s.part.line 1).timer = some 0) ∧
    call.dial[1]? = some .wait ∧ call.dial[3]? = some .star ∧ call.dial[4]? = none ∧
    (mirrored 0x009 0x27 (calling .dialtone call)).part.blindDial 1 = true ∧
    running.part.troubleCurrent ∧ (running.part.line 1).timer ≠ some 0 := by decide +kernel

/-- In every phase; before the third send; with a record of the queue as the current and as the next report; a burst being
measured. -/
theorem test_witness_BurstsAreSentAndAcknowledged :
    (∀ ph ∈ [Phase.handshake, .turnaround, .sending, .window],
      let c := { call with phase := ph, current := some joined.slot, sends := 2 }
      let s := calling .linked c
      s.part.mode.serving = true ∧ (s.part.line 1).call = some c ∧ (s.part.line 1).state = .linked ∧ c.sends < 3 ∧
        (s.part.line 1).detector.burst.measuring = false ∧ joined ∈ s.part.queue.records ∧ s.part.queue.sound ∧
        c.current = some joined.slot ∧ (s.part.line 1).timer = some 0 ∧ s.part.bus.wbWait = [] ∧
        s.part.bus.wbq.length + 4 ≤ Config.writeBackPlaces) ∧
    (BurstMeasure.first 1).measuring = true ∧
    call.current = none ∧ call.reports[call.delivered]? = some joined.slot ∧ joined.state = .assigned ∧
    ({ call with delivered := 1 } : Call).delivered = call.reports.length := by decide +kernel

/-- In each state, at 300 ms and an ms before; with two records, one of them at its last attempt, and with one. -/
theorem test_witness_CallsEndInTheReleaseGuard :
    (∀ k ∈ [299, 300], ∀ st ∈ [LineState.dialtone, .dialing, .ringback, .linked],
      let c := { call with dialPos := 1, reports := [0, 1] }
      let rs := [joined, { second with state := .assigned, attempts := 7, cycles := 15, call := joined.call }]
      let s := onLine 1 (fun l => { l with currentLoss := some k }) (withRecords rs (calling st c))
      s.part.mode.live = true ∧ (s.part.line 1).call = some c ∧ s.part.hook 1 = true ∧ (s.part.line 1).state = st ∧
        (s.part.line 1).currentLoss = some k ∧ (s.part.line 1).timer = some 0 ∧ s.part.blindDial 1 = false ∧
        c.dial[c.dialPos]? = some .wait ∧ s.part.queue.carries c rs ∧ s.part.queue.alone rs ∧ s.part.queue.sound ∧
        s.part.troubleCurrent) ∧
    (∀ ph ∈ [Phase.handshake, .window],
      let c := { call with phase := ph, sends := 3 }
      let s := calling .linked c
      (s.part.line 1).call = some c ∧ 3 ≤ c.sends ∧ (s.part.line 1).detector.burst.measuring = false ∧
        s.part.queue.carries c [joined] ∧ s.part.queue.alone [joined]) ∧
    (let c := { call with phase := .ending, delivered := 1 }
    ((calling .linked c).part.line 1).call = some c ∧ c.delivered = c.reports.length) := by
  unfold Queue.carries Queue.alone
  decide +kernel

/-- A burst; a symbol being dialled and one being sent, at both ends of its tone. -/
theorem test_witness_BurstCarriesItsCheck :
    ([9, 9, 9, 9, 8, 8] : List Nat).length = 6 ∧ (∀ d ∈ ([9, 9, 9, 9, 8, 8] : List Nat), d ≤ 9) ∧ 1 ≤ 4 ∧ 4 ≤ 4 ∧
    ({ record with fold := 9, code := 999 } : Record).fold ≤ 9 ∧
    ({ record with fold := 9, code := 999 } : Record).code.toNat ≤ 999 ∧
    (∀ left ∈ [1, 80, 81, 160],
      let l := (onLine 1 (fun l => { l with timer := some left }) (calling .dialing call)).part.line 1
      l.call = some call ∧ l.state = .dialing ∧ call.dial[call.dialPos]? = some (.digit 1) ∧ l.timer = some left ∧
        left ≤ 160) ∧
    (∀ left ∈ [1, 2000, 5000], ∀ pos ∈ [1, 2],
      let c := { call with dialPos := pos }
      let l := (onLine 1 (fun l => { l with timer := some left }) (calling .dialing c)).part.line 1
      l.call = some c ∧ l.state = .dialing ∧ (c.dial[c.dialPos]? = some .pause ∨ c.dial[c.dialPos]? = some .wait)) ∧
    (∀ j ∈ [0, 49, 50, 99],
      let c := { call with phase := .ending, symbols := [15, 15] }
      let l := (onLine 1 (fun l => { l with timer := some (100 * 2 - (100 * 1 + j)) }) (calling .linked c)).part.line 1
      l.call = some c ∧ l.state = .linked ∧ c.symbols[1]? = some 15 ∧ j < 100 ∧
        l.timer = some (100 * c.symbols.length - (100 * 1 + j))) := by decide +kernel

/-- At the last second of an hour and of the day; a test due; each timer at its length and an ms before; a pulse. -/
theorem test_witness_TimePassesAndConditionsChange :
    (∀ e ∈ [999, 1000], let s := onTime (fun t => { t with elapsedMs := e }) running
      s.part.mode ≠ .off ∧ s.part.troubleCurrent ∧ s.part.time.second < 59 ∧ s.part.time.elapsedMs = e) ∧
    (let s := onTime (fun t => { t with minute := 119, second := 59, elapsedMs := 1000, nextTest := some 0 }) running
    s.part.time.second = 59 ∧ s.part.troubleCurrent ∧ s.part.time.minute + 1 = testMinute (s.part.mirror 0x006)) ∧
    (onTime (fun t => { t with minute := 1439, second := 59, elapsedMs := 1000 }) running).part.troubleCurrent ∧
    (∀ k ∈ [29999, 30000], let s := onPart (fun p => { p with heartbeat := { timer := some k, silent := false } }) running
      s.part.mode.serving = true ∧ s.part.heartbeat.timer = some k ∧ s.part.troubleCurrent ∧
        1000 * s.part.heartbeatPeriod = 30000) ∧
    (∀ k ∈ [59999, 60000], let s := onTime (fun t => { t with mainsTimer := some k }) running
      s.part.time.mainsTimer = some k ∧ s.part.troubleCurrent) ∧
    (∀ k ∈ [999, 1000], let s := onNotice (fun n => { n with trouble := .pulsed, pulseMs := k }) (lineIn .fault)
      s.part.mode.live = true ∧ s.part.notice.trouble = .pulsed ∧ s.part.troubleCurrent ∧
        s.part.notice.pulseMs = k) := by decide +kernel

end Sys2Proof.Tests
end

section
/-! PROOFS. The command word (R22, R175, R176): a panel write of it, the command handed to its owner, the final result. -/

namespace Sys2Proof.Machine

/-! ### What operations keep, put together -/

theorem Part.keepsBut_trans {bs : List Block} {p q r : Part} (h : p.keepsBut bs q) (k : q.keepsBut bs r) :
    p.keepsBut bs r := by
  intro b hb
  have h := h b hb
  have k := k b hb
  cases b <;> exact k.trans h

theorem Part.keepsBut_mono {bs cs : List Block} {p q : Part} (h : p.keepsBut bs q) (hs : bs ⊆ cs) :
    p.keepsBut cs q := fun b hb => h b fun hb' => hb (hs hb')

/-- What every step of a fold keeps, the fold keeps. -/
theorem Part.keepsBut_foldl {α : Type} {bs : List Block} {f : Part → α → Part}
    (h : ∀ (p : Part) (a : α), p.keepsBut bs (f p a)) (l : List α) (p : Part) : p.keepsBut bs (l.foldl f p) := by
  induction l generalizing p with
  | nil => intro b _; cases b <;> rfl
  | cons a l ih => exact Part.keepsBut_trans (h p a) (ih _)

theorem Part.setMirror_keeps (off : Nat) (w : Word) (p : Part) : p.keepsBut [.mirrors] (p.setMirror off w) := by
  intro b hb
  cases b <;> simp [Block.same] at hb ⊢

theorem Part.complete_keeps (st : ResultStatus) (p : Part) : p.keepsBut [.bus, .notice] (p.complete st) := by
  intro b hb
  cases b <;> simp [Block.same] at hb ⊢

/-! ### The mirrors -/

/-- A mirror reads back the bits it keeps of the word taken, and every other mirror reads as before (R27). -/
theorem Part.mirror_setMirror {p : Part} (h : p.mirrors.words.wf = true) (off : Nat) (w : Word) (a : Nat) :
    (p.setMirror off w).mirror a = if a = off then w &&& mirrorMask off else p.mirror a :=
  Memory.read_write_from h off a _

theorem Part.mirror_of_mirrors {p q : Part} (h : q.mirrors = p.mirrors) (a : Nat) : q.mirror a = p.mirror a := by
  simp [Part.mirror, h]

/-- The mirror of the command word keeps the whole word. -/
theorem Part.mirror_setMirror_command {p : Part} (h : p.mirrors.words.wf = true) (w : Word) (a : Nat) :
    (p.setMirror 0x010 w).mirror a = if a = 0x010 then w else p.mirror a := by
  have hmask : mirrorMask 0x010 = BitVec.allOnes 16 := by decide
  rw [Part.mirror_setMirror h, hmask, BitVec.and_allOnes]

/-- The cause enable is not in the command word. -/
theorem Part.causeEnable_setMirror_command {p : Part} (h : p.mirrors.words.wf = true) (w : Word) :
    (p.setMirror 0x010 w).causeEnable = p.causeEnable := by
  simp [Part.causeEnable, Part.mirror_setMirror_command h]

/-! ### A panel write of the command word -/

/-- The part owns no field of the command word. -/
theorem Part.actsOn_command (p : Part) : p.actsOn 0x010 = false := by
  have h : partOwned 0x010 = false := by decide
  simp [Part.actsOn, h]

theorem windowWord_command : windowWord 0x010 = .config 0x10 := by decide

/-- A part that works takes the command word in every state (R22, R28, R31). -/
theorem Part.takeWrite_command {p : Part} (hm : p.mode.live = true) (w : Word) :
    p.takeWrite 0x010 w = p.takeCommand w := by
  cases hmode : p.mode <;> simp [hmode, Mode.live] at hm <;>
    simp [Part.takeWrite, hmode, windowWord_command, Part.takeServing, Part.takeLoading, Part.takeUnconfigured]

/-- A command word written while the bus is free reaches memory, and the Notice Unit judges it at once (R4, R22). -/
theorem State.commandWrite_eq {s : State} (hm : s.part.mode.live = true) (hb : s.busFree) (code : BitVec 4)
    (tag : BitVec 8) (spare : BitVec 4) :
    s.commandWrite code tag spare =
      { s with
        mem := s.mem.write (s.wordAddress 0x010) (commandWord code tag spare)
        part := Part.settle s.part (s.part.takeCommand (commandWord code tag spare)) } := by
  have hc : s.part.captures 0x010 (commandWord code tag spare) = false := by
    simp [Part.captures, windowWord_command]
  unfold State.commandWrite
  rw [State.panelWriteAt_eq (by decide) hm hb (Part.stalls_eq_false rfl (by decide) hc)]
  simp [Part.clearByWrite, Part.downstream, Part.actsOn_command, Part.takeWrite_command hm, State.wordAddress]

/-- A step that writes the command word, and then changes no block but those named, the Bus Path and the Notice Unit, has
taken the command word. -/
theorem State.commandTaken_of {code : BitVec 4} {tag : BitVec 8} {spare : BitVec 4} {bs : List Block} {s : State}
    {q : Part} (hw : s.writable) (hbs : .mirrors ∉ bs)
    (hq : (s.part.setMirror 0x010 (commandWord code tag spare)).keepsBut (.bus :: .notice :: bs) q) :
    s.commandTaken code tag spare bs
      { s with
        mem := s.mem.write (s.wordAddress 0x010) (commandWord code tag spare)
        part := Part.settle s.part q } := by
  obtain ⟨hmem, -, hwords⟩ := hw
  have hmirrors : (Part.settle s.part q).mirrors = (s.part.setMirror 0x010 (commandWord code tag spare)).mirrors := by
    rw [Part.settle_mirrors]
    exact hq .mirrors (by simpa using hbs)
  refine ⟨⟨Memory.read_write hmem _ _, fun b hb => Memory.read_write_ne hmem hb _, rfl, rfl⟩, ?_, fun a => ?_, ?_⟩
  · have h₁ := Part.keepsBut_mono (Part.setMirror_keeps 0x010 (commandWord code tag spare) s.part)
      (cs := .bus :: .mirrors :: .notice :: bs) (by simp)
    have h₂ := Part.keepsBut_mono hq (cs := .bus :: .mirrors :: .notice :: bs) (by intro b; simp; tauto)
    have h₃ := Part.keepsBut_mono (Part.settle_keeps s.part q) (cs := .bus :: .mirrors :: .notice :: bs) (by simp)
    exact Part.keepsBut_trans (Part.keepsBut_trans h₁ h₂) h₃
  · rw [Part.mirror_of_mirrors hmirrors, Part.mirror_setMirror_command hwords]
  · exact hmirrors ▸ rfl

/-! ### The judgement -/

/-- A command word names the command it was made of. -/
theorem commandOf_commandWord (code : BitVec 4) (tag : BitVec 8) (spare : BitVec 4) :
    commandOf (commandWord code tag spare) = { code, tag } := by
  have hcode : (spare ++ code ++ tag).extractLsb' 8 4 = code := by
    rw [BitVec.extractLsb'_append_eq_of_le (by decide), BitVec.extractLsb'_append_eq_right]
  have htag : (spare ++ code ++ tag).extractLsb' 0 8 = tag := BitVec.extractLsb'_append_eq_right
  simp [commandOf, commandWord, hcode, htag]

/-- In STOPPED and RUNNING, with no command in progress, every command but ADOPT BASELINE is accepted (R175). -/
theorem Part.refusal_of_serving {p : Part} {code : BitVec 4} (hm : p.mode.serving = true)
    (hp : p.notice.inProgress = none) (hc : unknownCode code = false) (h5 : code ≠ 5) : p.refusal code = none := by
  have h5' : code.toNat ≠ 5 := fun h => h5 (BitVec.eq_of_toNat_eq h)
  cases hmode : p.mode <;> simp [hmode, Mode.serving] at hm <;>
    simp [Part.refusal, hmode, hp, hc, accepts, h5']

/-- The part as it hands an accepted command to the owner of its effect: the command word in its mirror, the command in
progress and its result IN PROGRESS (R175, R176). -/
def Part.handing (c : Command) (w : Word) (p : Part) : Part :=
  Part.setResult c.tag .inProgress
    { p.setMirror 0x010 w with notice := { p.notice with inProgress := some c } }

/-- A command that is not refused has its effect with the mirror of 011H. -/
theorem Part.takeCommand_accepted {p : Part} {w : Word} (h : p.refusal (commandOf w).code = none) :
    p.takeCommand w =
      Part.effect (commandOf w) ((p.setMirror 0x010 w).mirror 0x011) (p.handing (commandOf w) w) := by
  have h' : (p.setMirror 0x010 w).refusal (commandOf w).code = none := h
  simp [Part.takeCommand, Part.judge, h', Part.handing]

theorem Part.handing_keeps (c : Command) (w : Word) (p : Part) :
    (p.setMirror 0x010 w).keepsBut [.bus, .notice] (p.handing c w) := by
  intro b hb
  cases b <;> simp [Block.same, Part.handing] at hb ⊢

theorem Part.setResult_notice (tag : BitVec 8) (st : ResultStatus) (p : Part) :
    (p.setResult tag st).notice = { p.notice with resultTag := tag, resultStatus := st } := by
  simp [Part.setResult]

theorem Part.handing_inProgress (c : Command) (w : Word) (p : Part) :
    (p.handing c w).notice.inProgress = some c := by
  simp [Part.handing, Part.setResult_notice]

theorem Part.handing_heads (c : Command) (w : Word) (p : Part) :
    (p.handing c w).notice.heads = p.notice.heads := by
  simp [Part.handing, Part.setResult_notice]

theorem Part.causeEnable_handing {p : Part} (h : p.mirrors.words.wf = true) (c : Command) (w : Word) :
    (p.handing c w).causeEnable = p.causeEnable := by
  have hmirrors := Part.handing_keeps c w p .mirrors (by simp)
  rw [← Part.causeEnable_setMirror_command h w, Part.causeEnable, Part.mirror_of_mirrors hmirrors, Part.causeEnable]

/-! ### The final result -/

/-- A cause asked for changes nothing of the Notice Unit but the causes (R173). -/
theorem Part.raise_notice (c : Cause) (p : Part) :
    (p.raise c).notice = { p.notice with causes := (p.raise c).notice.causes } := by
  unfold Part.raise
  split <;> simp

/-- A cause asked for and enabled is set (R173). -/
theorem Part.raise_causeSet (c : Cause) (p : Part) : p.causeSet c (p.raise c) := by
  intro hen
  have hbit : c.bits.getLsbD c.index = true := by cases c <;> decide
  by_cases hset : p.notice.causes.getLsbD c.index = true
  · simp [Part.raise, hset]
  · simp [Part.raise, hen, hset, hbit]

/-- A record staged is the newest logged, whether it finds room or waits (R14). -/
theorem Part.stage_logged (x : Staged) (p : Part) : (p.stage x).bus.logged = p.bus.logged ++ [x.record] := by
  unfold Part.stage
  split
  · rename_i h
    have hwait : p.bus.logWait = [] := by simpa using h.1
    simp [Bus.logged, hwait]
  · simp [Bus.logged]

/-- A record asked for in STOPPED and RUNNING is the newest logged (R169). -/
theorem Part.makeLog_logged {p : Part} (hm : p.mode.serving = true) (hh : p.notice.heads.isSome = true) (r : LogRecord) :
    (p.makeLog r).bus.logged = p.bus.logged ++ [r] := by
  obtain ⟨h, hh⟩ := Option.isSome_iff_exists.mp hh
  simp [Part.makeLog, hm, hh, Part.stage_logged]

/-- A log record takes a slot and changes nothing else of the Notice Unit (R169). -/
theorem Part.makeLog_notice (r : LogRecord) (p : Part) :
    (p.makeLog r).notice = { p.notice with heads := (p.makeLog r).notice.heads } := by
  unfold Part.makeLog
  split
  · simp
  · rfl

/-- What a final result leaves of the Notice Unit as it was: all but the heads, the causes and the result (R176). -/
theorem Part.finalResult_notice (c : Command) (st : ResultStatus) (p : Part) :
    (p.finalResult c st).notice =
      { p.notice with
        heads := (p.finalResult c st).notice.heads
        causes := (Part.raise .command (p.setResult c.tag st)).notice.causes
        resultTag := c.tag
        resultStatus := st } := by
  unfold Part.finalResult Part.logNow
  rw [Part.makeLog_notice, Part.raise_notice, Part.setResult_notice]

/-- A final result is an answer (R176). -/
theorem Part.finalResult_answered (c : Command) (st : ResultStatus) (p : Part) :
    p.answered c.code c.tag st (p.finalResult c st) := by
  have hnotice := Part.finalResult_notice c st p
  refine ⟨⟨by rw [hnotice], by rw [hnotice]⟩, fun hen => ?_, fun hm hh => ?_⟩
  · rw [hnotice]
    refine Part.raise_causeSet .command _ ?_
    rwa [Part.causeEnable, Part.mirror_of_mirrors (Part.setResult_mirrors _ _ _)]
  · have hheads : (Part.raise .command (p.setResult c.tag st)).notice.heads.isSome = true := by
      rw [Part.raise_notice, Part.setResult_notice]
      exact hh
    rw [Part.finalResult, Part.logNow, Part.makeLog_logged (by simpa using hm) hheads, List.getLast?_concat]
    simp [commandLog, Part.now]

/-- An owner that reports its command complete answers it, and no command is in progress any more (R176). -/
theorem Part.complete_answered {p : Part} {c : Command} (h : p.notice.inProgress = some c) (st : ResultStatus) :
    p.answered c.code c.tag st (p.complete st) ∧ (p.complete st).notice.inProgress = none := by
  simp only [Part.complete, h]
  exact ⟨Part.finalResult_answered c st _, by rw [Part.finalResult_notice]⟩

/-- Settling keeps an answer. -/
theorem Part.answered_settle {p q : Part} {code : BitVec 4} {tag : BitVec 8} {st : ResultStatus}
    (h : p.answered code tag st q) (old : Part) : p.answered code tag st (Part.settle old q) := by
  obtain ⟨⟨htag, hst⟩, hcause, hlog⟩ := h
  obtain ⟨-, hcauses, -, htag', hst'⟩ := Part.settle_trouble old q
  obtain ⟨hstaging, -, hwait, -⟩ := Part.settle_entries old q
  have hlogged : (Part.settle old q).bus.logged = q.bus.logged := by rw [Bus.logged, Bus.logged, hstaging, hwait]
  refine ⟨⟨htag'.trans htag, hst'.trans hst⟩, fun hen => by rw [hcauses]; exact hcause hen, fun hm hh => ?_⟩
  rw [hlogged, hlog hm hh]
  simp [commandLog, Part.now]

/-- A command handed to its owner and reported complete in the same step is answered, and no command is in progress any
more: where the owner's effect leaves the mirrors and the Notice Unit as they were, and the part serving. -/
theorem Part.answered_of_complete {p q : Part} {c : Command} {w : Word} (hwords : p.mirrors.words.wf = true)
    (hmirrors : q.mirrors = (p.handing c w).mirrors) (hnotice : q.notice = (p.handing c w).notice)
    (hmode : p.mode.serving = true → q.mode.serving = true) (st : ResultStatus) :
    p.answered c.code c.tag st (Part.settle p (q.complete st)) ∧
      (Part.settle p (q.complete st)).notice.inProgress = none := by
  have hprogress : q.notice.inProgress = some c := by rw [hnotice, Part.handing_inProgress]
  obtain ⟨⟨hshows, hcause, hlog⟩, hended⟩ := Part.complete_answered hprogress st
  have henable : q.causeEnable = p.causeEnable := by
    rw [← Part.causeEnable_handing hwords c w, Part.causeEnable, Part.mirror_of_mirrors hmirrors, Part.causeEnable]
  have hheads : q.notice.heads = p.notice.heads := by rw [hnotice, Part.handing_heads]
  rw [henable] at hcause
  rw [hheads] at hlog
  obtain ⟨-, -, hprogress', -, -⟩ := Part.settle_trouble p (q.complete st)
  exact ⟨Part.answered_settle ⟨hshows, hcause, fun hm => hlog (hmode hm)⟩ p, hprogress'.trans hended⟩

end Sys2Proof.Machine
end

section
/-! PROOFS. The release of HELD records (R83, R84), and the statements about the Report Queue. -/

namespace Sys2Proof.Machine

/-! ### Records changed in place -/

/-- Replacing the records changes nothing else of the queue. -/
theorem Part.setRecords_queue (rs : List Record) (p : Part) :
    (p.setRecords rs).queue = { p.queue with records := rs } := by
  unfold Part.setRecords
  simp only
  split
  · rfl
  · rw [Part.enter_queue]; rfl

theorem Part.changeRecord_queue (id : Nat) (f : Record → Record) (p : Part) :
    (p.changeRecord id f).queue =
      { p.queue with records := p.queue.records.map fun r => if r.id = id then f r else r } :=
  Part.setRecords_queue _ _

/-- The records of a sound queue are told apart by their admission numbers (R62). -/
theorem Queue.sound.eq_of_id_eq {q : Queue} (h : q.sound) {a b : Record} (ha : a ∈ q.records) (hb : b ∈ q.records)
    (hid : a.id = b.id) : a = b := by
  obtain ⟨-, hrising, -, -⟩ := h
  exact List.inj_on_of_nodup_map (hrising.imp Nat.ne_of_lt) ha hb hid

/-! ### One release -/

@[simp] theorem Record.release_id (r : Record) : r.release.id = r.id := rfl

theorem Record.release_release (r : Record) : r.release.release = r.release := rfl

theorem Part.releaseRecord_queue (r : Record) (p : Part) :
    (p.releaseRecord r).queue =
      { p.queue with records := p.queue.records.map fun z => if z.id = r.id then z.release else z } :=
  Part.changeRecord_queue _ _ _

theorem Part.releaseRecord_points (r : Record) (p : Part) :
    (p.releaseRecord r).points = { p.points with work := p.points.work ++ [.notice .release r.point] } := by
  simp [Part.releaseRecord, Part.tell]

theorem Part.releaseRecord_arbiter (r : Record) (p : Part) :
    (p.releaseRecord r).arbiter = { p.arbiter with decisionPending := true } := by
  simp [Part.releaseRecord, Part.occasion]

theorem Part.releaseRecord_keeps (r : Record) (p : Part) :
    p.keepsBut [.bus, .points, .queue, .arbiter] (p.releaseRecord r) := by
  intro b hb
  cases b <;> simp [Block.same, Part.releaseRecord] at hb ⊢

/-! ### One release after the other -/

/-- Records released in turn are released wherever they stand in the queue: a release is found by its admission number,
which no release changes. -/
theorem Part.foldl_releaseRecord_queue (rs : List Record) (p : Part) :
    (rs.foldl (fun q r => q.releaseRecord r) p).queue =
      { p.queue with
        records := p.queue.records.map fun z => if z.id ∈ rs.map (·.id) then z.release else z } := by
  induction rs generalizing p with
  | nil => simp
  | cons r rs ih =>
    rw [List.foldl_cons, ih, Part.releaseRecord_queue, List.map_map]
    refine congrArg (fun zs => { p.queue with records := zs }) ?_
    refine List.map_congr_left fun z _ => ?_
    by_cases hr : z.id = r.id
    · simp [hr, Record.release_release]
    · simp [hr]

/-- The Point Engine is told of each record released, in the order of the releases. -/
theorem Part.foldl_releaseRecord_points (rs : List Record) (p : Part) :
    (rs.foldl (fun q r => q.releaseRecord r) p).points =
      { p.points with work := p.points.work ++ rs.map fun r => .notice .release r.point } := by
  induction rs generalizing p with
  | nil => simp
  | cons r rs ih => rw [List.foldl_cons, ih, Part.releaseRecord_points]; simp

/-- The Line Arbiter is told when a record is released. -/
theorem Part.foldl_releaseRecord_arbiter (rs : List Record) (p : Part) :
    (rs.foldl (fun q r => q.releaseRecord r) p).arbiter =
      { p.arbiter with decisionPending := p.arbiter.decisionPending || decide (rs.length ≠ 0) } := by
  induction rs generalizing p with
  | nil => simp
  | cons r rs ih => rw [List.foldl_cons, ih, Part.releaseRecord_arbiter]; simp

/-! ### RELEASE HELD -/

/-- The records after RELEASE HELD. -/
def Queue.released (q : Queue) : Queue :=
  { q with records := q.records.map fun r => if r.state = .held then r.release else r }

/-- No record is HELD after RELEASE HELD. -/
theorem Queue.held_released (q : Queue) : q.released.held = 0 := by
  have hnone : ∀ r : Record, ¬ (if r.state = .held then r.release else r).state = .held := by
    intro r
    split
    · simp [Record.release]
    · assumption
  simp [Queue.held, Queue.released, hnone]

/-- RELEASE HELD releases the HELD records and no other (R84): a record named by the admission number of a HELD record is
that record. -/
theorem Part.releaseAll_queue {p : Part} (h : p.queue.sound) : p.releaseAll.queue = p.queue.released := by
  unfold Part.releaseAll Queue.released
  rw [Part.foldl_releaseRecord_queue]
  refine congrArg (fun zs => { p.queue with records := zs }) ?_
  refine List.map_congr_left fun z hz => ?_
  have hnamed : z.id ∈ (p.queue.records.filter (·.state = .held)).map (·.id) ↔ z.state = .held := by
    constructor
    · intro hid
      obtain ⟨r, hr, hid⟩ := List.mem_map.mp hid
      obtain ⟨hr, hheld⟩ := List.mem_filter.mp hr
      rw [← h.eq_of_id_eq hr hz hid]
      simpa using hheld
    · exact fun hheld => List.mem_map_of_mem (List.mem_filter.mpr ⟨hz, by simpa using hheld⟩)
  simp only [hnamed]

theorem Part.releaseAll_points (p : Part) :
    p.releaseAll.points = { p.points with work := p.points.work ++
      (p.queue.records.filter (·.state = .held)).map fun r => .notice .release r.point } :=
  Part.foldl_releaseRecord_points _ _

theorem Part.releaseAll_arbiter (p : Part) :
    p.releaseAll.arbiter =
      { p.arbiter with decisionPending := p.arbiter.decisionPending || decide (p.queue.held ≠ 0) } :=
  Part.foldl_releaseRecord_arbiter _ _

theorem Part.releaseAll_keeps (p : Part) : p.keepsBut [.bus, .points, .queue, .arbiter] p.releaseAll :=
  Part.keepsBut_foldl (fun q r => Part.releaseRecord_keeps r q) _ _

/-- RELEASE HELD is a command of its own whose effect ends with its result (R84, R176). -/
theorem Part.takeCommand_releaseHeld {p : Part} (hm : p.mode.serving = true) (hp : p.notice.inProgress = none)
    (tag : BitVec 8) (spare : BitVec 4) :
    p.takeCommand (commandWord 9 tag spare) =
      (p.handing { code := 9, tag } (commandWord 9 tag spare)).releaseAll.complete .done := by
  have hword := commandOf_commandWord 9 tag spare
  have haccepted : p.refusal (commandOf (commandWord 9 tag spare)).code = none := by
    rw [hword]
    exact Part.refusal_of_serving (code := 9) hm hp (by decide) (by decide)
  rw [Part.takeCommand_accepted haccepted, hword]
  rfl

/-- Settles O33: the HELD records are released in turn by `Part.releaseAll`, between the taking of the command word and the
result DONE, neither of which touches the Report Queue, the Point Engine or the Line Arbiter. -/
theorem releaseHeldReleasesEveryHeldRecord : Obligations.ReleaseHeldReleasesEveryHeldRecord := by
  unfold Obligations.ReleaseHeldReleasesEveryHeldRecord
  intro tag spare s hm ⟨hwritable, hidle⟩ hsound
  have ⟨_, hbus, hwords⟩ := hwritable
  have hwrite := State.commandWrite_eq (Mode.live_of_serving hm) hbus 9 tag spare
  rw [Part.takeCommand_releaseHeld hm hidle] at hwrite
  have hhanding := Part.handing_keeps { code := 9, tag } (commandWord 9 tag spare) s.part
  have hanswered := Part.answered_of_complete (q := (s.part.handing { code := 9, tag } (commandWord 9 tag spare)).releaseAll)
    hwords (Part.releaseAll_keeps _ .mirrors (by simp)) (Part.releaseAll_keeps _ .notice (by simp))
    (fun h => by rwa [Part.releaseAll_keeps _ .mode (by simp), hhanding .mode (by simp)]) .done
  generalize s.part.handing { code := 9, tag } (commandWord 9 tag spare) = given at *
  have hqueue : given.queue = s.part.queue := hhanding .queue (by simp)
  have hpoints : given.points = s.part.points := hhanding .points (by simp)
  have harbiter : given.arbiter = s.part.arbiter := hhanding .arbiter (by simp)
  have hreleased : (Part.settle s.part (given.releaseAll.complete .done)).queue = s.part.queue.released := by
    rw [Part.settle_queue, Part.complete_queue, Part.releaseAll_queue (hqueue ▸ hsound), hqueue]
  refine ⟨_, congrArg Host.Outcome.next hwrite, State.commandTaken_of hwritable (by decide) ?_, hanswered.2, hanswered.1,
    hreleased, ?_, ?_, ?_, ?_⟩
  · have hrelease := Part.keepsBut_mono (Part.releaseAll_keeps given)
      (cs := [.bus, .notice, .points, .queue, .arbiter]) (by simp)
    refine Part.keepsBut_trans (Part.keepsBut_mono hhanding (by simp)) (Part.keepsBut_trans hrelease ?_)
    exact Part.keepsBut_mono (Part.complete_keeps .done _) (by simp)
  · rw [hreleased, Queue.held_released]
  · rw [Part.settle_points, Part.complete_points, Part.releaseAll_points, hpoints, hqueue]
  · rw [Part.settle_arbiter, Part.complete_arbiter, Part.releaseAll_arbiter, harbiter]
  · rw [Part.settle_arbiter, Part.complete_arbiter, Part.releaseAll_arbiter, harbiter, hqueue]

end Sys2Proof.Machine
end

section
/-! PROOFS. The cause enable and IRQ (R174). -/

namespace Sys2Proof.Machine

/-! ### IRQ -/

/-- Two words have a common bit exactly when some bit is set in both. -/
theorem and_ne_zero_iff_exists_common_bit {n : Nat} (x y : BitVec n) :
    x &&& y ≠ 0 ↔ ∃ i : Fin n, x.getLsbD i.val = true ∧ y.getLsbD i.val = true := by
  have hzero : x &&& y = 0 ↔ ∀ i : Fin n, ¬ (x.getLsbD i.val = true ∧ y.getLsbD i.val = true) := by
    constructor
    · rintro h i ⟨hx, hy⟩
      have hbit : (x &&& y).getLsbD i.val = true := by rw [BitVec.getLsbD_and, hx, hy]; rfl
      simp [h] at hbit
    · intro h
      refine BitVec.eq_of_getLsbD_eq fun i hi => ?_
      simpa using h ⟨i, hi⟩
  rw [Ne, hzero, not_forall]
  simp only [not_not]

/-- The cause enable holds bits 9 to 0 of the mirror of 014H. -/
theorem Part.getLsbD_causeEnable (p : Part) (i : Fin 10) :
    p.causeEnable.getLsbD i.val = (p.mirror 0x014).getLsbD i.val := by
  simp [Part.causeEnable]

/-- A part that works asserts IRQ while a cause set is enabled in the mirror of 014H (R174). -/
theorem Part.irq_iff_enabled_cause {p : Part} (hm : p.mode.live = true) :
    p.irq = true ↔
      ∃ i : Fin 10, p.notice.causes.getLsbD i.val = true ∧ (p.mirror 0x014).getLsbD i.val = true := by
  simp only [← Part.getLsbD_causeEnable, ← and_ne_zero_iff_exists_common_bit]
  simp [Part.irq, hm]

/-! ### A panel write of the cause enable -/

/-- The part owns no field of the cause enable. -/
theorem Part.actsOn_causeEnable (p : Part) : p.actsOn 0x014 = false := by
  have h : partOwned 0x014 = false := by decide
  simp [Part.actsOn, h]

theorem windowWord_causeEnable : windowWord 0x014 = .config 0x14 := by decide

/-- The mirror of the cause enable keeps the whole word. -/
theorem Part.mirror_setMirror_causeEnable {p : Part} (h : p.mirrors.words.wf = true) (w : Word) :
    (p.setMirror 0x014 w).mirror 0x014 = w := by
  have hmask : mirrorMask 0x014 = BitVec.allOnes 16 := by decide
  rw [Part.mirror_setMirror h, if_pos rfl, hmask, BitVec.and_allOnes]

/-- A part that works takes the cause enable into its mirror in every state, and does nothing else (R27, R30, R31). -/
theorem Part.takeWrite_causeEnable {p : Part} (hm : p.mode.live = true) (w : Word) :
    p.takeWrite 0x014 w = p.setMirror 0x014 w := by
  cases hmode : p.mode with
  | off | xrst | bypass => simp [hmode, Mode.live] at hm
  | loading => simp [Part.takeWrite, hmode, Part.takeLoading]
  | unconfigured => simp [Part.takeWrite, hmode, Part.takeUnconfigured]
  | stopped | running => simp [Part.takeWrite, hmode, windowWord_causeEnable, Part.takeServing]

/-- A cause enable written while the bus is free reaches memory and its mirror at once (R4, R174). -/
theorem State.causeEnableWrite_eq {s : State} (hm : s.part.mode.live = true) (hb : s.busFree) (w : Word) :
    s.panelWriteAt 0x014 w =
      { s with
        mem := s.mem.write (s.wordAddress 0x014) w
        part := Part.settle s.part (s.part.setMirror 0x014 w) } := by
  have hc : s.part.captures 0x014 w = false := by
    simp [Part.captures, windowWord_causeEnable]
  rw [State.panelWriteAt_eq (by decide) hm hb (Part.stalls_eq_false rfl (by decide) hc)]
  simp [Part.clearByWrite, Part.downstream, Part.actsOn_causeEnable, Part.takeWrite_causeEnable hm, State.wordAddress]

/-! ### A panel read of the cause word -/

/-- A part that works shows every cause at 013H, whatever memory holds there (R7, R10). -/
theorem Part.overlay_causeWord {p : Part} (hm : p.mode.live = true) (w : Word) :
    p.overlay 0x013 w = p.notice.causes.setWidth 16 := by
  have howned : partOwned 0x013 = true := by decide
  have hword : windowWord 0x013 = .config 0x13 := by decide
  have hacts : p.actsOn 0x013 = true := by
    cases hmode : p.mode with
    | off | xrst | bypass => simp [hmode, Mode.live] at hm
    | loading | unconfigured | stopped | running => simp [Part.actsOn, howned, hmode]
  simp [Part.overlay, hacts, hword, Part.ownedWord]

/-- A read of the cause word begun while the bus is free shows every cause and changes nothing else (R10, R174). -/
theorem State.causeWordRead_eq {s : State} (hm : s.part.mode.live = true) (hb : s.busFree) :
    s.begin (.read (s.address 0x013)) = { s with upData := some (s.part.notice.causes.setWidth 16) } := by
  rw [State.begin_read hm hb, State.shown, State.windowOffset_address s (by decide)]
  simp only [Part.overlay_causeWord hm]

/-- Settles O36: a write of 014H changes the mirror of 014H and what settling changes, which is neither the mirrors nor
the causes, and IRQ is computed from these two. -/
theorem irqFollowsTheEnabledCauses : Obligations.IrqFollowsTheEnabledCauses := by
  unfold Obligations.IrqFollowsTheEnabledCauses
  intro s hm
  refine ⟨Part.irq_iff_enabled_cause hm, fun w ⟨_, hbus, hwords⟩ => ?_, fun hbus => ?_⟩
  · have hmode : (Part.settle s.part (s.part.setMirror 0x014 w)).mode = s.part.mode := by simp
    have hmirror : (Part.settle s.part (s.part.setMirror 0x014 w)).mirror 0x014 = w := by
      rw [Part.mirror_of_mirrors (Part.settle_mirrors _ _), Part.mirror_setMirror_causeEnable hwords]
    obtain ⟨-, hcauses, -⟩ := Part.settle_trouble s.part (s.part.setMirror 0x014 w)
    rw [Part.setMirror_notice] at hcauses
    have hirq := Part.irq_iff_enabled_cause (hmode ▸ hm)
    rw [hmirror, hcauses] at hirq
    exact ⟨_, congrArg Host.Outcome.next (State.causeEnableWrite_eq hm hbus w), hmode, hmirror, hcauses, hirq⟩
  · exact ⟨_, congrArg Host.Outcome.next (State.causeWordRead_eq hm hbus), rfl, rfl⟩

end Sys2Proof.Machine
end

section
/-! PROOFS. What two states of the part share, and what every operation that stays in its communicator state keeps: the
invariants of the buffers, the mirrors, the Point Engine, the Report Queue and the Notice Unit. -/

namespace Sys2Proof.Machine

/-! ### Blocks kept -/

theorem Part.keepsBut_refl (bs : List Block) (p : Part) : p.keepsBut bs p := fun b _ => by cases b <;> rfl

section
variable {bs : List Block} {p q : Part} (h : p.keepsBut bs q)
include h

theorem Part.keepsBut.mode (hb : .mode ∉ bs := by decide) : q.mode = p.mode := h .mode hb
theorem Part.keepsBut.straps (hb : .straps ∉ bs := by decide) : q.straps = p.straps := h .straps hb
theorem Part.keepsBut.bus (hb : .bus ∉ bs := by decide) : q.bus = p.bus := h .bus hb
theorem Part.keepsBut.mirrors (hb : .mirrors ∉ bs := by decide) : q.mirrors = p.mirrors := h .mirrors hb
theorem Part.keepsBut.points (hb : .points ∉ bs := by decide) : q.points = p.points := h .points hb
theorem Part.keepsBut.queue (hb : .queue ∉ bs := by decide) : q.queue = p.queue := h .queue hb
theorem Part.keepsBut.routes (hb : .routes ∉ bs := by decide) : q.routes = p.routes := h .routes hb
theorem Part.keepsBut.lines (hb : .lines ∉ bs := by decide) : q.lines = p.lines := h .lines hb
theorem Part.keepsBut.arbiter (hb : .arbiter ∉ bs := by decide) : q.arbiter = p.arbiter := h .arbiter hb
theorem Part.keepsBut.time (hb : .time ∉ bs := by decide) : q.time = p.time := h .time hb
theorem Part.keepsBut.heartbeat (hb : .heartbeat ∉ bs := by decide) : q.heartbeat = p.heartbeat := h .heartbeat hb
theorem Part.keepsBut.notice (hb : .notice ∉ bs := by decide) : q.notice = p.notice := h .notice hb

end

/-! ### The invariants, block by block -/

/-- The bounds of the Bus Path survive (R12, R14). -/
structure Bus.evolves (b c : Bus) : Prop where
  writeBack : b.wbq.length ≤ Config.writeBackPlaces ∧ b.wbq.Nodup →
    c.wbq.length ≤ Config.writeBackPlaces ∧ c.wbq.Nodup
  staging : b.staging.length ≤ Config.stagingPlaces → c.staging.length ≤ Config.stagingPlaces
  stagePos : b.stagePos < 4 → c.stagePos < 4

theorem Bus.evolves_refl (b : Bus) : b.evolves b := ⟨id, id, id⟩

theorem Bus.evolves.trans {a b c : Bus} (h : a.evolves b) (k : b.evolves c) : a.evolves c :=
  ⟨k.writeBack ∘ h.writeBack, k.staging ∘ h.staging, k.stagePos ∘ h.stagePos⟩

/-- A memory in canonical form whose addresses lie below a bound. -/
def Memory.within (n : Nat) (m : Memory) : Prop := m.wf = true ∧ ∀ c ∈ m, c.1 < n

/-- The bounds of the capture FIFO and OVERRUN (R44, R46). -/
def Points.fifoBounded (q : Points) : Prop :=
  q.fifo.length ≤ Config.fifoPlaces ∧ (q.fifo = [] → q.overrun = false)

/-- Point 263 is not OWED (R53). -/
def Points.testNotOwed (q : Points) : Prop := q.shadows[263].owed = false

/-- The Point Engine is in no piece of work and no command waits for it (R42, R177). -/
def Points.commandFree (q : Points) : Prop := q.todo = [] ∧ .adopt ∉ q.work ∧ .clearTrouble ∉ q.work

/-- The bounds of the Point Engine survive. -/
structure Points.evolves (p q : Points) : Prop where
  fifo : p.fifoBounded → q.fifoBounded
  test : p.testNotOwed → q.testNotOwed

theorem Points.evolves_refl (p : Points) : p.evolves p := ⟨id, id⟩

theorem Points.evolves.trans {a b c : Points} (h : a.evolves b) (k : b.evolves c) : a.evolves c :=
  ⟨k.fifo ∘ h.fifo, k.test ∘ h.test⟩

/-- The part goes on in the same kind of communicator state, and the invariants of its buffers, mirrors, points and log heads
survive. -/
structure Part.proceeds (p q : Part) : Prop where
  serving : q.mode.serving = p.mode.serving
  loading : q.mode = .loading ↔ p.mode = .loading
  load : q.mirrors.load = p.mirrors.load
  words : p.mirrors.words.within 4096 → q.mirrors.words.within 4096
  bus : p.bus.evolves q.bus
  points : p.points.evolves q.points
  heads : p.notice.heads.isSome = true → q.notice.heads.isSome = true

/-- The same, and the Report Queue stays sound. -/
structure Part.advances (p q : Part) : Prop extends p.proceeds q where
  queue : p.queue.sound → q.queue.sound

/-- The same, and outside STOPPED and RUNNING the commands stay where they are: the Point Engine is given none, and the one
that a LOAD answers stays in progress (R177). -/
structure Part.evolves (p q : Part) : Prop extends p.advances q where
  engine : p.mode.serving = false → p.points.commandFree → q.points.commandFree
  command : p.mode = .loading → p.notice.inProgress.isSome = true → q.notice.inProgress.isSome = true

theorem Part.proceeds_refl (p : Part) : p.proceeds p :=
  ⟨rfl, Iff.rfl, rfl, id, Bus.evolves_refl _, Points.evolves_refl _, id⟩

theorem Part.advances_refl (p : Part) : p.advances p := ⟨p.proceeds_refl, id⟩

theorem Part.evolves_refl (p : Part) : p.evolves p := ⟨p.advances_refl, fun _ => id, fun _ => id⟩

theorem Part.proceeds.trans {a b c : Part} (h : a.proceeds b) (k : b.proceeds c) : a.proceeds c where
  serving := k.serving.trans h.serving
  loading := k.loading.trans h.loading
  load := k.load.trans h.load
  words := k.words ∘ h.words
  bus := h.bus.trans k.bus
  points := h.points.trans k.points
  heads := k.heads ∘ h.heads

theorem Part.advances.trans {a b c : Part} (h : a.advances b) (k : b.advances c) : a.advances c :=
  ⟨h.toproceeds.trans k.toproceeds, k.queue ∘ h.queue⟩

theorem Part.evolves.trans {a b c : Part} (h : a.evolves b) (k : b.evolves c) : a.evolves c where
  toadvances := h.toadvances.trans k.toadvances
  engine hm := k.engine (h.serving.trans hm) ∘ h.engine hm
  command hm := k.command (h.loading.mpr hm) ∘ h.command hm

/-- In STOPPED and RUNNING a command may be taken, done and answered. -/
theorem Part.advances.evolves {p q : Part} (h : p.advances q) (hm : p.mode.serving = true) : p.evolves q :=
  ⟨h, fun hn => by simp [hm] at hn, fun hl => by simp [hl, Mode.serving] at hm⟩

/-- The same with the later operation named first. -/
theorem Part.evolves.after {a b c : Part} (k : b.evolves c) (h : a.evolves b) : a.evolves c := h.trans k

theorem Part.advances.after {a b c : Part} (k : b.advances c) (h : a.advances b) : a.advances c := h.trans k

/-- A fold evolves when every step of it does. -/
theorem Part.evolves_foldl {α : Type} {f : Part → α → Part} (h : ∀ (p : Part) (a : α), p.evolves (f p a)) (l : List α)
    (p : Part) : p.evolves (l.foldl f p) := by
  induction l generalizing p with
  | nil => exact Part.evolves_refl p
  | cons a l ih => exact (h p a).trans (ih _)

/-- Only what changes of the blocks has to keep its invariants. -/
theorem Part.proceeds_of_keeps {bs : List Block} {p q : Part} (h : p.keepsBut bs q) (hm : .mode ∉ bs := by decide)
    (load : .mirrors ∈ bs → q.mirrors.load = p.mirrors.load := by simp)
    (words : .mirrors ∈ bs → p.mirrors.words.within 4096 → q.mirrors.words.within 4096 := by simp)
    (bus : .bus ∈ bs → p.bus.evolves q.bus := by simp)
    (points : .points ∈ bs → p.points.evolves q.points := by simp)
    (heads : .notice ∈ bs → p.notice.heads.isSome = true → q.notice.heads.isSome = true := by simp) :
    p.proceeds q where
  serving := by rw [h.mode hm]
  loading := by rw [h.mode hm]
  load := by by_cases hb : .mirrors ∈ bs; exacts [load hb, by rw [h.mirrors hb]]
  words := by by_cases hb : .mirrors ∈ bs; exacts [words hb, by rw [h.mirrors hb]; exact id]
  bus := by by_cases hb : .bus ∈ bs; exacts [bus hb, by rw [h.bus hb]; exact Bus.evolves_refl _]
  points := by by_cases hb : .points ∈ bs; exacts [points hb, by rw [h.points hb]; exact Points.evolves_refl _]
  heads := by by_cases hb : .notice ∈ bs; exacts [heads hb, by rw [h.notice hb]; exact id]

theorem Part.evolves_of_keeps {bs : List Block} {p q : Part} (h : p.keepsBut bs q) (hm : .mode ∉ bs := by decide)
    (load : .mirrors ∈ bs → q.mirrors.load = p.mirrors.load := by simp)
    (words : .mirrors ∈ bs → p.mirrors.words.within 4096 → q.mirrors.words.within 4096 := by simp)
    (bus : .bus ∈ bs → p.bus.evolves q.bus := by simp)
    (points : .points ∈ bs → p.points.evolves q.points := by simp)
    (engine : .points ∈ bs → p.mode.serving = false → p.points.commandFree → q.points.commandFree := by simp)
    (queue : .queue ∈ bs → p.queue.sound → q.queue.sound := by simp)
    (heads : .notice ∈ bs → p.notice.heads.isSome = true → q.notice.heads.isSome = true := by simp)
    (command : .notice ∈ bs → p.mode = .loading → p.notice.inProgress.isSome = true →
      q.notice.inProgress.isSome = true := by simp) :
    p.evolves q where
  toproceeds := Part.proceeds_of_keeps h hm load words bus points heads
  queue := by by_cases hb : .queue ∈ bs; exacts [queue hb, by rw [h.queue hb]; exact id]
  engine := by by_cases hb : .points ∈ bs; exacts [engine hb, by rw [h.points hb]; exact fun _ => id]
  command := by by_cases hb : .notice ∈ bs; exacts [command hb, by rw [h.notice hb]; exact fun _ => id]

/-! ### Operations of Ops.lean -/

theorem Part.setLine_keeps (n : LineNo) (l : Line) (p : Part) : p.keepsBut [.lines] (p.setLine n l) := by
  intro b hb
  cases b <;> simp [Block.same] at hb ⊢

theorem Part.setLine_evolves (n : LineNo) (l : Line) (p : Part) : p.evolves (p.setLine n l) :=
  Part.evolves_of_keeps (Part.setLine_keeps n l p)

theorem Part.setRoute_keeps (r : RouteNo) (v : Route) (p : Part) : p.keepsBut [.routes] (p.setRoute r v) := by
  intro b hb
  cases b <;> simp [Block.same] at hb ⊢

theorem Part.setRoute_evolves (r : RouteNo) (v : Route) (p : Part) : p.evolves (p.setRoute r v) :=
  Part.evolves_of_keeps (Part.setRoute_keeps r v p)

theorem Part.setOffer_keeps (n : LineNo) (o : Option Offer) (p : Part) : p.keepsBut [.arbiter] (p.setOffer n o) := by
  intro b hb
  cases b <;> simp [Block.same] at hb ⊢

theorem Part.setOffer_evolves (n : LineNo) (o : Option Offer) (p : Part) : p.evolves (p.setOffer n o) :=
  Part.evolves_of_keeps (Part.setOffer_keeps n o p)

theorem Part.occasion_keeps (p : Part) : p.keepsBut [.arbiter] p.occasion := by
  intro b hb
  cases b <;> simp [Block.same] at hb ⊢

theorem Part.occasion_evolves (p : Part) : p.evolves p.occasion := Part.evolves_of_keeps p.occasion_keeps

theorem Part.tell_keeps (w : Work) (p : Part) : p.keepsBut [.points] (p.tell w) := by
  intro b hb
  cases b <;> simp [Block.same] at hb ⊢

/-- The work is no command of the Notice Unit (R59, R165). -/
def Work.ordinary (w : Work) : Prop := w ≠ .adopt ∧ w ≠ .clearTrouble

theorem Part.tell_points_evolves (w : Work) (p : Part) : p.points.evolves (p.tell w).points := ⟨id, id⟩

theorem Part.tell_evolves {w : Work} (hw : w.ordinary) (p : Part) : p.evolves (p.tell w) := by
  refine Part.evolves_of_keeps (Part.tell_keeps w p) (points := fun _ => Part.tell_points_evolves w p)
    (engine := fun _ _ ⟨htodo, hadopt, hclear⟩ => ⟨htodo, ?_, ?_⟩)
  · simpa using ⟨hadopt, hw.1.symm⟩
  · simpa using ⟨hclear, hw.2.symm⟩

/-- In STOPPED and RUNNING the Point Engine may be told of a command too. -/
theorem Part.tell_evolves_of_serving {p : Part} (hm : p.mode.serving = true) (w : Work) : p.evolves (p.tell w) :=
  Part.evolves_of_keeps (Part.tell_keeps w p) (points := fun _ => Part.tell_points_evolves w p)
    (engine := fun _ h => by simp [hm] at h)

/-! ### Entries, log records, results -/

theorem Bus.evolves_of_entries {b c : Bus} (h : b.keepsButEntries c)
    (hb : b.wbq.length ≤ Config.writeBackPlaces ∧ b.wbq.Nodup → c.wbq.length ≤ Config.writeBackPlaces ∧ c.wbq.Nodup) :
    b.evolves c := by
  obtain ⟨hstaging, hpos, -⟩ := h
  exact ⟨hb, by rw [hstaging]; exact id, by rw [hpos]; exact id⟩

theorem Part.enter_keeps (o : Owner) (off : Nat) (p : Part) : p.keepsBut [.bus] (p.enter o off) := by
  intro b hb
  cases b <;> simp [Block.same] at hb ⊢

theorem Part.enter_evolves (o : Owner) (off : Nat) (p : Part) : p.evolves (p.enter o off) :=
  Part.evolves_of_keeps (Part.enter_keeps o off p)
    (bus := fun _ => Bus.evolves_of_entries (Part.enter_entries o off p) Part.enter_bounded)

theorem Part.enterAll_evolves (o : Owner) (offs : List Nat) (p : Part) : p.evolves (p.enterAll o offs) :=
  Part.evolves_foldl (fun p a => Part.enter_evolves o a p) offs p

/-- The waiters of the write-back queue change, and at most one address is added that was not there, to a free place (R12). -/
theorem Part.admitted_evolves (ws : List Waiter) (p : Part) :
    p.evolves { p with bus := { p.bus with wbWait := ws } } :=
  Part.evolves_of_keeps (bs := [.bus]) (fun b hb => by cases b <;> simp [Block.same] at hb ⊢)
    (bus := fun _ => ⟨id, id, id⟩)

theorem Part.admitted_first_evolves {p : Part} {off : Nat} (hoff : off ∉ p.bus.wbq)
    (hroom : p.bus.wbq.length < Config.writeBackPlaces) (ws : List Waiter) :
    p.evolves { p with bus := { p.bus with wbWait := ws, wbq := p.bus.wbq ++ [off] } } := by
  refine Part.evolves_of_keeps (bs := [.bus]) (fun b hb => by cases b <;> simp [Block.same] at hb ⊢)
    (bus := fun _ => ⟨fun ⟨_, hnodup⟩ => ⟨?_, ?_⟩, id, id⟩)
  · simpa using hroom
  · exact List.Nodup.append hnodup (by simp) (by simpa using hoff)

theorem Part.admitWaiter_evolves (p : Part) : p.evolves p.admitWaiter := by
  unfold Part.admitWaiter
  split
  · exact Part.evolves_refl p
  split
  · exact (Part.admitted_evolves _ p).trans (Part.enterAll_evolves _ _ _)
  rename_i habsent
  split
  · rename_i hroom
    exact (Part.admitted_first_evolves (by simpa using habsent) hroom _).trans (Part.enterAll_evolves _ _ _)
  · exact Part.evolves_refl p

/-- The Notice Unit may change all but the heads and the command in progress. -/
theorem Part.withNotice_evolves {p : Part} {m : Notice} (hh : m.heads = p.notice.heads)
    (hc : m.inProgress = p.notice.inProgress) : p.evolves { p with notice := m } :=
  Part.evolves_of_keeps (bs := [.notice]) (fun b hb => by cases b <;> simp [Block.same] at hb ⊢)
    (heads := fun _ => by rw [hh]; exact id) (command := fun _ _ => by rw [hc]; exact id)

theorem Part.raise_evolves (c : Cause) (p : Part) : p.evolves (p.raise c) := by
  unfold Part.raise
  split
  · exact (Part.enter_evolves _ _ _).after (Part.withNotice_evolves rfl rfl)
  · exact Part.evolves_refl p

theorem Part.stage_evolves (x : Staged) (p : Part) : p.evolves (p.stage x) := by
  refine Part.evolves_of_keeps (bs := [.bus]) (fun b hb => by cases b <;> simp [Block.same] at hb ⊢) (bus := fun _ => ?_)
  unfold Part.stage
  split
  · rename_i hroom
    exact ⟨id, fun _ => by simpa using hroom.2, id⟩
  · exact ⟨id, id, id⟩

theorem Part.makeLog_evolves (r : LogRecord) (p : Part) : p.evolves (p.makeLog r) := by
  unfold Part.makeLog
  split
  · refine (Part.stage_evolves _ _).after (Part.evolves_of_keeps (bs := [.notice]) ?_ (heads := ?_) (command := ?_))
    · intro b hb
      cases b <;> simp [Block.same] at hb ⊢
    · simp
    · exact fun _ _ => id
  · exact Part.evolves_refl p

theorem Part.logNow_evolves (r : LogRecord) (p : Part) : p.evolves (p.logNow r) := Part.makeLog_evolves _ p

theorem Part.setResult_evolves (tag : BitVec 8) (st : ResultStatus) (p : Part) : p.evolves (p.setResult tag st) :=
  (Part.enter_evolves _ _ _).after (Part.withNotice_evolves rfl rfl)

theorem Part.finalResult_evolves (c : Command) (st : ResultStatus) (p : Part) : p.evolves (p.finalResult c st) :=
  ((Part.setResult_evolves _ _ p).trans (Part.raise_evolves _ _)).trans (Part.logNow_evolves _ _)

/-- No command is in progress any more. -/
def Part.ended (p : Part) : Part := { p with notice := { p.notice with inProgress := none } }

theorem Part.ended_keeps (p : Part) : p.keepsBut [.notice] p.ended := by
  intro b hb
  cases b <;> simp [Block.same, Part.ended] at hb ⊢

theorem Part.complete_advances (st : ResultStatus) (p : Part) : p.advances (p.complete st) := by
  have hended : p.advances p.ended :=
    ⟨Part.proceeds_of_keeps p.ended_keeps (heads := fun _ => id), id⟩
  unfold Part.complete
  split
  · exact hended.trans (Part.finalResult_evolves _ _ _).toadvances
  · exact Part.advances_refl p

/-- Outside LOADING a command may be completed: no RELOAD that ends LOADING is in progress (R177). -/
theorem Part.complete_evolves {p : Part} (hm : p.mode ≠ .loading) (st : ResultStatus) : p.evolves (p.complete st) :=
  ⟨p.complete_advances st, by rw [Part.complete_points]; exact fun _ => id, fun h => absurd h hm⟩

/-- Of the Bus Path the queue and the staging buffer are as they were. -/
theorem Part.withBus_evolves {p : Part} {b : Bus} (hq : b.wbq = p.bus.wbq) (hs : b.staging = p.bus.staging)
    (hp : b.stagePos = p.bus.stagePos) : p.evolves { p with bus := b } :=
  Part.evolves_of_keeps (bs := [.bus]) (fun b hb => by cases b <;> simp [Block.same] at hb ⊢)
    (bus := fun _ => ⟨by rw [hq]; exact id, by rw [hs]; exact id, by rw [hp]; exact id⟩)

theorem Part.answerRefused_evolves (c : Command) (st : ResultStatus) (p : Part) : p.evolves (p.answerRefused c st) := by
  unfold Part.answerRefused
  split
  · exact Part.finalResult_evolves c st p
  · exact Part.withBus_evolves rfl rfl rfl
  · exact (Part.finalResult_evolves c st p).trans (Part.withBus_evolves rfl rfl rfl)

theorem Part.beginDrain_evolves (p : Part) : p.evolves p.beginDrain := by
  have hanswer : ∀ (q : Part) (a : Command × ResultStatus), q.evolves (q.answerRefused a.1 a.2) := fun q a =>
    Part.answerRefused_evolves a.1 a.2 q
  unfold Part.beginDrain
  split
  · simp only
    split
    · exact Part.evolves.after (Part.evolves_foldl hanswer _ _) (Part.withBus_evolves rfl rfl rfl)
    · exact Part.withBus_evolves rfl rfl rfl
  · exact Part.evolves_refl p

theorem Part.admitLog_evolves (p : Part) : p.evolves p.admitLog := by
  refine Part.evolves_of_keeps (bs := [.bus]) (fun b hb => by cases b <;> simp [Block.same] at hb ⊢) (bus := fun _ => ?_)
  unfold Part.admitLog
  split
  · split
    · rename_i hroom
      exact ⟨id, fun _ => by simpa using hroom, id⟩
    · exact Bus.evolves_refl _
  · exact Bus.evolves_refl _

/-! ### Settling -/

theorem Part.retrouble_evolves (p : Part) : p.evolves p.retrouble := by
  unfold Part.retrouble
  split
  · exact Part.evolves_refl p
  · exact Part.withNotice_evolves rfl rfl

theorem Part.settle_evolves (old p : Part) : p.evolves (Part.settle old p) := by
  unfold Part.settle
  simp only
  split
  · exact p.retrouble_evolves
  · exact p.retrouble_evolves.trans (Part.enter_evolves _ _ _)

/-- A step of a part that works evolves when what it does evolves, and one that does not work does nothing. -/
theorem Part.work_evolves {f : Part → Part} {p : Part} (h : p.mode.live = true → p.evolves (f p)) :
    p.evolves (p.work f) := by
  by_cases hm : p.mode.live = true
  · rw [Part.work_of_live hm]; exact (h hm).trans (Part.settle_evolves _ _)
  · rw [Part.work_of_not_live (by simpa using hm)]; exact Part.evolves_refl p

theorem Part.serve_evolves {f : Part → Part} {p : Part} (h : p.mode.serving = true → p.evolves (f p)) :
    p.evolves (p.serve f) := by
  by_cases hm : p.mode.serving = true
  · rw [Part.serve_of_serving hm]; exact (h hm).trans (Part.settle_evolves _ _)
  · rw [Part.serve_of_not_serving (by simpa using hm)]; exact Part.evolves_refl p

/-! ### The records of the Report Queue -/

/-- What tells a record from the others: its admission number and its slot (R60, R62). -/
def Record.key (r : Record) : Nat × SlotNo := (r.id, r.slot)

/-- A sound queue stays sound when records leave it and when records change in all but their keys. -/
theorem Queue.sound.of_keys {q : Queue} (h : q.sound) {rs : List Record}
    (hk : (rs.map Record.key).Sublist (q.records.map Record.key)) : ({ q with records := rs } : Queue).sound := by
  obtain ⟨hcount, hrising, hnext, hslots⟩ := h
  have hids : (rs.map (·.id)).Sublist (q.records.map (·.id)) := by
    simpa [List.map_map, Function.comp_def, Record.key] using hk.map Prod.fst
  have hslot : (rs.map (·.slot)).Sublist (q.records.map (·.slot)) := by
    simpa [List.map_map, Function.comp_def, Record.key] using hk.map Prod.snd
  refine ⟨?_, hrising.sublist hids, fun r hr => ?_, hslots.sublist hslot⟩
  · exact (by simpa using hids.length_le : rs.length ≤ q.records.length).trans hcount
  · obtain ⟨x, hx, hid⟩ := List.mem_map.mp (hids.subset (List.mem_map_of_mem hr))
    have := hnext x hx
    simp only at hid ⊢
    omega

theorem Part.setRecords_keeps (rs : List Record) (p : Part) : p.keepsBut [.bus, .queue] (p.setRecords rs) := by
  intro b hb
  cases b <;> simp [Block.same] at hb ⊢

theorem Part.withRecords_keeps (rs : List Record) (p : Part) : p.keepsBut [.queue] (p.withRecords rs) := by
  intro b hb
  cases b <;> simp [Block.same] at hb ⊢

theorem Part.withRecords_evolves {p : Part} {rs : List Record}
    (h : p.queue.sound → (rs.map Record.key).Sublist (p.queue.records.map Record.key)) : p.evolves (p.withRecords rs) :=
  Part.evolves_of_keeps (Part.withRecords_keeps rs p) (queue := fun _ hs => hs.of_keys (h hs))

theorem Part.setRecords_evolves {p : Part} {rs : List Record}
    (h : p.queue.sound → (rs.map Record.key).Sublist (p.queue.records.map Record.key)) : p.evolves (p.setRecords rs) := by
  unfold Part.setRecords
  simp only
  split
  · exact Part.withRecords_evolves h
  · exact (Part.withRecords_evolves h).trans (Part.enter_evolves _ _ _)

theorem Part.removeRecord_evolves (id : Nat) (p : Part) : p.evolves (p.removeRecord id) :=
  Part.setRecords_evolves fun _ => List.filter_sublist.map _

theorem Part.changeRecord_evolves {f : Record → Record} (hf : ∀ r, (f r).key = r.key) (id : Nat) (p : Part) :
    p.evolves (p.changeRecord id f) := by
  have hkeys : (p.queue.records.map fun r => if r.id = id then f r else r).map Record.key =
      p.queue.records.map Record.key := by
    rw [List.map_map]
    refine List.map_congr_left fun r _ => ?_
    simp only [Function.comp]
    split
    · exact hf r
    · rfl
  exact Part.setRecords_evolves fun _ => by rw [hkeys]

end Sys2Proof.Machine
end

section
/-! PROOFS. What the operations of the Report Queue keep: the records are told apart, a request finds a free slot, and a
record is removed, changed or merged without a change of its key. -/

namespace Sys2Proof.Machine

/-! ### The first index that holds -/

/-- The first index of which a test holds is the lowest. -/
theorem find?_finRange_eq_some {n : Nat} {f : Fin n → Bool} {i : Fin n} :
    (List.finRange n).find? f = some i ↔ f i = true ∧ ∀ j < i, f j = false := by
  rw [List.find?_eq_some_iff_getElem]
  constructor
  · rintro ⟨hi, k, hk, hget, hbefore⟩
    have hki : i.val = k := by rw [← hget]; simp
    refine ⟨hi, fun j hj => ?_⟩
    have := hbefore j.val (by omega)
    simpa using this
  · rintro ⟨hi, hbefore⟩
    refine ⟨hi, i.val, by simp, by simp, fun j hj => ?_⟩
    have := hbefore ⟨j, by omega⟩ (by simpa [Fin.lt_def] using hj)
    simpa using this

theorem find?_finRange_eq_none {n : Nat} {f : Fin n → Bool} :
    (List.finRange n).find? f = none ↔ ∀ i, f i = false := by
  simp [List.find?_eq_none]

/-! ### A free slot -/

/-- A queue with fewer than 64 records leaves a slot free, and the slot taken is the lowest of these (R60). -/
theorem Queue.freeSlot_spec {q : Queue} (h : q.count < Config.queuePlaces) :
    (∀ x ∈ q.records, x.slot ≠ q.freeSlot) ∧ ∀ k < q.freeSlot, ∃ x ∈ q.records, x.slot = k := by
  have hsome : ∃ i, (List.finRange 64).find? (fun s => q.records.all (·.slot ≠ s)) = some i := by
    rw [← Option.isSome_iff_exists, ← Option.ne_none_iff_isSome, Ne, find?_finRange_eq_none]
    intro hused
    have hall : (Finset.univ : Finset SlotNo) ⊆ (q.records.map (·.slot)).toFinset := by
      intro k _
      simpa using hused k
    have hcard := Finset.card_le_card hall
    have hlen := List.toFinset_card_le (q.records.map (·.slot))
    simp only [Finset.card_univ, Fintype.card_fin, List.length_map] at hcard hlen
    simp only [Queue.count, Config.queuePlaces] at h
    omega
  obtain ⟨i, hi⟩ := hsome
  have hslot : q.freeSlot = i := by rw [Queue.freeSlot, hi, Option.getD_some]
  obtain ⟨hfree, hlower⟩ := find?_finRange_eq_some.mp hi
  rw [hslot]
  exact ⟨by simpa using hfree, fun k hk => by simpa using hlower k hk⟩

/-- A record admitted to a place that is free, with the next admission number and a free slot, leaves the queue sound. -/
theorem Queue.sound.of_admitted {q : Queue} (h : q.sound) (hc : q.count < Config.queuePlaces) {r : Record}
    (hid : r.id = q.nextId) (hslot : r.slot = q.freeSlot) :
    ({ q with records := q.records ++ [r], nextId := q.nextId + 1 } : Queue).sound := by
  obtain ⟨-, hrising, hnext, hslots⟩ := h
  obtain ⟨hfree, -⟩ := Queue.freeSlot_spec hc
  refine ⟨?_, ?_, fun x hx => ?_, ?_⟩
  · simpa [Queue.count] using hc
  · simp only [List.map_append, List.map_cons, List.map_nil, List.pairwise_append]
    refine ⟨hrising, by simp, fun a ha b hb => ?_⟩
    obtain ⟨x, hx, rfl⟩ := List.mem_map.mp ha
    simpa [hid] using (List.mem_singleton.mp hb) ▸ hid ▸ hnext x hx
  · rcases List.mem_append.mp hx with hx | hx
    · exact Nat.lt_succ_of_lt (hnext x hx)
    · simp [List.mem_singleton.mp hx, hid]
  · simp only [List.map_append, List.map_cons, List.map_nil]
    refine List.Nodup.append hslots (by simp) ?_
    simpa [hslot] using hfree

/-! ### Admission, withdrawal, eviction, refusal -/

theorem Part.withRecords_proceeds (rs : List Record) (p : Part) : p.proceeds (p.withRecords rs) :=
  Part.proceeds_of_keeps (Part.withRecords_keeps rs p)

theorem Part.setRecords_proceeds (rs : List Record) (p : Part) : p.proceeds (p.setRecords rs) := by
  unfold Part.setRecords
  simp only
  split
  · exact Part.withRecords_proceeds rs p
  · exact (Part.withRecords_proceeds rs p).trans (Part.enter_evolves _ _ _).toproceeds

/-- The records after an admission (R60, R68). -/
theorem Part.admission_queue (rq : Request) (p : Part) :
    (p.admission rq).queue =
      { p.queue with records := p.queue.records ++ [p.newRecord rq], nextId := p.queue.nextId + 1 } := by
  simp only [Part.admission, Part.occasion_queue, Part.setRecords_queue]

theorem Part.admission_proceeds (rq : Request) (p : Part) : p.proceeds (p.admission rq) := by
  unfold Part.admission
  refine Part.proceeds.trans ?_ ((Part.setRecords_proceeds _ _).trans (Part.occasion_evolves _).toproceeds)
  refine Part.proceeds_of_keeps (bs := [.queue]) ?_
  intro b hb
  cases b <;> simp [Block.same] at hb ⊢

theorem Part.admission_sound {p : Part} (hq : p.queue.sound) (hc : p.queue.count < Config.queuePlaces) (rq : Request) :
    (p.admission rq).queue.sound := by
  rw [Part.admission_queue]
  exact hq.of_admitted hc rfl rfl

/-- A request is admitted where a sound queue has been left with a free place. -/
theorem Part.evolves.admission {p q : Part} (h : p.evolves q)
    (hc : p.queue.sound → q.queue.count < Config.queuePlaces) (rq : Request) : p.evolves (q.admission rq) where
  toproceeds := h.toproceeds.trans (Part.admission_proceeds rq q)
  queue hq := Part.admission_sound (h.queue hq) (hc hq) rq
  engine := by rw [Part.admission_points]; exact h.engine
  command := by rw [Part.admission_notice]; exact h.command

theorem Part.withdraw_evolves (r : Record) (p : Part) : p.evolves (p.withdraw r) := by
  unfold Part.withdraw
  exact (Part.tell_evolves (by simp [Work.ordinary]) _).after
    ((Part.makeLog_evolves _ _).after (Part.removeRecord_evolves _ _))

theorem Part.withdrawPoint_evolves (i : PointNo) (p : Part) : p.evolves (p.withdrawPoint i) :=
  Part.evolves_foldl (fun q r => Part.withdraw_evolves r q) _ p

/-- The fold that finds the victim keeps to the records it is given. -/
theorem victim_foldl {rs : List Record} {best : Option Record} {v : Record}
    (h : rs.foldl (fun best r => match best with
      | some b => if b.priority ≤ r.priority then some r else some b
      | none => some r) best = some v) : v ∈ rs ∨ best = some v := by
  induction rs generalizing best with
  | nil => exact .inr h
  | cons r rs ih =>
    rw [List.foldl_cons] at h
    rcases ih h with hv | hv
    · exact .inl (List.mem_cons_of_mem r hv)
    · cases best with
      | none => exact .inl (by simp_all)
      | some b =>
        simp only at hv
        split at hv
        · exact .inl (by simp_all)
        · exact .inr hv

/-- The victim of a full queue is one of its WAITING and HELD records (R71). -/
theorem Queue.mem_of_victim {q : Queue} {v : Record} (h : q.victim = some v) : v ∈ q.records ∧ v.chained = true := by
  rcases victim_foldl h with hv | hv
  · simpa using hv
  · simp at hv

theorem Part.foldl_makeLog_evolves (logs : List LogRecord) (p : Part) :
    p.evolves (logs.foldl (fun q l => q.makeLog l) p) :=
  Part.evolves_foldl (fun q l => Part.makeLog_evolves l q) logs p

@[simp] theorem Part.foldl_makeLog_queue (logs : List LogRecord) (p : Part) :
    (logs.foldl (fun q l => q.makeLog l) p).queue = p.queue :=
  foldl_keeps Part.queue _ (fun q l => Part.makeLog_queue l q) logs p

/-- The part of an eviction before the new record is admitted: the victims have left, with their log records, cause QUEUE
and the notice (R72). -/
def Part.evicted (v : Record) (p : Part) : Part :=
  Part.tell (.notice .eviction v.point) (Part.raise .queue
    (((p.queue.victims v).map (p.droppedLog .evicted)).foldl (fun q l => q.makeLog l)
      (p.setRecords (p.queue.records.filter (· ∉ p.queue.victims v)))))

theorem Part.evict_eq (v : Record) (rq : Request) (p : Part) : p.evict v rq = Part.admission rq (p.evicted v) := rfl

theorem Part.evicted_queue (v : Record) (p : Part) :
    (p.evicted v).queue = { p.queue with records := p.queue.records.filter (· ∉ p.queue.victims v) } := by
  rw [Part.evicted, Part.tell_queue, Part.raise_queue, Part.foldl_makeLog_queue, Part.setRecords_queue]

theorem Part.evicted_evolves (v : Record) (p : Part) : p.evolves (p.evicted v) :=
  (Part.tell_evolves (by simp [Work.ordinary]) _).after ((Part.raise_evolves _ _).after
    ((Part.foldl_makeLog_evolves _ _).after (Part.setRecords_evolves fun _ => List.filter_sublist.map _)))

/-- The victim is one of those evicted. -/
theorem Queue.mem_victims {q : Queue} {v : Record} (hv : v ∈ q.records) (hc : v.chained = true) : v ∈ q.victims v := by
  simp [Queue.victims, Queue.chain, hv, hc]

/-- An eviction leaves a free place in a sound queue (R72). -/
theorem Part.evicted_count {p : Part} {v : Record} (hq : p.queue.sound) (hv : v ∈ p.queue.records)
    (hc : v.chained = true) : (p.evicted v).queue.count < Config.queuePlaces := by
  rw [Part.evicted_queue, Queue.count]
  refine lt_of_lt_of_le (List.length_filter_lt_length_iff_exists.mpr ⟨v, hv, ?_⟩) hq.1
  simpa using Queue.mem_victims hv hc

theorem Part.evict_evolves {p : Part} {v : Record} (hv : v ∈ p.queue.records) (hc : v.chained = true) (rq : Request) :
    p.evolves (p.evict v rq) := by
  rw [Part.evict_eq]
  exact (Part.evicted_evolves v p).admission (fun hq => Part.evicted_count hq hv hc) rq

theorem Part.refuse_evolves (rq : Request) (p : Part) : p.evolves (p.refuse rq) :=
  (Part.raise_evolves _ _).after (Part.logNow_evolves _ _)

theorem Part.foldTold_evolves (x : Record) (p : Part) : p.evolves (p.foldTold x) := by
  unfold Part.foldTold
  split
  · exact Part.occasion_evolves p
  · exact Part.evolves_refl p

theorem Record.fold1_key (rq : Request) (own : Nat) (x : Record) : (x.fold1 rq own).key = x.key := by
  unfold Record.fold1
  cases rq.sense <;> rfl

theorem Record.fold2_key (rq : Request) (own : Nat) (x : Record) : (x.fold2 rq own).key = x.key := by
  unfold Record.fold2
  cases rq.sense <;> rfl

theorem Part.request_evolves (rq : Request) (p : Part) : p.evolves (p.request rq).1 := by
  unfold Part.request
  split
  · exact (Part.foldTold_evolves _ _).after (Part.changeRecord_evolves (Record.fold1_key rq 0) _ _)
  · exact (Part.foldTold_evolves _ _).after ((Part.changeRecord_evolves (Record.fold2_key rq 0) _ _).after
      (Part.withdraw_evolves _ _))
  · split
    · rename_i hroom
      exact (Part.evolves_refl p).admission (fun _ => hroom) rq
    · split
      · rename_i v hv
        obtain ⟨hmem, hchained⟩ := Queue.mem_of_victim hv
        split
        · exact Part.evict_evolves hmem hchained rq
        · exact Part.refuse_evolves rq p
      · exact Part.refuse_evolves rq p

theorem Part.judgeUnrouted_evolves (p : Part) : p.evolves p.judgeUnrouted := by
  unfold Part.judgeUnrouted
  split
  · refine (Part.occasion_evolves _).after (Part.setRecords_evolves fun _ => ?_)
    rw [List.map_map]
    exact List.Sublist.refl _
  · exact Part.evolves_refl p

/-! ### Calls -/

theorem Record.assign_key (n : LineNo) (pos : Nat) (r : Record) : (r.assign n pos).key = r.key := rfl

theorem Part.assign_evolves (n : LineNo) (pos : Nat) (rs : List Record) (p : Part) : p.evolves (p.assign n pos rs) := by
  have hstep : ∀ (q : Part) (e : Record × Nat),
      q.evolves (Part.tell (.notice .assignment e.1.point) (q.changeRecord e.1.id (Record.assign n (pos + e.2)))) :=
    fun q e => Part.evolves.trans (Part.changeRecord_evolves (Record.assign_key n (pos + e.2)) e.1.id q)
      (Part.tell_evolves (by simp [Work.ordinary]) _)
  exact Part.evolves_foldl hstep _ _

theorem Part.markSending_evolves (s : SlotNo) (p : Part) : p.evolves (p.markSending s) := by
  unfold Part.markSending
  split
  · split
    · refine Part.evolves.after (Part.tell_evolves (by simp [Work.ordinary]) _) ?_
      exact Part.changeRecord_evolves (f := fun r => { r with state := .sending }) (fun _ => rfl) _ _
    · exact Part.evolves_refl p
  · exact Part.evolves_refl p

theorem Part.enterNext_evolves (o : Owner) (off : Nat) (e : Part × List Nat) :
    e.1.evolves (Part.enterNext o off e).1 := by
  rcases Part.enterNext_eq o off e with h | h <;> rw [h]
  · exact Part.enter_evolves _ _ _
  · exact Part.evolves_refl _

theorem Part.countDelivery_evolves (r : RouteNo) (leg : Leg) (e : Part × List Nat) :
    e.1.evolves (Part.countDelivery r leg e).1 := by
  have hraise : ∀ (b : Bool) (c : Cause) (f : Part × List Nat), f.1.evolves (if b then (f.1.raise c, f.2) else f).1 := by
    intro b c f
    cases b
    · exact Part.evolves_refl _
    · exact Part.raise_evolves _ _
  have henter : ∀ (P : Prop) [Decidable P] (off : Nat) (f : Part × List Nat),
      f.1.evolves (if P then f else Part.enterNext .routeBlock off f).1 := by
    intro P _ off f
    split
    · exact Part.evolves_refl _
    · exact Part.enterNext_evolves _ _ _
  unfold Part.countDelivery
  exact (hraise _ _ _).after ((henter _ _ _).after ((hraise _ _ _).after ((henter _ _ _).after
    (Part.setRoute_evolves _ _ _))))

theorem Part.removeDelivered_evolves (id : Nat) (p : Part) : p.evolves (p.removeDelivered id).1 :=
  (Part.enterNext_evolves _ _ _).after (Part.withRecords_evolves fun _ => List.filter_sublist.map _)

theorem Part.deliver_evolves (n : LineNo) (d : DestNo) (s : SlotNo) (p : Part) : p.evolves (p.deliver n d s) := by
  unfold Part.deliver
  split
  · exact (Part.occasion_evolves _).after ((Part.logNow_evolves _ _).after
      ((Part.tell_evolves (by simp [Work.ordinary]) _).after
        ((Part.countDelivery_evolves _ _ _).after (Part.removeDelivered_evolves _ _))))
  · exact Part.evolves_refl p

theorem Part.failLegs_key (p : Part) (r : Record) : (p.failLegs r).key = r.key := by
  unfold Part.failLegs
  simp only
  split
  · rfl
  · split <;> rfl

theorem Part.failed_key (p : Part) (r : Record) : (p.failed r).key = r.key := by
  have h := p.failLegs_key r
  unfold Part.failed
  simp only
  split <;> exact h

/-- Records put in place of those with their admission numbers: each has the key of a record of the queue. -/
theorem Part.replaceRecords_evolves {p : Part} {rs : List Record}
    (h : ∀ x ∈ rs, ∃ r ∈ p.queue.records, x.key = r.key) : p.evolves (p.replaceRecords rs) := by
  refine Part.setRecords_evolves fun hq => ?_
  have hkeys : (p.queue.records.map fun r => (rs.find? (·.id = r.id)).getD r).map Record.key =
      p.queue.records.map Record.key := by
    rw [List.map_map]
    refine List.map_congr_left fun r hr => ?_
    simp only [Function.comp]
    cases hf : rs.find? (·.id = r.id) with
    | none => rfl
    | some x =>
      obtain ⟨z, hz, hkey⟩ := h x (List.mem_of_find?_eq_some hf)
      have hid : x.id = r.id := by simpa using List.find?_some hf
      have hzid : z.id = r.id := by rw [← hid]; exact (congrArg Prod.fst hkey).symm
      rw [Option.getD_some, hkey, hq.eq_of_id_eq hz hr hzid]
  rw [hkeys]

theorem Queue.mem_of_inSlot {q : Queue} {k : SlotNo} {r : Record} (h : q.inSlot k = some r) :
    r ∈ q.records ∧ r.slot = k :=
  ⟨List.mem_of_find?_eq_some h, by simpa using List.find?_some h⟩

theorem Queue.mem_of_inSlots {q : Queue} {ks : List SlotNo} {r : Record} (h : r ∈ q.inSlots ks) : r ∈ q.records := by
  obtain ⟨k, -, hk⟩ := List.mem_filterMap.mp h
  exact (Queue.mem_of_inSlot hk).1

/-! ### Records that return are merged (R81) -/

/-- Every record of the first list has the key of a record of the second. -/
def keysFrom (l m : List Record) : Prop := ∀ x ∈ l, ∃ r ∈ m, x.key = r.key

theorem mergeStep_keys {m : List Record} {acc : List Record × List Record} {r : Record} (hr : r ∈ m)
    (h : keysFrom acc.1 m) : keysFrom (mergeStep acc r).1 m := by
  have hinto : ∀ (x : Record) (f : Record → Record) (l : List Record), (∀ z, (f z).key = z.key) → keysFrom l m →
      keysFrom (l.map fun z => if z.id = x.id then f z else z) m := by
    intro x f l hf hl y hy
    obtain ⟨z, hz, rfl⟩ := List.mem_map.mp hy
    obtain ⟨e, he, hkey⟩ := hl z hz
    refine ⟨e, he, ?_⟩
    split
    · rw [hf, hkey]
    · exact hkey
  unfold mergeStep
  simp only
  split
  · intro x hx
    rcases List.mem_append.mp hx with hx | hx
    · exact h x hx
    · exact ⟨r, hr, by rw [List.mem_singleton.mp hx]⟩
  · exact hinto _ _ _ (Record.fold1_key _ _) h
  · exact hinto _ _ _ (Record.fold2_key _ _) fun x hx => h x (List.mem_filter.mp hx).1

theorem foldl_mergeStep_keys {m : List Record} (l : List Record) (hl : l ⊆ m) (acc : List Record × List Record)
    (h : keysFrom acc.1 m) : keysFrom (l.foldl mergeStep acc).1 m := by
  induction l generalizing acc with
  | nil => exact h
  | cons r l ih =>
    obtain ⟨hr, hl⟩ := List.cons_subset.mp hl
    exact ih hl _ (mergeStep_keys hr h)

/-- Records of a point replaced by what is left of them after a merge, or removed, keep their keys. -/
theorem merged_keys {q : Queue} (hq : q.sound) {l : List Record} (hl : keysFrom l q.records) (P : Record → Prop)
    [DecidablePred P] :
    ((q.records.filterMap fun r => if P r then l.find? (·.id = r.id) else some r).map Record.key).Sublist
      (q.records.map Record.key) := by
  have hone : ∀ r ∈ q.records, ∀ x, (if P r then l.find? (·.id = r.id) else some r) = some x → x.key = r.key := by
    intro r hr x hx
    split at hx
    · obtain ⟨z, hz, hkey⟩ := hl x (List.mem_of_find?_eq_some hx)
      have hid : x.id = r.id := by simpa using List.find?_some hx
      have hzid : z.id = r.id := by rw [← hid]; exact (congrArg Prod.fst hkey).symm
      rw [hkey, hq.eq_of_id_eq hz hr hzid]
    · cases hx; rfl
  generalize q.records = rs at hone
  induction rs with
  | nil => exact List.Sublist.refl _
  | cons r rs ih =>
    have ih := ih fun z hz => hone z (List.mem_cons_of_mem r hz)
    rw [List.filterMap_cons]
    cases hr : (if P r then l.find? (·.id = r.id) else some r) with
    | none => exact ih.cons _
    | some x =>
      simp only [List.map_cons, hone r List.mem_cons_self x hr]
      exact ih.cons_cons _

theorem Part.mergePoint_evolves (i : PointNo) (p : Part) : p.evolves (p.mergePoint i) := by
  have hstep : ∀ (q : Part) (l : LogRecord), q.evolves (Part.tell (.notice .withdrawal i) (q.makeLog l)) := fun q l =>
    (Part.tell_evolves (by simp [Work.ordinary]) _).after (Part.makeLog_evolves _ _)
  unfold Part.mergePoint
  simp only
  split
  · exact Part.evolves_refl p
  · refine (Part.tell_evolves (by simp [Work.ordinary]) _).after (Part.evolves.after (Part.evolves_foldl hstep _ _)
      (Part.setRecords_evolves fun hq => merged_keys hq (foldl_mergeStep_keys _ ?_ _ ?_) _))
    · exact List.filter_subset_self _
    · simp [keysFrom]

theorem Part.returned_evolves (rs : List Record) (p : Part) : p.evolves (p.returned rs) := by
  have htell : ∀ (q : Part) (r : Record),
      q.evolves (q.tell (.notice (if r.state = .held then .exhaustion else .returned) r.point)) := fun q r =>
    Part.tell_evolves (by simp [Work.ordinary]) q
  have hmerge : ∀ (q : Part) (i : PointNo), q.evolves (q.mergePoint i) := fun q i => Part.mergePoint_evolves i q
  exact (Part.occasion_evolves _).after ((Part.evolves_foldl hmerge _ _).after (Part.evolves_foldl htell rs p))

theorem Part.failCall_evolves (n : LineNo) (c : Call) (why : FailReason) (p : Part) : p.evolves (p.failCall n c why) := by
  have hlog : ∀ (q : Part) (e : Record × Record), q.evolves (if e.2.state = .held then
      Part.raise .exhausted (q.logNow (e.1.failureLog .exhausted n c.dest why)) else q) := by
    intro q e
    split
    · exact (Part.raise_evolves _ _).after (Part.logNow_evolves _ _)
    · exact Part.evolves_refl q
  unfold Part.failCall
  simp only
  refine (Part.returned_evolves _ _).after (Part.evolves.after (Part.evolves_foldl hlog _ _) ?_)
  have hreplace : p.evolves (p.replaceRecords ((p.queue.inSlots c.undelivered).map p.failed)) := by
    refine Part.replaceRecords_evolves fun x hx => ?_
    obtain ⟨r, hr, rfl⟩ := List.mem_map.mp hx
    exact ⟨r, Queue.mem_of_inSlots hr, p.failed_key r⟩
  split
  · exact (Part.logNow_evolves _ _).after hreplace
  · exact hreplace

theorem Part.interruptCall_evolves (n : LineNo) (c : Call) (kind : LogKind) (p : Part) :
    p.evolves (p.interruptCall n c kind) := by
  unfold Part.interruptCall
  simp only
  refine (Part.returned_evolves _ _).after ?_
  have hreplace : p.evolves (p.replaceRecords
      ((p.queue.inSlots c.undelivered).map fun r => { r with state := .waiting, call := none })) := by
    refine Part.replaceRecords_evolves fun x hx => ?_
    obtain ⟨r, hr, rfl⟩ := List.mem_map.mp hx
    exact ⟨r, Queue.mem_of_inSlots hr, rfl⟩
  split
  · exact (Part.logNow_evolves _ _).after hreplace
  · exact hreplace

/-! ### Times -/

theorem Part.retryPassed_evolves (s : SlotNo) (p : Part) : p.evolves (p.retryPassed s) := by
  unfold Part.retryPassed
  split
  · split
    · split
      · refine Part.evolves.after (Part.occasion_evolves _) ?_
        exact Part.changeRecord_evolves (f := fun r => { r with retry := none }) (fun _ => rfl) _ _
      · exact Part.evolves_refl p
    · exact Part.evolves_refl p
  · exact Part.evolves_refl p

theorem Part.releaseRecord_evolves (r : Record) (p : Part) : p.evolves (p.releaseRecord r) :=
  (Part.changeRecord_evolves (f := Record.release) (fun _ => rfl) _ _).trans
    ((Part.tell_evolves (by simp [Work.ordinary]) _).trans (Part.occasion_evolves _))

theorem Part.holdExpires_evolves (s : SlotNo) (p : Part) : p.evolves (p.holdExpires s) := by
  unfold Part.holdExpires
  split
  · split
    · split
      · exact Part.releaseRecord_evolves _ _
      · exact Part.evolves_refl p
    · exact Part.evolves_refl p
  · exact Part.evolves_refl p

theorem Part.releaseAll_evolves (p : Part) : p.evolves p.releaseAll :=
  Part.evolves_foldl (fun q r => Part.releaseRecord_evolves r q) _ p

end Sys2Proof.Machine
end

section
/-! PROOFS. What the operations of the Line Engines, the Line Arbiter, the Burst Engine and the Time Base keep. -/

namespace Sys2Proof.Machine

/-! ### Line Engines -/

theorem Part.moveLine_evolves (n : LineNo) (f : Line → Line) (p : Part) : p.evolves (p.moveLine n f) := by
  unfold Part.moveLine
  simp only
  split
  · exact Part.setLine_evolves _ _ _
  · exact (Part.occasion_evolves _).after ((Part.enter_evolves _ _ _).after (Part.setLine_evolves _ _ _))

theorem Part.enterFault_evolves (n : LineNo) (p : Part) : p.evolves (p.enterFault n) := by
  have hmove := (Part.moveLine_evolves n (Line.become .fault none) p).trans (Part.raise_evolves .line _)
  unfold Part.enterFault
  simp only
  split
  · exact (Part.logNow_evolves _ _).after ((Part.tell_evolves (by simp [Work.ordinary]) _).after hmove)
  · exact hmove

theorem Part.leaveFault_evolves (n : LineNo) (p : Part) : p.evolves (p.leaveFault n) := by
  have hmove := (Part.moveLine_evolves n (fun l => l.become l.bySense none) p).trans (Part.raise_evolves .line _)
  unfold Part.leaveFault
  simp only
  split
  · exact (Part.logNow_evolves _ _).after ((Part.tell_evolves (by simp [Work.ordinary]) _).after hmove)
  · exact hmove

theorem Part.takeLineEnable_evolves (n : LineNo) (on : Bool) (p : Part) : p.evolves (p.takeLineEnable n on) := by
  unfold Part.takeLineEnable
  simp only
  split
  · exact Part.evolves_refl p
  split
  · exact Part.moveLine_evolves _ _ _
  split
  · exact Part.moveLine_evolves _ _ _
  · exact Part.moveLine_evolves _ _ _
  · split
    · exact (Part.tell_evolves (by simp [Work.ordinary]) _).after (Part.moveLine_evolves _ _ _)
    · exact Part.moveLine_evolves _ _ _
  all_goals exact Part.moveLine_evolves _ _ _

theorem Part.handOutcome_evolves (n : LineNo) (c : Call) (e : CallEnd) (p : Part) : p.evolves (p.handOutcome n c e) := by
  unfold Part.handOutcome
  split
  · exact Part.evolves_refl p
  · cases e with
    | complete => exact Part.evolves_refl p
    | failed why => exact Part.failCall_evolves _ _ _ _
    | preempted => exact Part.interruptCall_evolves _ _ _ _
    | aborted => exact Part.interruptCall_evolves _ _ _ _

theorem Part.endCall_evolves (n : LineNo) (e : CallEnd) (next : Line → Line) (p : Part) :
    p.evolves (p.endCall n e next) := by
  unfold Part.endCall
  split
  · exact (Part.moveLine_evolves _ _ _).after (Part.handOutcome_evolves _ _ _ _)
  · exact Part.evolves_refl p

theorem Part.failLine_evolves (n : LineNo) (why : FailReason) (p : Part) : p.evolves (p.failLine n why) :=
  Part.endCall_evolves _ _ _ _

theorem Part.abortAll_evolves (p : Part) : p.evolves p.abortAll :=
  Part.evolves_foldl (fun q n => Part.endCall_evolves n .aborted Line.toRelease q) _ p

theorem Part.withArbiter_evolves (a : Arbiter) (p : Part) : p.evolves { p with arbiter := a } :=
  Part.evolves_of_keeps (bs := [.arbiter]) fun b hb => by cases b <;> simp [Block.same] at hb ⊢

theorem Part.formCall_evolves (n : LineNo) (d : DestNo) (rs : List Record) (len : Nat) (p : Part) :
    p.evolves (p.formCall n d rs len) := by
  unfold Part.formCall
  exact (Part.moveLine_evolves _ _ _).after ((Part.assign_evolves _ _ _ _).after (Part.withArbiter_evolves _ _))

theorem Part.takeGrant_evolves (n : LineNo) (p : Part) : p.evolves (p.takeGrant n) := by
  have hset := Part.setOffer_evolves n none p
  unfold Part.takeGrant
  split
  · split
    · simp only
      split
      · split
        · exact hset.trans (Part.occasion_evolves _)
        · exact hset.trans (Part.formCall_evolves _ _ _ _ _)
      · exact hset.trans (Part.occasion_evolves _)
    · exact Part.evolves_refl p
  · exact Part.evolves_refl p

theorem Part.takePreemption_evolves (n : LineNo) (p : Part) : p.evolves (p.takePreemption n) := by
  have hset := Part.setOffer_evolves n none p
  unfold Part.takePreemption
  split
  · split
    · simp only
      split
      · exact hset.trans (Part.occasion_evolves _)
      · split
        · exact hset.trans ((Part.formCall_evolves _ _ _ _ _).after (Part.handOutcome_evolves _ _ _ _))
        · exact hset.trans (Part.formCall_evolves _ _ _ _ _)
    · exact Part.evolves_refl p
  · exact Part.evolves_refl p

theorem Part.joinOne_evolves (n : LineNo) (d : DestNo) (e : Part × Bool) (id : Nat) :
    e.1.evolves (Part.joinOne n d e id).1 := by
  unfold Part.joinOne
  simp only
  split
  · split
    · exact Part.evolves_refl _
    · split
      · exact (Part.setLine_evolves _ _ _).after (Part.assign_evolves _ _ _ _)
      · exact Part.evolves_refl _
  · split
    · exact Part.evolves_refl _
    · exact Part.evolves_refl _
  · exact Part.evolves_refl _

theorem Part.foldl_joinOne_evolves (n : LineNo) (d : DestNo) (ids : List Nat) (e : Part × Bool) :
    e.1.evolves (ids.foldl (Part.joinOne n d) e).1 := by
  induction ids generalizing e with
  | nil => exact Part.evolves_refl _
  | cons id ids ih => exact (Part.joinOne_evolves n d e id).trans (ih _)

theorem Part.takeJoin_evolves (n : LineNo) (p : Part) : p.evolves (p.takeJoin n) := by
  unfold Part.takeJoin
  split
  · rename_i o _
    split
    · have hjoin := (Part.setOffer_evolves n none p).trans
        (Part.foldl_joinOne_evolves n o.dest o.records (p.setOffer n none, false))
      simp only
      split
      · exact hjoin.trans (Part.occasion_evolves _)
      · exact hjoin
    · exact Part.evolves_refl p
  · exact Part.evolves_refl p

theorem Part.loopLossExpires_evolves (n : LineNo) (p : Part) : p.evolves (p.loopLossExpires n) := by
  unfold Part.loopLossExpires
  simp only
  split
  · exact Part.evolves_refl p
  split
  · exact Part.enterFault_evolves _ _
  · exact Part.enterFault_evolves _ _
  · split
    · split
      · exact (Part.moveLine_evolves _ _ _).after (Part.handOutcome_evolves _ _ _ _)
      · exact (Part.enterFault_evolves _ _).after (Part.handOutcome_evolves _ _ _ _)
    · exact Part.evolves_refl p
  · exact Part.setLine_evolves _ _ _
  all_goals exact Part.evolves_refl p

theorem Part.guardEnds_evolves (n : LineNo) (p : Part) : p.evolves (p.guardEnds n) := by
  unfold Part.guardEnds
  simp only
  split
  · exact Part.evolves_refl p
  split
  · exact Part.moveLine_evolves _ _ _
  split
  · exact Part.enterFault_evolves _ _
  · exact Part.moveLine_evolves _ _ _

/-! ### Line Arbiter -/

theorem Part.decision_evolves (p : Part) : p.evolves p.decision := by
  unfold Part.decision
  split
  · exact Part.withArbiter_evolves _ _
  · exact Part.evolves_refl p

/-! ### Burst Engine -/

theorem Part.turnaroundEnds_evolves (n : LineNo) (p : Part) : p.evolves (p.turnaroundEnds n) := by
  unfold Part.turnaroundEnds
  split
  · split
    · split
      · exact Part.setLine_evolves _ _ _
      · exact Part.evolves_refl p
    · split
      · exact (Part.markSending_evolves _ _).after (Part.setLine_evolves _ _ _)
      · exact Part.setLine_evolves _ _ _
  · exact Part.evolves_refl p

theorem Part.acknowledge_evolves (n : LineNo) (p : Part) : p.evolves (p.acknowledge n) := by
  unfold Part.acknowledge
  split
  · split
    · exact (Part.deliver_evolves _ _ _ _).trans (Part.setLine_evolves _ _ _)
    · exact Part.evolves_refl p
  · exact Part.evolves_refl p

theorem Part.unanswered_evolves (n : LineNo) (p : Part) : p.evolves (p.unanswered n) := by
  unfold Part.unanswered
  split
  · split
    · exact Part.setLine_evolves _ _ _
    · exact Part.failLine_evolves _ _ _
  · exact Part.evolves_refl p

theorem Part.inPhaseDo_evolves {f : Part → Part} (n : LineNo) (ph : Phase) {p : Part} (h : p.evolves (f p)) :
    p.evolves (p.inPhaseDo n ph f) := by
  unfold Part.inPhaseDo
  split
  · exact h
  · exact Part.evolves_refl p

theorem Part.afterPhaseDo_evolves {f : Part → Part} (n : LineNo) (ph : Phase) {p : Part} (h : p.evolves (f p)) :
    p.evolves (p.afterPhaseDo n ph f) := by
  unfold Part.afterPhaseDo
  split
  · exact Part.inPhaseDo_evolves n ph h
  · exact Part.evolves_refl p

theorem Part.windowCloses_evolves (n : LineNo) (p : Part) : p.evolves (p.windowCloses n) := by
  unfold Part.windowCloses
  split
  · exact Part.evolves_refl p
  · exact Part.unanswered_evolves n p

/-- A step that is taken on a condition. -/
theorem Part.evolves_ite {c : Prop} [Decidable c] {p q : Part} (h : p.evolves q) : p.evolves (if c then q else p) := by
  split
  · exact h
  · exact Part.evolves_refl p

/-! ### Time Base, Heartbeat Monitor, mains supervision, TROUBLE pulse -/

theorem Part.withTime_evolves (t : TimeBase) (p : Part) : p.evolves { p with time := t } :=
  Part.evolves_of_keeps (bs := [.time]) fun b hb => by cases b <;> simp [Block.same] at hb ⊢

theorem Part.setNextTest_evolves (p : Part) : p.evolves p.setNextTest := Part.withTime_evolves _ p

theorem Part.testDue_evolves (p : Part) : p.evolves p.testDue := by
  unfold Part.testDue
  exact Part.evolves_ite ((Part.tell_evolves (by simp [Work.ordinary]) _).after (Part.withTime_evolves _ _))

theorem Part.enterTime_evolves (p : Part) : p.evolves p.enterTime := Part.enterAll_evolves _ _ p

theorem Part.secondPasses_evolves (p : Part) : p.evolves p.secondPasses := by
  unfold Part.secondPasses
  simp only
  split
  · exact Part.evolves_refl p
  · split
    · exact (Part.testDue_evolves _).after ((Part.enterTime_evolves _).after (Part.withTime_evolves _ _))
    · exact Part.withTime_evolves _ _

theorem Part.setHeartbeat_evolves (timer : Option Nat) (silent : Bool) (p : Part) :
    p.evolves (p.setHeartbeat timer silent) := by
  have hset : p.evolves { p with heartbeat := { timer, silent } } :=
    Part.evolves_of_keeps (bs := [.heartbeat]) fun b hb => by cases b <;> simp [Block.same] at hb ⊢
  unfold Part.setHeartbeat
  simp only
  split
  · exact hset
  · exact hset.trans (Part.tell_evolves (by simp [Work.ordinary]) _)

theorem Part.periodChanged_evolves (p : Part) : p.evolves p.periodChanged := by
  unfold Part.periodChanged
  split
  · exact Part.setHeartbeat_evolves _ _ p
  · split
    · exact Part.evolves_refl p
    · exact Part.setHeartbeat_evolves _ _ p

theorem Part.heartbeatExpires_evolves (p : Part) : p.evolves p.heartbeatExpires := by
  unfold Part.heartbeatExpires
  exact Part.evolves_ite ((Part.setHeartbeat_evolves _ _ _).after (Part.raise_evolves _ _))

theorem Part.mainsExpires_evolves (p : Part) : p.evolves p.mainsExpires := by
  unfold Part.mainsExpires
  simp only
  split
  · exact Part.evolves_refl p
  · have hlive : ∀ (b : Bool) (q : Part),
        q.evolves (if b then Part.occasion (q.enter .windowMirrors 0x017) else q) := fun b q =>
      Part.evolves_ite ((Part.occasion_evolves _).after (Part.enter_evolves _ _ _))
    have hserving : ∀ (b c : Bool) (q : Part), q.evolves (if b then q.tell (.condition 257 c) else q) := fun b c q =>
      Part.evolves_ite (Part.tell_evolves (by simp [Work.ordinary]) q)
    exact Part.evolves.after (hserving _ _ _) (Part.evolves.after (hlive _ _) (Part.withTime_evolves _ _))

theorem Part.pulseToggles_evolves (p : Part) : p.evolves p.pulseToggles := by
  unfold Part.pulseToggles
  exact Part.evolves_ite (Part.withNotice_evolves rfl rfl)

/-- In every mode but without power a powered step does what it is asked to; a part that works settles. -/
theorem Part.powered_evolves {f : Part → Part} {p : Part} (h : p.evolves (f p)) : p.evolves (p.powered f) := by
  unfold Part.powered
  split
  · exact Part.evolves_refl p
  · exact h
  · exact h
  all_goals exact h.trans (Part.settle_evolves _ _)

end Sys2Proof.Machine
end

section
/-! PROOFS. What the operations of the Point Engine keep. -/

namespace Sys2Proof.Machine

/-! ### Shadow entries -/

theorem Part.onShadow_keeps (i : PointNo) (f : Shadow → Shadow) (p : Part) : p.keepsBut [.points] (p.onShadow i f) := by
  intro b hb
  cases b <;> simp [Block.same] at hb ⊢

/-- A shadow entry may change in all but a mark that makes point 263 OWED (R53). -/
theorem Part.onShadow_evolves {i : PointNo} {f : Shadow → Shadow} {p : Part}
    (h : i.val = 263 → (p.shadow i).owed = false → (f (p.shadow i)).owed = false) : p.evolves (p.onShadow i f) := by
  refine Part.evolves_of_keeps (Part.onShadow_keeps i f p) (points := fun _ => ⟨id, fun ht => ?_⟩) (engine := fun _ _ => id)
  by_cases hi : i.val = 263
  · obtain rfl : i = 263 := Fin.ext hi
    simpa [Points.testNotOwed, Part.onShadow, Part.setShadow] using h rfl ht
  · simpa [Points.testNotOwed, Part.onShadow, Part.setShadow, Vector.getElem_set, hi] using ht

theorem Part.restatus_evolves (i : PointNo) (p : Part) : p.evolves (p.restatus i) := by
  unfold Part.restatus
  split
  · exact Part.evolves_refl p
  · exact (Part.enter_evolves _ _ _).after (Part.onShadow_evolves fun _ => id)

theorem Part.setOwed_evolves (i : PointNo) (b : Bool) (p : Part) : p.evolves (p.setOwed i b) :=
  Part.onShadow_evolves fun hi _ => by simp [hi]

theorem Part.oweNow_evolves (i : PointNo) (p : Part) : p.evolves (p.oweNow i) :=
  (Part.setOwed_evolves i true p).trans (Part.restatus_evolves i _)

theorem Part.refresh_evolves (ignored : Option Intended) (i : PointNo) (p : Part) : p.evolves (p.refresh ignored i) := by
  unfold Part.refresh
  split
  · exact Part.onShadow_evolves fun _ => id
  split
  · exact Part.onShadow_evolves fun _ => id
  · exact Part.evolves_refl p

theorem Part.makeRequest_evolves (i : PointNo) (p : Part) : p.evolves (p.makeRequest i) := by
  unfold Part.makeRequest
  split
  · rename_i rq _
    have hrequest := Part.request_evolves rq p
    split
    · rename_i q heq
      rw [heq] at hrequest
      exact hrequest.trans (Part.oweNow_evolves i q)
    · rename_i q _ _ heq
      rw [heq] at hrequest
      exact hrequest.trans (Part.restatus_evolves i q)
  · exact Part.evolves_refl p

/-! ### Capture -/

theorem Part.withPoints_keeps (q : Points) (p : Part) : p.keepsBut [.points] { p with points := q } := by
  intro b hb
  cases b <;> simp [Block.same] at hb ⊢

/-- The FIFO may lose entries; OVERRUN ends when it becomes empty (R46). -/
theorem Part.setFifo_evolves {f : List Capture} {p : Part} (h : f.length ≤ p.points.fifo.length) :
    p.evolves (p.setFifo f) := by
  refine Part.evolves_of_keeps (Part.withPoints_keeps _ p) (points := fun _ => ⟨fun ⟨hlen, _⟩ => ⟨h.trans hlen, ?_⟩, id⟩)
    (engine := fun _ _ => id)
  intro hempty
  have hf : f = [] := hempty
  simp [Part.setFifo, hf]

theorem Part.beginOverrun_evolves {p : Part} (h : p.points.fifo ≠ []) (i : PointNo) (code : BitVec 6) :
    p.evolves (p.beginOverrun i code) := by
  have hfifo : (p.oweNow i).points.fifo = p.points.fifo := by
    unfold Part.oweNow Part.restatus
    split
    · rfl
    · rw [Part.enter_points]; rfl
  have howed := Part.oweNow_evolves i p
  have hbegun : p.evolves
      { p.oweNow i with points := { (p.oweNow i).points with overrun := true, latch := true } } := by
    refine howed.trans (Part.evolves_of_keeps (Part.withPoints_keeps _ _)
      (points := fun _ => ⟨fun ⟨hlen, _⟩ => ⟨hlen, fun hempty => absurd (hfifo ▸ hempty) h⟩, id⟩) (engine := fun _ _ => id))
  unfold Part.beginOverrun
  exact (Part.tell_evolves (by simp [Work.ordinary]) _).after ((Part.raise_evolves _ _).after
    ((Part.logNow_evolves _ _).after hbegun))

theorem Part.capture_evolves (i : PointNo) (code : BitVec 6) (p : Part) : p.evolves (p.capture i code) := by
  unfold Part.capture
  split
  · exact Part.oweNow_evolves i p
  split
  · rename_i hroom
    refine Part.evolves_of_keeps (Part.withPoints_keeps _ p) (points := fun _ => ⟨fun _ => ⟨?_, by simp⟩, id⟩)
      (engine := fun _ _ => id)
    simpa using hroom
  · rename_i hfull
    exact Part.beginOverrun_evolves (fun h => hfull (by simp [h])) i code

theorem Part.takeFifo_evolves (p : Part) : p.evolves p.takeFifo := by
  unfold Part.takeFifo
  split
  · exact Part.evolves_refl p
  · rename_i c rest heq
    have hfifo : p.evolves (p.setFifo rest) := Part.setFifo_evolves (by simp [heq])
    simp only
    split
    · exact hfifo.trans (Part.onShadow_evolves fun _ => id)
    · exact hfifo.trans ((Part.makeRequest_evolves _ _).after (Part.onShadow_evolves fun _ => id))

/-! ### Isolation -/

theorem Part.setIsolated_evolves (i : PointNo) (b : Bool) (p : Part) : p.evolves (p.setIsolated i b) :=
  (Part.enter_evolves _ _ _).after (Part.onShadow_evolves fun _ => id)

theorem Part.groupPoint_evolves (a : GroupAction) (i : PointNo) (p : Part) : p.evolves (p.groupPoint a i) := by
  cases a with
  | isolate =>
    show p.evolves (p.isolatePoint i)
    unfold Part.isolatePoint
    split
    · exact Part.evolves_refl p
    · exact (Part.restatus_evolves _ _).after ((Part.withdrawPoint_evolves _ _).after
        ((Part.setOwed_evolves _ _ _).after (Part.setIsolated_evolves _ _ _)))
  | deisolate =>
    have howe : ∀ q : Part, q.evolves (if q.pointEnabled i then q.oweNow i else q) := fun q =>
      Part.evolves_ite (Part.oweNow_evolves i q)
    exact Part.evolves.after (howe _) (Part.evolves_ite (Part.setIsolated_evolves i false p))
  | rescan => exact Part.evolves_ite (Part.oweNow_evolves i p)

/-! ### ADOPT BASELINE, CLEAR TROUBLE -/

theorem Part.baseline_evolves (i : PointNo) (p : Part) : p.evolves (p.baseline i) := by
  have hrefresh : p.evolves (if isReal i && !p.pointEnabled i then p else p.refresh none i) := by
    split
    · exact Part.evolves_refl p
    · exact Part.refresh_evolves _ _ _
  unfold Part.baseline
  exact (Part.enterAll_evolves _ _ _).after ((Part.restatus_evolves _ _).after ((Part.setOwed_evolves _ _ _).after
    (Part.evolves.after (Part.onShadow_evolves fun _ => id) ((Part.withdrawPoint_evolves _ _).after hrefresh))))

theorem Part.drainFifo_evolves (n : Nat) (p : Part) : p.evolves (p.drainFifo n) := by
  induction n generalizing p with
  | zero => exact Part.evolves_refl p
  | succ n ih =>
    unfold Part.drainFifo
    split
    · exact Part.evolves_refl p
    · exact p.takeFifo_evolves.trans (ih _)

theorem Part.latchAs_evolves (i : PointNo) (active : Bool) (p : Part) : p.evolves (p.latchAs i active) :=
  Part.evolves_ite (Part.evolves_of_keeps (Part.withPoints_keeps _ p) (points := fun _ => ⟨id, id⟩)
    (engine := fun _ _ => id))

theorem Part.takeCondition_evolves (i : PointNo) (active : Bool) (p : Part) : p.evolves (p.takeCondition i active) := by
  unfold Part.takeCondition
  have hset : p.evolves ((p.onShadow i fun s => { s with intended := p.virtualIntended i active }).latchAs i active) :=
    (Part.latchAs_evolves _ _ _).after (Part.onShadow_evolves fun _ => id)
  simp only
  split
  · exact hset.trans (Part.makeRequest_evolves _ _)
  · exact hset

theorem Part.clearLatch_evolves (p : Part) : p.evolves p.clearLatch := Part.evolves_ite (p.takeCondition_evolves _ _)

/-! ### Pieces of work -/

theorem Part.doOp_advances (op : PointOp) (p : Part) : p.advances (p.doOp op) := by
  cases op with
  | group a i => exact (Part.groupPoint_evolves a i p).toadvances
  | drainFifo => exact (Part.drainFifo_evolves _ p).toadvances
  | baseline i => exact (Part.baseline_evolves i p).toadvances
  | clearLatch => exact p.clearLatch_evolves.toadvances
  | commandDone => exact p.complete_advances .done

/-- What the engine still has to do says nothing about its bounds. -/
theorem Part.withTodo_advances (ops : List PointOp) (p : Part) :
    p.advances { p with points := { p.points with todo := ops } } :=
  ⟨Part.proceeds_of_keeps (Part.withPoints_keeps _ p) (points := fun _ => ⟨id, id⟩), id⟩

theorem Part.withWork_advances (ws : List Work) (p : Part) :
    p.advances { p with points := { p.points with work := ws } } :=
  ⟨Part.proceeds_of_keeps (Part.withPoints_keeps _ p) (points := fun _ => ⟨id, id⟩), id⟩

theorem Part.runOps_advances (ops : List PointOp) (p : Part) : p.advances (p.runOps ops) := by
  induction ops generalizing p with
  | nil => exact Part.withTodo_advances [] p
  | cons op rest ih =>
    unfold Part.runOps
    split
    · exact Part.withTodo_advances _ p
    · have hop := Part.doOp_advances op p
      simp only
      split
      · exact hop.trans (Part.withTodo_advances _ _)
      · exact hop.trans (ih _)

theorem Part.pump_advances (p : Part) : p.advances p.pump := by
  unfold Part.pump
  split
  · split
    · exact (Part.withWork_advances _ p).trans (Part.runOps_advances _ _)
    · exact (Part.withWork_advances _ p).trans (Part.runOps_advances _ _)
    · exact Part.advances_refl p
  · exact Part.advances_refl p

theorem Part.resume_advances (p : Part) : p.advances p.resume := by
  unfold Part.resume
  split
  · exact Part.advances_refl p
  · exact (Part.runOps_advances _ p).trans (Part.pump_advances _)

/-- An engine in no piece of work, with no command waiting, has nothing to resume (R42, R177). -/
theorem Part.pump_of_commandFree {p : Part} (h : p.points.commandFree) : p.pump = p := by
  obtain ⟨-, hadopt, hclear⟩ := h
  unfold Part.pump
  split
  · split
    · rename_i heq
      exact absurd (heq ▸ List.mem_cons_self) hadopt
    · rename_i heq
      exact absurd (heq ▸ List.mem_cons_self) hclear
    · rfl
  · rfl

theorem Part.resume_of_commandFree {p : Part} (h : p.points.commandFree) : p.resume = p := by
  have hrun : p.runOps p.points.todo = p := by
    conv_rhs => rw [show p = { p with points := { p.points with todo := p.points.todo } } from rfl]
    rw [h.1]
    rfl
  unfold Part.resume
  split
  · rfl
  · rw [hrun, Part.pump_of_commandFree h]

theorem Part.takeWork_advances {f : Work → Option (Part → Part)} (h : ∀ w g, f w = some g → ∀ q : Part, q.advances (g q))
    (p : Part) : p.advances (p.takeWork f) := by
  unfold Part.takeWork
  split
  · split
    · split
      · rename_i g hg
        exact ((Part.withWork_advances _ p).trans (h _ g hg _)).trans (Part.pump_advances _)
      · exact Part.advances_refl p
    · exact Part.advances_refl p
  · exact Part.advances_refl p

theorem Part.disablePoint_evolves (i : PointNo) (p : Part) : p.evolves (p.disablePoint i) := by
  unfold Part.disablePoint
  exact (Part.restatus_evolves _ _).after ((Part.withdrawPoint_evolves _ _).after ((Part.setOwed_evolves _ _ _).after
    (Part.setFifo_evolves (List.length_filter_le _ _))))

theorem Part.enablePoint_evolves (i : PointNo) (p : Part) : p.evolves (p.enablePoint i) :=
  (Part.refresh_evolves _ i p).trans (Part.oweNow_evolves i _)

theorem Part.takeTest_advances (r : RouteNo) (command : Bool) (p : Part) : p.advances (p.takeTest r command) := by
  have htest : p.advances (if p.virtualEnabled 7 then
      Part.restatus 263 (p.request
        { point := 263, sense := .test, code := p.virtualCode 7, priority := p.virtualPriority 7
          route := (p.chooseRoute r).1, unrouted := (p.chooseRoute r).2 }).1 else p) :=
    (Part.evolves_ite ((Part.restatus_evolves _ _).after (Part.request_evolves _ p))).toadvances
  unfold Part.takeTest
  simp only
  split
  · exact htest.trans (Part.complete_advances _ _)
  · exact htest

theorem Part.takeDelivery_evolves (i : PointNo) (sense : BitVec 2) (code : BitVec 10) (fold : BitVec 4) (words : List Nat)
    (p : Part) : p.evolves (p.takeDelivery i sense code fold words) := by
  unfold Part.takeDelivery
  refine (Part.enterAll_evolves _ _ _).after ((Part.restatus_evolves _ _).after (Part.evolves_ite ?_))
  exact (Part.enterAll_evolves _ _ _).after (Part.onShadow_evolves fun _ => id)

theorem Part.takeNotice_evolves (k : NoticeKind) (i : PointNo) (p : Part) : p.evolves (p.takeNotice k i) := by
  have hreturned : p.evolves (if (p.shadow i).isolated || !p.pointEnabled i then (p.withdrawPoint i).restatus i
      else p.restatus i) := by
    split
    · exact (Part.restatus_evolves _ _).after (Part.withdrawPoint_evolves _ _)
    · exact Part.restatus_evolves _ _
  cases k with
  | eviction => exact Part.oweNow_evolves i p
  | returned | exhaustion => exact hreturned
  | withdrawal | assignment | release | merged => exact Part.restatus_evolves i p

/-! ### The owed sweep, the end of LOAD and of RELOAD -/

theorem Part.sweepPoint_evolves (i : PointNo) (p : Part) : p.evolves (p.sweepPoint i) := by
  have hclear := Part.setOwed_evolves i false p
  unfold Part.sweepPoint
  simp only
  split
  · exact (Part.restatus_evolves _ _).after ((Part.makeRequest_evolves _ _).after
      ((Part.refresh_evolves _ _ _).after hclear))
  · exact hclear.trans (Part.restatus_evolves _ _)

theorem Part.sweep_evolves (p : Part) : p.evolves p.sweep := by
  unfold Part.sweep
  split
  · exact (Part.sweepPoint_evolves _ p).trans (Part.evolves_of_keeps (Part.withPoints_keeps _ _)
      (points := fun _ => ⟨id, id⟩) (engine := fun _ _ => id))
  · exact Part.evolves_refl p

theorem Part.fifoStep_advances (p : Part) : p.advances p.fifoStep := by
  unfold Part.fifoStep
  split
  · exact p.takeFifo_evolves.toadvances.trans (Part.pump_advances _)
  · exact Part.advances_refl p

theorem Part.rebuilt_owed (p : Part) (i : PointNo) :
    (p.rebuilt i).owed = (p.pointEnabled i && decide (i.val < 263)) := rfl

@[simp] theorem getElem_tabulate {α : Type} {n : Nat} (f : Fin n → α) (i : Nat) (h : i < n) :
    (tabulate f)[i] = f ⟨i, h⟩ := by
  simp [tabulate]

/-- The entries that LOAD has built (R42). -/
@[simp] theorem Part.shadow_rebuildPoints (p : Part) (i : PointNo) : p.rebuildPoints.shadow i = p.rebuilt i := by
  simp [Part.shadow, Part.rebuildPoints]

theorem Part.rebuildPoints_evolves (p : Part) : p.evolves p.rebuildPoints := by
  refine Part.evolves_of_keeps (Part.withPoints_keeps _ p)
    (points := fun _ => ⟨id, fun _ => ?_⟩) (engine := fun _ _ => id)
  show (p.rebuildPoints.shadow 263).owed = false
  rw [Part.shadow_rebuildPoints, Part.rebuilt_owed]
  simp

theorem Part.oweAll_evolves (p : Part) : p.evolves p.oweAll := by
  have hstep : ∀ (q : Part) (i : PointNo),
      q.evolves (if q.pointEnabled i && decide (i.val < 263) then q.oweNow i else q) := fun q i =>
    Part.evolves_ite (Part.oweNow_evolves i q)
  exact Part.evolves_foldl hstep _ p

end Sys2Proof.Machine
end

section
/-! PROOFS. What panel writes, commands, LOAD, RELOAD and the resets keep, and that every step keeps the invariants. -/

namespace Sys2Proof.Machine

/-! ### Mirrors -/

/-- What is in a memory after a write was there before or is the word written (R27). -/
theorem Memory.mem_write {m : Memory} {a : Nat} {w : Word} {c : Nat × Word} (h : c ∈ m.write a w) :
    c ∈ m ∨ (c = (a, w) ∧ w ≠ Memory.unlisted) := by
  induction m with
  | nil =>
    unfold Memory.write at h
    split at h
    · simp at h
    · exact .inr ⟨by simpa using h, by assumption⟩
  | cons e m ih =>
    obtain ⟨b, v⟩ := e
    unfold Memory.write at h
    split at h
    · split at h
      · exact .inl h
      · rcases List.mem_cons.mp h with h | h
        · exact .inr ⟨h, by assumption⟩
        · exact .inl h
    · split at h
      · split at h
        · exact .inl (List.mem_cons_of_mem _ h)
        · rcases List.mem_cons.mp h with h | h
          · exact .inr ⟨h, by assumption⟩
          · exact .inl (List.mem_cons_of_mem _ h)
      · rcases List.mem_cons.mp h with h | h
        · exact .inl (h ▸ List.mem_cons_self)
        · exact (ih h).imp_left (List.mem_cons_of_mem _)

theorem Memory.within_write {m : Memory} {n a : Nat} {w : Word} (h : m.within n) (ha : w ≠ Memory.unlisted → a < n) :
    (m.write a w).within n := by
  obtain ⟨hwf, hbound⟩ := h
  refine ⟨Memory.wf_write a w hwf, fun c hc => ?_⟩
  rcases Memory.mem_write hc with hc | ⟨rfl, hw⟩
  · exact hbound c hc
  · exact ha hw

/-- No word beyond the point table has a mirror (02 section 2.1). -/
theorem mirrorMask_beyond {off : Nat} (h : 0xC00 ≤ off) : mirrorMask off = 0 := by
  have hword : windowWord off = .ordinary := by
    simp only [windowWord]
    repeat rw [if_neg (by omega)]
  simp [mirrorMask, hword]

theorem Part.setMirror_evolves (off : Nat) (w : Word) (p : Part) : p.evolves (p.setMirror off w) := by
  refine Part.evolves_of_keeps (Part.setMirror_keeps off w p) (load := fun _ => rfl)
    (words := fun _ h => Memory.within_write h fun hw => ?_)
  by_contra hoff
  exact hw (by simp [mirrorMask_beyond (show 0xC00 ≤ off by omega), Memory.unlisted])

/-- Of the Window Mirrors the words and the LOAD in progress are as they were. -/
theorem Part.withMirrors_evolves {p : Part} {m : Mirrors} (hl : m.load = p.mirrors.load)
    (hw : m.words = p.mirrors.words) : p.evolves { p with mirrors := m } :=
  Part.evolves_of_keeps (bs := [.mirrors]) (fun b hb => by cases b <;> simp [Block.same] at hb ⊢)
    (load := fun _ => hl) (words := fun _ => by rw [hw]; exact id)

/-! ### Panel writes in STOPPED and RUNNING -/

theorem Part.takeBudget_evolves (r : RouteNo) (w : Word) (p : Part) : p.evolves (p.takeBudget r w) := by
  unfold Part.takeBudget
  simp only
  split
  · exact Part.evolves_refl p
  · refine (Part.occasion_evolves _).after ?_
    split
    · exact (Part.enter_evolves _ _ _).after (Part.setRoute_evolves _ _ _)
    · exact Part.setRoute_evolves _ _ _

theorem Part.takeBudgetLoading_evolves (r : RouteNo) (w : Word) (p : Part) : p.evolves (p.takeBudgetLoading r w) := by
  unfold Part.takeBudgetLoading
  simp only
  split
  · exact Part.evolves_refl p
  · split <;> exact Part.setRoute_evolves _ _ _

theorem Part.judgeValid_evolves (d : DestNo) (p : Part) : p.evolves (p.judgeValid d) := Part.withMirrors_evolves rfl rfl

theorem Part.directoryChanged_evolves (d : DestNo) (p : Part) : p.evolves (p.directoryChanged d) := by
  unfold Part.directoryChanged
  refine (Part.occasion_evolves _).after ?_
  split
  · exact (Part.judgeUnrouted_evolves _).after (Part.judgeValid_evolves d p)
  · exact Part.judgeValid_evolves d p

theorem Part.takeGroupWrite_evolves (g : Fin 16) (w : Word) (p : Part) : p.evolves (p.takeGroupWrite g w) := by
  unfold Part.takeGroupWrite
  split
  · exact Part.tell_evolves (by simp [Work.ordinary]) p
  · exact Part.evolves_refl p

theorem Part.takeEnabled_evolves (i : PointNo) (before after : Bool) (p : Part) :
    p.evolves (p.takeEnabled i before after) := by
  have hordinary : (if after then Work.enable i else Work.disable i).ordinary := by
    split <;> simp [Work.ordinary]
  unfold Part.takeEnabled
  split
  · exact Part.evolves_refl p
  · exact Part.tell_evolves hordinary p

theorem Part.takePoint_evolves (i : Fin 256) (old w : Word) (p : Part) : p.evolves (p.takePoint i old w) := by
  unfold Part.takePoint
  simp only
  split
  · split
    · exact Part.evolves_refl p
    · exact Part.capture_evolves _ _ p
  · exact Part.takeEnabled_evolves _ _ _ p

theorem Part.takeLineConfig_evolves (n : LineNo) (changed : Bool) (w : Word) (p : Part) :
    p.evolves (p.takeLineConfig n changed w) := by
  have henable := Part.takeLineEnable_evolves n (lineEnabledField w) p
  unfold Part.takeLineConfig
  simp only
  split
  · exact henable.trans (Part.occasion_evolves _)
  · exact henable

theorem Part.routeChanged_evolves (r : RouteNo) (p : Part) : p.evolves (p.routeChanged r) := by
  unfold Part.routeChanged
  exact (Part.occasion_evolves _).after (Part.evolves_ite p.judgeUnrouted_evolves)

/-! ### RELOAD -/

/-- A change of the RELOAD in progress alone. -/
theorem Part.withReload_evolves (r : Option Reload) (p : Part) :
    p.evolves { p with mirrors := { p.mirrors with reload := r } } := Part.withMirrors_evolves rfl rfl

/-! ### Communicator states -/

/-- The Notice Unit holds the log heads in STOPPED and RUNNING (R168). -/
def Part.headsHeld (p : Part) : Prop := p.mode.serving = true → p.notice.heads.isSome = true

/-- A LOAD of kind RELOAD runs in LOADING with its RELOAD in progress; outside STOPPED and RUNNING the engine has no command
(R42, R177). -/
def Part.reloadInProgress (p : Part) : Prop :=
  (∀ k, p.mirrors.load = some { kind := .reload, next := k } →
    p.mode = .loading ∧ p.notice.inProgress.isSome = true) ∧
  (p.mode.serving = false → p.points.commandFree)

/-- Each invariant survives, whatever becomes of the communicator state. -/
structure Part.keepsInvariants (p q : Part) : Prop where
  words : p.mirrors.words.within 4096 → q.mirrors.words.within 4096
  bus : p.bus.evolves q.bus
  points : p.points.evolves q.points
  queue : p.queue.sound → q.queue.sound
  heads : p.headsHeld → q.headsHeld
  reload : p.reloadInProgress → q.reloadInProgress

theorem Part.keepsInvariants_refl (p : Part) : p.keepsInvariants p :=
  ⟨id, Bus.evolves_refl _, Points.evolves_refl _, id, id, id⟩

theorem Part.keepsInvariants.trans {a b c : Part} (h : a.keepsInvariants b) (k : b.keepsInvariants c) :
    a.keepsInvariants c :=
  ⟨k.words ∘ h.words, h.bus.trans k.bus, h.points.trans k.points, k.queue ∘ h.queue, k.heads ∘ h.heads,
    k.reload ∘ h.reload⟩

theorem Part.evolves.keepsInvariants {p q : Part} (h : p.evolves q) : p.keepsInvariants q where
  words := h.words
  bus := h.bus
  points := h.points
  queue := h.queue
  heads hh hm := h.heads (hh (h.serving ▸ hm))
  reload := by
    rintro ⟨hload, hfree⟩
    refine ⟨fun k hk => ?_, fun hm => ?_⟩
    · obtain ⟨hm, hc⟩ := hload k (h.load ▸ hk)
      exact ⟨h.loading.mpr hm, h.command hm hc⟩
    · have hm' : p.mode.serving = false := h.serving ▸ hm
      exact h.engine hm' (hfree hm')

/-- A part that holds nothing, and is neither STOPPED nor RUNNING, meets every invariant. -/
theorem Part.keepsInvariants_of_empty {p q : Part} (hm : q.mode.serving = false) (hb : q.bus = Bus.empty)
    (hw : q.mirrors.words = []) (hl : ∀ k, q.mirrors.load ≠ some { kind := .reload, next := k })
    (hp : q.points = Points.empty) (hq : q.queue.records = []) : p.keepsInvariants q where
  words _ := by rw [hw]; simp [Memory.within, Memory.wf, Memory.wfFrom]
  bus := by rw [hb]; constructor <;> simp [Bus.empty]
  points := by rw [hp]; constructor <;> simp [Points.empty, Points.fifoBounded, Points.testNotOwed, Shadow.empty]
  queue _ := by simp [Queue.sound, Queue.count, hq]
  heads _ h := by simp [hm] at h
  reload _ := ⟨fun k h => absurd h (hl k), fun _ => by rw [hp]; simp [Points.empty, Points.commandFree]⟩

/-! ### The entry to UNCONFIGURED -/

theorem Part.dropCalls_evolves (p : Part) : p.evolves p.dropCalls := by
  have hstep : ∀ (q : Part) (n : LineNo),
      q.evolves (if (q.line n).call.isSome then q.moveLine n Line.toRelease else q) := fun q n =>
    Part.evolves_ite (Part.moveLine_evolves _ _ _)
  exact Part.evolves_foldl hstep _ p

theorem Bus.unconfigured_evolves (b : Bus) : b.evolves b.unconfigured where
  writeBack := fun ⟨hlen, hnodup⟩ => ⟨(List.length_filter_le _ _).trans hlen, hnodup.filter _⟩
  staging _ := by simp [Bus.unconfigured]
  stagePos _ := by simp [Bus.unconfigured]

/-- The part at the entry to UNCONFIGURED, before the rest of its work is dropped. -/
def Part.dropped (p : Part) : Part :=
  (p.dropCalls.setRecords []).enterAll .reportQueue (p.dropCalls.points.carried.filter (· < 0x020))

theorem Part.dropped_evolves (p : Part) : p.evolves p.dropped :=
  (Part.enterAll_evolves _ _ _).after ((Part.setRecords_evolves fun _ => by simp).after p.dropCalls_evolves)

/-! What the entry to UNCONFIGURED makes of each block. -/

@[simp] theorem Part.enterUnconfigured_mode (p : Part) : p.enterUnconfigured.mode = .unconfigured := rfl
@[simp] theorem Part.enterUnconfigured_bus (p : Part) : p.enterUnconfigured.bus = p.dropped.bus.unconfigured := by
  simp only [Part.enterUnconfigured, Part.dropped]
@[simp] theorem Part.enterUnconfigured_mirrors (p : Part) :
    p.enterUnconfigured.mirrors = { Mirrors.empty with
      words := ([0x010, 0x011, 0x014] : List Nat).foldl (fun m a => m.write a (p.dropped.mirror a)) [] } := by
  simp only [Part.enterUnconfigured, Part.dropped]
@[simp] theorem Part.enterUnconfigured_points (p : Part) : p.enterUnconfigured.points = Points.empty := rfl
@[simp] theorem Part.enterUnconfigured_queue (p : Part) : p.enterUnconfigured.queue = p.dropped.queue := by
  simp only [Part.enterUnconfigured, Part.dropped]

theorem Part.enterUnconfigured_keepsInvariants (p : Part) : p.keepsInvariants p.enterUnconfigured := by
  refine ⟨?_, ?_, ?_, ?_, fun _ h => ?_, fun _ => ⟨fun k h => ?_, fun _ => ?_⟩⟩
  · intro _
    have hempty : Memory.within 4096 ([] : Memory) := by simp [Memory.within, Memory.wf, Memory.wfFrom]
    rw [Part.enterUnconfigured_mirrors]
    simp only [List.foldl_cons, List.foldl_nil]
    exact Memory.within_write (Memory.within_write (Memory.within_write hempty fun _ => by decide) fun _ => by decide)
      fun _ => by decide
  · rw [Part.enterUnconfigured_bus]
    exact p.dropped_evolves.bus.trans (Bus.unconfigured_evolves _)
  · rw [Part.enterUnconfigured_points]
    constructor <;> simp [Points.empty, Points.fifoBounded, Points.testNotOwed, Shadow.empty]
  · rw [Part.enterUnconfigured_queue]
    exact p.dropped_evolves.queue
  · rw [Part.enterUnconfigured_mode] at h
    simp [Mode.serving] at h
  · rw [Part.enterUnconfigured_mirrors] at h
    simp [Mirrors.empty] at h
  · rw [Part.enterUnconfigured_points]
    simp [Points.empty, Points.commandFree]

theorem Part.reloadFails_keepsInvariants (p : Part) : p.keepsInvariants p.reloadFails := by
  refine p.enterUnconfigured_keepsInvariants.trans
    ((Part.raise_evolves .loadfail _).trans (Part.complete_evolves ?_ .done)).keepsInvariants
  simp [Part.enterUnconfigured_mode]

theorem Part.reloadEnds_evolves {p : Part} (hm : p.mode.serving = true) : p.evolves p.reloadEnds := by
  have hend := Part.withReload_evolves none p
  unfold Part.reloadEnds
  refine Part.advances.evolves ?_ hm
  refine (Part.occasion_evolves _).toadvances.after ((Part.complete_advances _ _).after ?_)
  exact ((Part.judgeUnrouted_evolves _).after ((Part.oweAll_evolves _).after hend)).toadvances

theorem Part.reloadNext_keepsInvariants {p : Part} (hm : p.mode.serving = true) (next : Nat) :
    p.keepsInvariants (p.reloadNext next) := by
  have hnext := (Part.withReload_evolves (some { next, waiting := none }) p).keepsInvariants
  unfold Part.reloadNext
  simp only
  split
  · exact hnext.trans (Part.reloadFails_keepsInvariants _)
  · split
    · exact hnext.trans (Part.reloadEnds_evolves (by exact hm)).keepsInvariants
    · exact hnext

theorem Part.reloadResume_keepsInvariants {p : Part} (hm : p.mode.serving = true) : p.keepsInvariants p.reloadResume := by
  unfold Part.reloadResume
  split
  · rename_i next w _
    have hcapture : p.evolves (if p.pointEnabled w.capture.point then p.capture w.capture.point w.capture.code else p) :=
      Part.evolves_ite (Part.capture_evolves _ _ p)
    split
    · exact hcapture.keepsInvariants.trans (Part.reloadNext_keepsInvariants (hcapture.serving.trans hm) _)
    · exact Part.keepsInvariants_refl p
  · exact Part.keepsInvariants_refl p

theorem Part.reloadForgets_keepsInvariants {p : Part} (hm : p.mode.serving = true) (i : PointNo) :
    p.keepsInvariants (p.reloadForgets i) := by
  unfold Part.reloadForgets
  split
  · split
    · exact Part.reloadNext_keepsInvariants hm _
    · exact Part.keepsInvariants_refl p
  · exact Part.keepsInvariants_refl p

/-! ### Commands -/

theorem Part.setMode_evolves {p : Part} {m : Mode} (hm : p.mode.serving = true) (hm' : m.serving = true) :
    p.evolves (p.setMode m) := by
  refine ⟨⟨⟨hm'.trans hm.symm, ?_, rfl, id, Bus.evolves_refl _, Points.evolves_refl _, id⟩, id⟩, fun _ => id, fun _ => id⟩
  constructor
  · intro h
    simp only [Part.mode_setMode] at h
    simp [h, Mode.serving] at hm'
  · intro h
    simp [h, Mode.serving] at hm

theorem Part.setClock_advances (day minute second : Word) (p : Part) : p.advances (p.setClock day minute second) := by
  unfold Part.setClock
  split
  · exact Part.complete_advances _ p
  · have hset : ∀ t : TimeBase, p.evolves ({ p with time := t } : Part).enterTime := fun t =>
      (Part.enterTime_evolves _).after (Part.withTime_evolves t p)
    have htest : ∀ q : Part, q.evolves (if q.mode.serving then q.setNextTest else q) := fun q =>
      Part.evolves_ite q.setNextTest_evolves
    exact (Part.complete_advances _ _).after (Part.evolves.after (htest _) (hset _)).toadvances

theorem Part.beginLoad_keepsInvariants {p : Part} (hm : p.mode.serving = false)
    (hc : p.notice.inProgress.isSome = true) (kind : LoadKind) : p.keepsInvariants (p.beginLoad kind) :=
  ⟨id, Bus.evolves_refl _, Points.evolves_refl _, id, fun _ h => by simp [Part.beginLoad, Mode.serving] at h,
    fun ⟨_, hfree⟩ => ⟨fun _ _ => ⟨rfl, hc⟩, fun _ => hfree hm⟩⟩

theorem Part.restartEffect_evolves (c : Command) (p : Part) : p.evolves (p.restartEffect c) := by
  unfold Part.restartEffect
  exact Part.evolves.after (Part.beginDrain_evolves _)
    (Part.evolves.trans (Part.finalResult_evolves c .done p) (Part.withBus_evolves rfl rfl rfl))

/-- The effect of every command in STOPPED and RUNNING. -/
theorem Part.effect_evolves {p : Part} (hm : p.mode.serving = true) (c : Command) (arg : Word) :
    p.evolves (p.effect c arg) := by
  have hmode : p.mode ≠ .unconfigured := fun h => by simp [h, Mode.serving] at hm
  refine Part.advances.evolves ?_ hm
  unfold Part.effect
  split
  · unfold Part.startEffect
    have hstart : p.evolves (if p.mode = .stopped then (p.setMode .running).occasion else p) :=
      Part.evolves_ite ((Part.occasion_evolves _).after (Part.setMode_evolves hm rfl))
    exact hstart.toadvances.trans (Part.complete_advances _ _)
  · exact (Part.setMode_evolves hm rfl).toadvances.trans (Part.complete_advances _ _)
  · exact p.abortAll_evolves.toadvances.trans (Part.complete_advances _ _)
  · unfold Part.reloadEffect
    rw [if_neg hmode]
    exact (Part.withReload_evolves _ p).toadvances
  · exact (Part.tell_evolves_of_serving hm _).toadvances.trans (Part.pump_advances _)
  · unfold Part.testEffect
    split
    · exact (Part.tell_evolves_of_serving hm _).toadvances
    · split
      · exact (Part.tell_evolves_of_serving hm _).toadvances
      · exact Part.complete_advances _ p
  · unfold Part.setTimeEffect
    rw [if_neg hmode]
    exact Part.setClock_advances _ _ _ p
  · unfold Part.clearTroubleEffect
    rw [if_neg hmode]
    exact (Part.tell_evolves_of_serving hm _).toadvances.trans (Part.pump_advances _)
  · exact p.releaseAll_evolves.toadvances.trans (Part.complete_advances _ _)
  · exact (Part.restartEffect_evolves c p).toadvances
  · exact Part.advances_refl p

/-- The effect of an accepted command in UNCONFIGURED: RELOAD begins LOAD as the command in progress (R36, R177). -/
theorem Part.effect_unconfigured {p : Part} (hm : p.mode = .unconfigured) {c : Command}
    (ha : accepts .unconfigured c.code.toNat = true) (hc : p.notice.inProgress.isSome = true) (arg : Word) :
    p.keepsInvariants (p.effect c arg) := by
  have hnot : p.mode ≠ .loading := by simp [hm]
  unfold Part.effect
  simp only [accepts, Bool.or_eq_true, beq_iff_eq] at ha
  obtain ((h | h) | h) | h := ha
  · simp only [h, Part.reloadEffect, if_pos hm]
    exact Part.beginLoad_keepsInvariants (by simp [hm, Mode.serving]) hc _
  · simp only [h, Part.setTimeEffect, if_pos hm]
    exact Part.evolves.keepsInvariants (Part.withMirrors_evolves (p := p) rfl rfl)
  · simp only [h, Part.clearTroubleEffect, if_pos hm]
    exact (Part.complete_evolves hnot _).keepsInvariants
  · simp only [h]
    exact (Part.restartEffect_evolves c p).keepsInvariants

theorem Part.refusal_none {p : Part} {code : BitVec 4} (h : p.refusal code = none) :
    accepts p.mode code.toNat = true := by
  unfold Part.refusal at h
  split at h
  · simp at h
  split at h
  · simp at h
  split at h
  · simp at h
  split at h
  · simp at h
  · simp_all

theorem Part.takeCommand_keepsInvariants (w : Word) (p : Part) : p.keepsInvariants (p.takeCommand w) := by
  have hmirror := Part.setMirror_evolves 0x010 w p
  unfold Part.takeCommand Part.judge
  simp only
  split
  · exact (hmirror.trans (Part.answerRefused_evolves _ _ _)).keepsInvariants
  · rename_i haccepted
    have haccepts := Part.refusal_none haccepted
    refine hmirror.keepsInvariants.trans ?_
    generalize p.setMirror 0x010 w = p at *
    generalize commandOf w = c at *
    have hhanded : p.evolves (Part.setResult c.tag .inProgress
        { p with notice := { p.notice with inProgress := some c } }) := by
      refine (Part.setResult_evolves _ _ _).after (Part.evolves_of_keeps (bs := [.notice]) ?_ (heads := fun _ => id)
        (command := fun _ _ _ => rfl))
      intro b hb
      cases b <;> simp [Block.same] at hb ⊢
    refine hhanded.keepsInvariants.trans ?_
    cases hm : p.mode with
    | off | xrst | bypass | loading => simp [hm, accepts] at haccepts
    | stopped | running =>
      exact (Part.effect_evolves (by rw [Part.setResult_mode]; rfl) _ _).keepsInvariants
    | unconfigured =>
      refine Part.effect_unconfigured (by rw [Part.setResult_mode]) (by rwa [hm] at haccepts) ?_ _
      rw [Part.setResult_notice]
      rfl

end Sys2Proof.Machine
end

section
/-! PROOFS. The words of the status window by their offsets (02 section 2.1, 2.2). -/

namespace Sys2Proof.Machine

theorem ite_ne_of_ne {α : Type} {c : Prop} [Decidable c] {a b x : α} (ha : a ≠ x) (hb : b ≠ x) :
    (if c then a else b) ≠ x := by
  split
  · exact ha
  · exact hb

theorem windowWord_config (n : Fin 32) : windowWord n.val = .config n := by
  rw [windowWord, if_pos n.isLt, Fin.ofNat_val_eq_self]

/-- A word of the configuration block has its offset for its number (02 section 2.1). -/
theorem offset_of_windowWord_config {off : Nat} {n : Fin 32} (h : windowWord off = .config n) : off = n.val := by
  by_cases hoff : off < 0x020
  · rw [windowWord, if_pos hoff, WindowWord.config.injEq] at h
    rw [← h, Fin.val_ofNat]
    omega
  · refine absurd h ?_
    rw [windowWord, if_neg hoff]
    repeat' apply ite_ne_of_ne
    all_goals exact nofun

theorem windowWord_group (g : Fin 16) : windowWord (0x040 + g.val) = .group g := by
  have hg := g.isLt
  simp only [windowWord]
  rw [if_neg (by omega), if_neg (by omega), if_pos (by omega), WindowWord.group.injEq, Fin.ext_iff, Fin.val_ofNat]
  omega

theorem windowWord_virtual (v : Fin 8) (w : Fin 4) : windowWord (virtualOffset v.val w.val) = .virtual v w := by
  have hv := v.isLt
  have hw := w.isLt
  generalize hoff : virtualOffset v.val w.val = off
  simp only [virtualOffset] at hoff
  simp only [windowWord]
  repeat rw [if_neg (by omega)]
  rw [if_pos (by omega), WindowWord.virtual.injEq, Fin.ext_iff, Fin.ext_iff, Fin.val_ofNat, Fin.val_ofNat]
  omega

theorem windowWord_route (r : RouteNo) (w : Fin 4) : windowWord (routeOffset r.val w.val) = .route r w := by
  have hr := r.isLt
  have hw := w.isLt
  generalize hoff : routeOffset r.val w.val = off
  simp only [routeOffset] at hoff
  simp only [windowWord]
  repeat rw [if_neg (by omega)]
  rw [if_pos (by omega), WindowWord.route.injEq, Fin.ext_iff, Fin.ext_iff, Fin.val_ofNat, Fin.val_ofNat]
  omega

theorem windowWord_directory (d : DestNo) (w : Fin 9) : windowWord (directoryOffset d.val w.val) = .directory d w := by
  have hd := d.isLt
  have hw := w.isLt
  generalize hoff : directoryOffset d.val w.val = off
  simp only [directoryOffset] at hoff
  simp only [windowWord]
  repeat rw [if_neg (by omega)]
  rw [if_pos (by omega), if_pos (by omega), WindowWord.directory.injEq, Fin.ext_iff, Fin.ext_iff, Fin.val_ofNat,
    Fin.val_ofNat]
  omega

theorem windowWord_log (k : Fin 32) (w : Fin 4) : windowWord (logOffset k.val w.val) = .log k w := by
  have hk := k.isLt
  have hw := w.isLt
  generalize hoff : logOffset k.val w.val = off
  simp only [logOffset] at hoff
  simp only [windowWord]
  repeat rw [if_neg (by omega)]
  rw [if_pos (by omega), WindowWord.log.injEq, Fin.ext_iff, Fin.ext_iff, Fin.val_ofNat, Fin.val_ofNat]
  omega

theorem windowWord_point (p : Fin 256) (w : Fin 3) : windowWord (pointOffset p.val w.val) = .point p w := by
  have hp := p.isLt
  have hw := w.isLt
  generalize hoff : pointOffset p.val w.val = off
  simp only [pointOffset] at hoff
  simp only [windowWord]
  repeat rw [if_neg (by omega)]
  rw [if_pos (by omega), if_pos (by omega), WindowWord.point.injEq, Fin.ext_iff, Fin.ext_iff, Fin.val_ofNat,
    Fin.val_ofNat]
  omega

end Sys2Proof.Machine
end

section
/-! PROOFS. Every step keeps the invariants (R12, R14, R44, R53, R60 to R63, R168, R177). -/

namespace Sys2Proof.Machine

/-! ### Panel writes -/

/-- A word that is not the command word is taken without a change of the communicator state. -/
theorem Part.takeServing_evolves {off : Nat} (hoff : off ≠ 0x010) (w : Word) (p : Part) :
    p.evolves (p.takeServing off w) := by
  have hmirror := Part.setMirror_evolves off w p
  unfold Part.takeServing
  simp only
  split
  · rename_i n hword
    split
    · exact hmirror.trans (Part.setHeartbeat_evolves _ _ _)
    · split
      · exact hmirror
      · exact hmirror.trans (Part.periodChanged_evolves _)
    · exact hmirror.trans (Part.evolves_ite (Part.occasion_evolves _))
    · exact hmirror.trans (Part.evolves_ite (Part.setNextTest_evolves _))
    · exact hmirror.trans (Part.evolves_ite (Part.setNextTest_evolves _))
    · exact hmirror.trans (Part.takeLineConfig_evolves _ _ _ _)
    · exact hmirror.trans (Part.takeLineConfig_evolves _ _ _ _)
    · exact hmirror.trans (Part.takeLineConfig_evolves _ _ _ _)
    · exact hmirror.trans (Part.takeLineConfig_evolves _ _ _ _)
    · rename_i hn
      exact absurd ((offset_of_windowWord_config hword).trans hn) hoff
    · exact hmirror
  · exact hmirror.trans (Part.takeGroupWrite_evolves _ _ _)
  · exact hmirror.trans (Part.evolves_ite (Part.takeEnabled_evolves _ _ _ _))
  · split
    · exact hmirror.trans (Part.evolves_ite (Part.routeChanged_evolves _ _))
    · exact hmirror.trans (Part.evolves_ite (Part.takeBudget_evolves _ _ _))
  · exact hmirror.trans (Part.evolves_ite (Part.directoryChanged_evolves _ _))
  · exact hmirror.trans (Part.evolves_ite (Part.takePoint_evolves _ _ _ _))
  all_goals exact hmirror

theorem Part.takeServing_command (w : Word) (p : Part) : p.takeServing 0x010 w = p.takeCommand w := by
  simp [Part.takeServing, windowWord_command]

theorem Part.takeServing_keepsInvariants (off : Nat) (w : Word) (p : Part) :
    p.keepsInvariants (p.takeServing off w) := by
  by_cases hoff : off = 0x010
  · rw [hoff, Part.takeServing_command]
    exact Part.takeCommand_keepsInvariants w p
  · exact (Part.takeServing_evolves hoff w p).keepsInvariants

theorem Part.takeLoading_keepsInvariants (off : Nat) (w : Word) (p : Part) :
    p.keepsInvariants (p.takeLoading off w) := by
  have hmirror := Part.setMirror_evolves off w p
  unfold Part.takeLoading
  split
  · exact Part.takeCommand_keepsInvariants w p
  refine Part.evolves.keepsInvariants ?_
  split
  · exact hmirror
  split
  · simp only
    split
    · exact hmirror.trans (Part.judgeValid_evolves _ _)
    · exact hmirror.trans (Part.evolves_ite (Part.takeBudgetLoading_evolves _ _ _))
    all_goals exact hmirror
  · exact Part.evolves_refl p

theorem Part.takeUnconfigured_keepsInvariants (off : Nat) (w : Word) (p : Part) :
    p.keepsInvariants (p.takeUnconfigured off w) := by
  unfold Part.takeUnconfigured
  split
  · exact Part.takeCommand_keepsInvariants w p
  · exact (Part.evolves_ite (Part.setMirror_evolves off w p)).keepsInvariants

theorem Part.takeWrite_keepsInvariants (off : Nat) (w : Word) (p : Part) : p.keepsInvariants (p.takeWrite off w) := by
  have hserving : p.mode.serving = true → p.keepsInvariants (match windowWord off with
      | .point _ k => if k.val = 0 then (p.takeServing off w).reloadResume else p.takeServing off w
      | .config _ | .group _ | .virtual _ _ | .route _ _ | .directory _ _ | .log _ _ | .translation _ _ | .ordinary =>
        p.takeServing off w) := by
    intro hm
    split
    · rename_i i k hword
      split
      · have hoff : off ≠ 0x010 := by
          rintro rfl
          simp [windowWord_command] at hword
        have htaken := Part.takeServing_evolves hoff w p
        exact htaken.keepsInvariants.trans (Part.reloadResume_keepsInvariants (htaken.serving.trans hm))
      · exact Part.takeServing_keepsInvariants off w p
    all_goals exact Part.takeServing_keepsInvariants off w p
  unfold Part.takeWrite
  split
  · rename_i hm
    exact hserving (by simp [hm, Mode.serving])
  · rename_i hm
    exact hserving (by simp [hm, Mode.serving])
  · exact Part.takeLoading_keepsInvariants off w p
  · exact Part.takeUnconfigured_keepsInvariants off w p
  all_goals exact Part.keepsInvariants_refl p

theorem Part.clearByWrite_evolves (off : Nat) (w : Word) (p : Part) : p.evolves (p.clearByWrite off w) := by
  unfold Part.clearByWrite
  split
  · split
    · exact Part.evolves_ite (Part.withNotice_evolves rfl rfl)
    · exact Part.evolves_ite (Part.setRoute_evolves _ _ p)
    all_goals exact Part.evolves_refl p
  · exact Part.evolves_refl p

/-! ### LOAD -/

theorem Part.loadTake_evolves (off : Nat) (w : Word) (p : Part) : p.evolves (p.loadTake off w) := by
  have hmirror := Part.setMirror_evolves off w p
  unfold Part.loadTake
  split
  · split
    · refine Part.evolves_of_keeps (bs := [.notice]) ?_ (heads := fun _ _ => rfl) (command := fun _ _ => id)
      intro b hb
      cases b <;> simp [Block.same] at hb ⊢
    · exact hmirror
  · simp only
    split
    · exact Part.onShadow_evolves fun _ => id
    split
    · exact Part.onShadow_evolves fun _ => id
    · exact hmirror
  · simp only
    split
    · exact hmirror.trans (Part.setRoute_evolves _ _ _)
    split
    · exact Part.setRoute_evolves _ _ _
    · exact hmirror
  · split
    · exact hmirror.trans (Part.judgeValid_evolves _ _)
    · exact hmirror
  · simp only
    split
    · exact Part.onShadow_evolves fun _ => id
    split
    · exact Part.onShadow_evolves fun _ => id
    · exact hmirror
  all_goals exact hmirror

/-- The Notice Unit holds the log heads once LOAD has read 015H (R168). -/
theorem Part.loadTake_heads (w : Word) (p : Part) : (p.loadTake 0x015 w).notice.heads.isSome = true := by
  have hword : windowWord 0x015 = .config 0x15 := by decide
  simp [Part.loadTake, hword]

/-- LOAD counts the words it has read. -/
theorem Part.withLoad_keepsInvariants {p : Part} {l : Load} (hl : p.mirrors.load = some l) (next : Nat) :
    p.keepsInvariants { p with mirrors := { p.mirrors with load := some { l with next } } } := by
  refine ⟨id, Bus.evolves_refl _, Points.evolves_refl _, id, id, fun ⟨hload, hfree⟩ => ⟨fun k hk => ?_, hfree⟩⟩
  simp only [Option.some.injEq] at hk
  have hkind : l.kind = .reload := congrArg Load.kind hk
  exact hload l.next (by rw [hl, ← hkind])

theorem Part.loadResult_advances (kind : LoadKind) (p : Part) : p.advances (p.loadResult kind) := by
  have hended : p.advances p.ended := ⟨Part.proceeds_of_keeps p.ended_keeps (heads := fun _ => id), id⟩
  cases kind with
  | reload => exact p.complete_advances .done
  | powerOn | xrst | restart => exact hended.trans (Part.setResult_evolves _ _ _).toadvances

theorem Part.loadResult_points (kind : LoadKind) (p : Part) : (p.loadResult kind).points = p.points := by
  cases kind <;> simp [Part.loadResult]

/-- Outside LOADING the result of a LOAD leaves the Point Engine as it is. -/
theorem Part.loadResult_evolves {p : Part} (hm : p.mode ≠ .loading) (kind : LoadKind) : p.evolves (p.loadResult kind) :=
  ⟨p.loadResult_advances kind, by rw [Part.loadResult_points]; exact fun _ => id, fun h => absurd h hm⟩

theorem Part.loadFails_keepsInvariants (kind : LoadKind) (p : Part) : p.keepsInvariants (p.loadFails kind) := by
  have hclear : ∀ q : Part, q.evolves (if q.notice.causes = 0 then q
      else Part.enter .noticeUnit 0x013 { q with notice := { q.notice with causes := 0 } }) := by
    intro q
    split
    · exact Part.evolves_refl q
    · exact (Part.enter_evolves _ _ _).after (Part.withNotice_evolves rfl rfl)
  unfold Part.loadFails
  simp only
  refine p.enterUnconfigured_keepsInvariants.trans ?_
  have hraised := (hclear p.enterUnconfigured).trans (Part.raise_evolves .loadfail _)
  refine (hraised.trans (Part.loadResult_evolves ?_ kind)).keepsInvariants
  rw [Ne, hraised.loading, Part.enterUnconfigured_mode]
  simp

/-- The communicator state LOAD ends in (R36). -/
def Part.loadedMode (p : Part) : Mode := if p.startOnLoad then .running else .stopped

theorem Part.loadedMode_serving (p : Part) : p.loadedMode.serving = true := by
  unfold Part.loadedMode
  split <;> rfl

/-- STOPPED or RUNNING is entered with the log heads held (R168). -/
theorem Part.served_keepsInvariants {p : Part} (hh : p.notice.heads.isSome = true) :
    p.keepsInvariants { p with mode := p.loadedMode, mirrors := { p.mirrors with load := none } } :=
  ⟨id, Bus.evolves_refl _, Points.evolves_refl _, id, fun _ _ => hh, fun _ => ⟨fun k h => by simp at h, fun h => by
    rw [Part.loadedMode_serving] at h; simp at h⟩⟩

theorem Part.clearMarks_evolves (p : Part) : p.evolves p.clearMarks :=
  Part.evolves_of_keeps (bs := [.routes]) fun b hb => by cases b <;> simp [Block.same, Part.clearMarks] at hb ⊢

theorem Part.loadEnds_keepsInvariants {p : Part} (hh : p.notice.heads.isSome = true) (mem : Memory) (kind : LoadKind) :
    p.keepsInvariants (p.loadEnds mem kind) := by
  have hlines : ∀ (q : Part) (n : LineNo), q.evolves (if (q.line n).takenEnable = q.lineEnabled n then q
      else (q.takeLineEnable n (q.lineEnabled n)).occasion) := by
    intro q n
    split
    · exact Part.evolves_refl q
    · exact (Part.takeLineEnable_evolves _ _ q).trans (Part.occasion_evolves _)
  have hwords : ∀ (q : Part) (a : Nat), q.evolves (q.enter (ownerOf a) a) := fun q a => Part.enter_evolves _ _ q
  have hheartbeat : ∀ (q : Part) (h : Heartbeat), q.evolves { q with heartbeat := h } := fun q h =>
    Part.evolves_of_keeps (bs := [.heartbeat]) fun b hb => by cases b <;> simp [Block.same] at hb ⊢
  have hcauses : p.evolves (Part.enter .noticeUnit 0x013 { p with notice := { p.notice with causes := 0 } }) :=
    (Part.enter_evolves _ _ _).after (Part.withNotice_evolves rfl rfl)
  unfold Part.loadEnds
  refine (hcauses.keepsInvariants.trans (Part.served_keepsInvariants (hcauses.heads hh))).trans ?_
  simp only
  refine Part.evolves.keepsInvariants (Part.advances.evolves ?_ (Part.loadedMode_serving _))
  refine Part.advances.trans ?_ (Part.evolves_ite (Part.occasion_evolves _)).toadvances
  refine Part.advances.trans ?_ (Part.clearMarks_evolves _).toadvances
  refine Part.advances.trans ?_ (Part.evolves_foldl hwords _ _).toadvances
  refine Part.advances.trans ?_ (Part.loadResult_advances kind _)
  refine Part.advances.trans ?_ (Part.evolves_foldl hlines _ _).toadvances
  refine Part.advances.trans ?_ ((hheartbeat _ _).trans (Part.setNextTest_evolves _)).toadvances
  exact ((Part.logNow_evolves _ _).trans ((Part.rebuildPoints_evolves _).trans (Part.enter_evolves _ _ _))).toadvances

theorem Part.loadStep_keepsInvariants (mem : Memory) (w : Word) (p : Part) : p.keepsInvariants (p.loadStep mem w) := by
  unfold Part.loadStep
  split
  · rename_i l hl
    have htaken := Part.loadTake_evolves (loadOffset l.next) w p
    have hnext := htaken.keepsInvariants.trans (Part.withLoad_keepsInvariants (htaken.load.trans hl) (l.next + 1))
    simp only
    split
    · exact hnext.trans (Part.loadFails_keepsInvariants _ _)
    split
    · rename_i hlast
      have hlast : l.next = 1471 := by simpa [Config.loadReads] using hlast
      refine hnext.trans (Part.loadEnds_keepsInvariants ?_ mem l.kind)
      rw [hlast]
      exact Part.loadTake_heads w p
    · exact hnext
  · exact Part.keepsInvariants_refl p

/-! ### RELOAD and SET TIME -/

theorem Part.reloadTake_evolves (off : Nat) (w : Word) (p : Part) : p.evolves (p.reloadTake off w) := by
  have hmirror := Part.setMirror_evolves off w p
  unfold Part.reloadTake
  split
  · exact hmirror
  · rename_i hoff
    have htaken : p.evolves (p.takeServing off w) := Part.takeServing_evolves (by tauto) w p
    split
    · split
      · exact hmirror
      · exact htaken
    all_goals exact htaken

theorem Part.reloadStep_keepsInvariants {p : Part} (hm : p.mode.serving = true) (w : Word) :
    p.keepsInvariants (p.reloadStep w) := by
  unfold Part.reloadStep
  split
  · split
    · exact Part.keepsInvariants_refl p
    · simp only
      split
      · rename_i l _ _ _
        have hwait : ∀ (q : Part) (r : Option Reload) (t : Nat),
            q.evolves { q with mirrors := { q.mirrors with reload := r }, bus := { q.bus with tickets := t } } :=
          fun q r t => Part.evolves_of_keeps (bs := [.mirrors, .bus])
            (fun b hb => by cases b <;> simp [Block.same] at hb ⊢) (bus := fun _ => ⟨id, id, id⟩)
        exact ((Part.setMirror_evolves (reloadOffset l.next) w p).trans (hwait _ _ _)).keepsInvariants
      · rename_i l _ _ _
        have htaken := Part.reloadTake_evolves (reloadOffset l.next) w p
        exact htaken.keepsInvariants.trans (Part.reloadNext_keepsInvariants (htaken.serving.trans hm) _)
  · exact Part.keepsInvariants_refl p

theorem Part.timeStep_evolves {p : Part} (hm : p.mode ≠ .loading) (w : Word) : p.evolves (p.timeStep w) := by
  unfold Part.timeStep
  split
  · exact Part.withMirrors_evolves rfl rfl
  · exact Part.withMirrors_evolves rfl rfl
  · have hread : p.evolves { p with mirrors := { p.mirrors with timeReads := none } } := Part.withMirrors_evolves rfl rfl
    refine hread.trans ⟨Part.setClock_advances _ _ _ _, fun _ => ?_, fun h => absurd h hm⟩
    have hpoints : ∀ (q : Part) (a b c : Word), (q.setClock a b c).points = q.points := by
      intro q a b c
      unfold Part.setClock
      split
      · simp
      · simp only [Part.complete_points]
        split <;> simp [Part.setNextTest]
    rw [hpoints]
    exact id
  · exact Part.evolves_refl p

/-! ### Steps of the Point Engine and of the Bus Path -/

theorem Part.keepsInvariants_serve {f : Part → Part} {p : Part} (h : p.mode.serving = true → p.keepsInvariants (f p)) :
    p.keepsInvariants (p.serve f) := by
  by_cases hm : p.mode.serving = true
  · rw [Part.serve_of_serving hm]; exact (h hm).trans (Part.settle_evolves _ _).keepsInvariants
  · rw [Part.serve_of_not_serving (by simpa using hm)]; exact Part.keepsInvariants_refl p

theorem Part.keepsInvariants_work {f : Part → Part} {p : Part} (h : p.mode.live = true → p.keepsInvariants (f p)) :
    p.keepsInvariants (p.work f) := by
  by_cases hm : p.mode.live = true
  · rw [Part.work_of_live hm]; exact (h hm).trans (Part.settle_evolves _ _).keepsInvariants
  · rw [Part.work_of_not_live (by simpa using hm)]; exact Part.keepsInvariants_refl p

/-- Admitting a waiter lets the engine go on with a piece of work it has only in STOPPED and RUNNING. -/
theorem Part.admitEntry_keepsInvariants (p : Part) : p.keepsInvariants p.admitEntry := by
  have hadmit : p.evolves p.admitWaiter.beginDrain := p.admitWaiter_evolves.trans (Part.beginDrain_evolves _)
  have hadvance := hadmit.toadvances.trans (Part.resume_advances _)
  by_cases hm : p.mode.serving = true
  · exact (hadvance.evolves hm).keepsInvariants
  · have hm : p.mode.serving = false := by simpa using hm
    refine ⟨hadvance.words, hadvance.bus, hadvance.points, hadvance.queue, fun _ h => ?_, fun hr => ?_⟩
    · exact absurd (hadvance.serving.symm.trans h) (by simp [hm])
    · have hfree := hadmit.engine hm (hr.2 hm)
      unfold Part.admitEntry
      rw [Part.resume_of_commandFree hfree]
      exact hadmit.keepsInvariants.reload hr

theorem Part.advanceShown_evolves (slot : Fin 32) (p : Part) : p.evolves (p.advanceShown slot) := by
  unfold Part.advanceShown
  split
  · rename_i h _
    have hshown : p.evolves { p with notice := { p.notice with heads := some { h with shown := slot + 1 } } } := by
      refine Part.evolves_of_keeps (bs := [.notice]) ?_ (heads := fun _ _ => rfl) (command := fun _ _ => id)
      intro b hb
      cases b <;> simp [Block.same] at hb ⊢
    have hentered := hshown.trans (Part.enter_evolves .noticeUnit 0x015 _)
    simp only
    split
    · exact hentered.trans (Part.raise_evolves _ _)
    · exact hentered
  · exact Part.evolves_refl p

theorem Bus.takeStaged_evolves (b : Bus) : b.evolves b.takeStaged where
  writeBack := id
  staging h := by
    have : b.staging.length - 1 ≤ Config.stagingPlaces := by omega
    simpa [Bus.takeStaged] using this
  stagePos _ := by simp [Bus.takeStaged]

theorem Bus.takeBack_evolves (off : Nat) (b : Bus) : b.evolves (b.takeBack off) where
  writeBack := fun ⟨hlen, hnodup⟩ => ⟨(List.length_filter_le _ _).trans hlen, hnodup.filter _⟩
  staging := id
  stagePos := id

/-- A change of the Bus Path that keeps its bounds. -/
theorem Part.withBus_evolves_of {p : Part} {b : Bus} (h : p.bus.evolves b) : p.evolves { p with bus := b } :=
  Part.evolves_of_keeps (bs := [.bus]) (fun b hb => by cases b <;> simp [Block.same] at hb ⊢) (bus := fun _ => h)

/-! ### Resets -/

/-- LOADING is entered with nothing held (R18, R20). -/
theorem Part.startLoading_keepsInvariants {p q : Part} {kind : LoadKind} (hk : kind ≠ .reload) (hb : q.bus = Bus.empty)
    (hw : q.mirrors.words = []) (hp : q.points = Points.empty) (hq : q.queue.records = []) :
    p.keepsInvariants (q.startLoading kind) := by
  unfold Part.startLoading
  refine Part.keepsInvariants.trans ?_ ((Part.enter_evolves _ _ _).trans (Part.enter_evolves _ _ _)).keepsInvariants
  refine Part.keepsInvariants_of_empty rfl hb hw (fun k h => ?_) hp hq
  simp only [Part.beginLoad, Option.some.injEq, Load.mk.injEq] at h
  exact hk h.1

theorem Part.sample_keepsInvariants {p : Part} {kind : LoadKind} (hk : kind ≠ .reload) (straps : Straps) (q : Part) :
    q.keepsInvariants (p.sample straps kind) := by
  unfold Part.sample
  split
  · exact Part.keepsInvariants_of_empty rfl rfl rfl (fun k h => by simp [Part.cleared, Mirrors.empty] at h) rfl rfl
  · exact Part.keepsInvariants.trans (Part.startLoading_keepsInvariants hk rfl rfl rfl rfl)
      (Part.enter_evolves _ _ _).keepsInvariants

theorem Part.cleared_keepsInvariants {m : Mode} (hm : m.serving = false) (p q : Part) :
    q.keepsInvariants { p.cleared with mode := m } :=
  Part.keepsInvariants_of_empty hm rfl rfl (fun k h => by simp [Part.cleared, Mirrors.empty] at h) rfl rfl

theorem Part.restartReset_keepsInvariants (p q : Part) : q.keepsInvariants p.restartReset := by
  have hstarted : q.keepsInvariants (Part.startLoading .restart p.cleared) :=
    Part.startLoading_keepsInvariants (by simp) rfl rfl rfl rfl
  unfold Part.restartReset
  refine ⟨hstarted.words, hstarted.bus, hstarted.points, hstarted.queue, fun _ h => ?_, fun _ => ⟨fun k h => ?_, fun _ => ?_⟩⟩
  · simp [Part.startLoading, Part.beginLoad, Mode.serving] at h
  · simp [Part.startLoading, Part.beginLoad] at h
  · simp [Part.startLoading, Part.beginLoad, Part.cleared, Points.empty, Points.commandFree]

end Sys2Proof.Machine
end

section
/-! PROOFS. Every step keeps memory, the buffers, the Report Queue and the trouble pattern sound. -/

namespace Sys2Proof.Machine

/-! ### The trouble pattern (R166) -/

theorem Part.anyFault_iff (p : Part) : p.lines.toList.any (·.state = .fault) = true ↔ ∃ n, (p.line n).state = .fault := by
  simp only [List.any_eq_true, Vector.mem_toList_iff, Vector.mem_iff_getElem, decide_eq_true_eq, Part.line]
  exact ⟨fun ⟨_, ⟨i, hi, h⟩, hf⟩ => ⟨⟨i, hi⟩, by rw [← h] at hf; exact hf⟩, fun ⟨n, hn⟩ => ⟨_, ⟨n.val, n.isLt, rfl⟩, hn⟩⟩

/-- The trouble pattern depends on the communicator state, the HELD records, the line states, heartbeat supervision and the
latch (R166). -/
theorem Part.troubleDue_congr {p q : Part} (hmode : q.mode = p.mode) (hheld : q.queue.held = p.queue.held)
    (hlines : ∀ n, (q.line n).state = (p.line n).state) (hsilent : q.heartbeat.silent = p.heartbeat.silent)
    (hlatch : q.points.latch = p.points.latch) : q.troubleDue = p.troubleDue := by
  have hfault : q.lines.toList.any (·.state = .fault) = p.lines.toList.any (·.state = .fault) := by
    rw [Bool.eq_iff_iff, Part.anyFault_iff, Part.anyFault_iff]
    simp only [hlines]
  simp only [Part.troubleDue, hmode, hheld, hfault, hsilent, hlatch]

theorem Part.troubleDue_of_keeps {bs : List Block} {p q : Part} (h : p.keepsBut bs q) (hm : .mode ∉ bs := by decide)
    (hq : .queue ∉ bs := by decide) (hl : .lines ∉ bs := by decide) (hh : .heartbeat ∉ bs := by decide)
    (hp : .points ∉ bs := by decide) : q.troubleDue = p.troubleDue :=
  Part.troubleDue_congr (h.mode hm) (by rw [h.queue hq]) (fun n => by rw [Part.line, Part.line, h.lines hl])
    (by rw [h.heartbeat hh]) (by rw [h.points hp])

theorem Part.retrouble_current (p : Part) : p.retrouble.troubleCurrent := by
  have hdue : p.retrouble.troubleDue = p.troubleDue := by
    refine Part.troubleDue_of_keeps (bs := [.notice]) fun b hb => ?_
    unfold Part.retrouble
    cases b <;> simp only [Block.same] <;> split <;> simp_all
  rw [Part.troubleCurrent, hdue]
  unfold Part.retrouble
  split
  · assumption
  · rfl

/-- After every step that settles, the trouble pattern is the one the conditions call for (R166). -/
theorem Part.settle_current (old p : Part) : (Part.settle old p).troubleCurrent := by
  have hdue : (Part.settle old p).troubleDue = p.retrouble.troubleDue ∧ (Part.settle old p).notice = p.retrouble.notice := by
    unfold Part.settle
    simp only
    split
    · exact ⟨rfl, rfl⟩
    · exact ⟨Part.troubleDue_of_keeps (Part.enter_keeps _ _ _), Part.enter_notice _ _ _⟩
  rw [Part.troubleCurrent, hdue.1, hdue.2]
  exact p.retrouble_current

/-- A part without a condition calls for no trouble pattern. -/
theorem Part.troubleCurrent_of_quiet {p : Part} (hmode : p.mode ≠ .unconfigured) (hq : p.queue.records = [])
    (hlines : ∀ n, (p.line n).state ≠ .fault) (hsilent : p.heartbeat.silent = false) (hlatch : p.points.latch = false)
    (htrouble : p.notice.trouble = .off) : p.troubleCurrent := by
  have hfault : p.lines.toList.any (·.state = .fault) = false := by
    rw [Bool.eq_false_iff, Ne, Part.anyFault_iff]
    exact fun ⟨n, hn⟩ => hlines n hn
  simp [Part.troubleCurrent, Part.troubleDue, hmode, Queue.held, hq, hfault, hsilent, hlatch, htrouble]

/-! ### What every step keeps -/

/-- A step keeps memory and the mirrors sound, the bounds of the buffers, the Report Queue, the log heads and the RELOAD in
progress, and the trouble pattern current. -/
structure State.keepsSound (s t : State) : Prop where
  memory : s.part.bus.stagePos < 4 → s.mem.within 131072 → t.mem.within 131072
  part : s.part.keepsInvariants t.part
  trouble : s.part.troubleCurrent → t.part.troubleCurrent

theorem State.keepsSound_refl (s : State) : s.keepsSound s := ⟨fun _ => id, Part.keepsInvariants_refl _, id⟩

theorem State.keepsSound.trans {a b c : State} (h : a.keepsSound b) (k : b.keepsSound c) : a.keepsSound c :=
  ⟨fun hpos hmem => k.memory (h.part.bus.stagePos hpos) (h.memory hpos hmem), h.part.trans k.part, k.trouble ∘ h.trouble⟩

/-- What is kept does not depend on the upstream data and the commands that wait. -/
theorem State.keepsSound.congr {s t u : State} (h : s.keepsSound t) (hm : u.mem = t.mem) (hp : u.part = t.part) :
    s.keepsSound u := by
  obtain ⟨mem, up, part, pending⟩ := u
  subst hm hp
  exact ⟨h.memory, h.part, h.trouble⟩

/-- A step that settles leaves the trouble pattern current. -/
theorem State.keepsSound_serve {f : Part → Part} (s : State)
    (h : s.part.mode.serving = true → s.part.keepsInvariants (f s.part)) : s.keepsSound { s with part := s.part.serve f } := by
  refine ⟨fun _ => id, Part.keepsInvariants_serve h, fun hcur => ?_⟩
  by_cases hm : s.part.mode.serving = true
  · simp only [Part.serve_of_serving hm]
    exact Part.settle_current _ _
  · simpa only [Part.serve_of_not_serving (Bool.eq_false_iff.mpr hm)] using hcur

theorem Part.work_trouble {f : Part → Part} {p : Part} (hcur : p.troubleCurrent) : (p.work f).troubleCurrent := by
  by_cases hm : p.mode.live = true
  · rw [Part.work_of_live hm]
    exact Part.settle_current _ _
  · rwa [Part.work_of_not_live (Bool.eq_false_iff.mpr hm)]

theorem State.keepsSound_work {f : Part → Part} (s : State)
    (h : s.part.mode.live = true → s.part.keepsInvariants (f s.part)) : s.keepsSound { s with part := s.part.work f } :=
  ⟨fun _ => id, Part.keepsInvariants_work h, Part.work_trouble⟩

/-- A step of the Point Engine that takes a piece of work. -/
theorem State.keepsSound_takeWork {f : Work → Option (Part → Part)} (s : State)
    (h : ∀ w g, f w = some g → ∀ q : Part, q.advances (g q)) : s.keepsSound { s with part := s.part.serve (Part.takeWork f) } :=
  s.keepsSound_serve fun hm => ((Part.takeWork_advances h _).evolves hm).keepsInvariants

/-- A change of the Bus Path alone that keeps its bounds. -/
theorem State.keepsSound_bus (s : State) {b : Bus} (h : s.part.bus.evolves b) :
    s.keepsSound { s with part := { s.part with bus := b } } :=
  ⟨fun _ => id, (Part.withBus_evolves_of h).keepsInvariants, id⟩

/-- A write of memory inside the address space. -/
theorem State.keepsSound_write (s : State) {a : Nat} (w : Word) (ha : s.part.bus.stagePos < 4 → a < 131072) :
    s.keepsSound { s with mem := s.mem.write a w } :=
  ⟨fun hpos hmem => Memory.within_write hmem fun _ => ha hpos, Part.keepsInvariants_refl _, id⟩

/-! ### Panel cycles -/

theorem State.setHold_keepsSound (h : Option Hold) (s : State) : s.keepsSound (s.setHold h) :=
  s.keepsSound_bus ⟨id, id, id⟩

theorem State.pass_keepsSound (c : Cycle) (s : State) : s.keepsSound (s.pass c) := by
  cases c with
  | read a => exact s.keepsSound_refl.congr rfl rfl
  | write a w => exact s.keepsSound_write w fun _ => a.isLt

theorem State.writeWord_keepsSound (a : Addr) (w : Word) (s : State) : s.keepsSound (s.writeWord a w) := by
  unfold State.writeWord
  split
  · rename_i off _
    exact (s.keepsSound_write _ fun _ => a.isLt).trans (State.keepsSound_work _ fun _ =>
      (s.part.clearByWrite_evolves off w).keepsInvariants.trans (Part.takeWrite_keepsInvariants off w _))
  · exact s.keepsSound_write w fun _ => a.isLt

theorem State.make_keepsSound (c : Cycle) (s : State) : s.keepsSound (s.make c) := by
  cases c with
  | read a => exact s.keepsSound_refl.congr rfl rfl
  | write a w => exact s.writeWord_keepsSound a w

theorem State.attempt_keepsSound (c : Cycle) (s : State) : s.keepsSound (s.attempt c) := by
  unfold State.attempt
  split
  · exact s.keepsSound_bus ⟨id, id, id⟩
  · exact s.make_keepsSound c

theorem State.undriven_keepsSound (c : Cycle) (s : State) : s.keepsSound (s.undriven c) := by
  cases c <;> exact s.keepsSound_refl.congr rfl rfl

theorem State.begin_keepsSound (c : Cycle) (s : State) : s.keepsSound (s.begin c) := by
  have hlive : s.keepsSound (if ((s.setHold none).undriven c).part.bus.full then
      ((s.setHold none).undriven c).setHold
        (some { cycle := c, before := ((s.setHold none).undriven c).part.bus.tickets, stalled := none })
      else ((s.setHold none).undriven c).attempt c) := by
    refine ((s.setHold_keepsSound none).trans (State.undriven_keepsSound c _)).trans ?_
    split
    · exact State.setHold_keepsSound _ _
    · exact State.attempt_keepsSound c _
  unfold State.begin
  split
  · exact s.keepsSound_refl
  · exact s.pass_keepsSound c
  · exact s.pass_keepsSound c
  all_goals exact hlive

theorem State.panelWriteAt_keepsSound (off : Nat) (w : Word) (s : State) : s.keepsSound (s.panelWriteAt off w) :=
  s.begin_keepsSound _

theorem State.endHold_keepsSound (s : State) : s.keepsSound s.endHold := by
  unfold State.endHold
  split
  · split
    · split
      · exact (s.setHold_keepsSound none).trans (State.attempt_keepsSound _ _)
      · exact s.keepsSound_refl
    · split
      · exact (s.setHold_keepsSound none).trans (State.make_keepsSound _ _)
      · exact s.keepsSound_refl
  · exact s.keepsSound_refl

/-! ### Inserted cycles -/

/-- A word of the window lies in memory (R2). -/
theorem windowBase_add_lt (straps : Straps) {off : Nat} (h : off < 4096) : windowBase straps + off < 131072 := by
  have := straps.wsel.isLt
  unfold windowBase
  omega

theorem Part.actsOn_lt {p : Part} {off : Nat} (h : p.actsOn off = true) : off < 4096 := by
  by_contra hoff
  have hword : windowWord off = .ordinary := by
    simp only [windowWord]
    repeat rw [if_neg (by omega)]
  simp [Part.actsOn, partOwned, hword] at h

theorem State.writeBack_keepsSound (s : State) : s.keepsSound s.writeBack := by
  unfold State.writeBack
  split
  · rename_i off _ _
    have htaken := s.keepsSound_bus (Bus.takeBack_evolves off s.part.bus)
    simp only
    split
    · rename_i hacts
      exact (s.keepsSound_write _ fun _ => windowBase_add_lt _ (Part.actsOn_lt hacts)).trans
        (State.keepsSound_bus _ (Bus.takeBack_evolves off s.part.bus))
    · exact htaken
  · exact s.keepsSound_refl

theorem State.stagingWrite_keepsSound (s : State) : s.keepsSound s.stagingWrite := by
  unfold State.stagingWrite
  split
  · rename_i r _ _ _
    have haddress : s.part.bus.stagePos < 4 →
        windowBase s.part.straps + logOffset r.slot.val s.part.bus.stagePos < 131072 := by
      intro hpos
      have := r.slot.isLt
      exact windowBase_add_lt _ (by unfold logOffset; omega)
    refine (s.keepsSound_write _ haddress).trans (State.keepsSound_work _ fun _ => Part.evolves.keepsInvariants ?_)
    split
    · rename_i hpos
      exact Part.withBus_evolves_of ⟨id, id, fun _ => by simp only; omega⟩
    · exact (Part.withBus_evolves_of s.part.bus.takeStaged_evolves).trans (Part.advanceShown_evolves _ _)
  · exact s.keepsSound_refl

theorem State.loadRead_keepsSound (s : State) : s.keepsSound s.loadRead := by
  unfold State.loadRead
  split
  · exact s.keepsSound_work fun _ => Part.loadStep_keepsInvariants _ _ _
  · exact s.keepsSound_refl

theorem State.reloadRead_keepsSound (s : State) : s.keepsSound s.reloadRead := by
  unfold State.reloadRead
  split
  · exact s.keepsSound_serve fun hm => Part.reloadResume_keepsInvariants hm
  · exact s.keepsSound_serve fun hm => Part.reloadStep_keepsInvariants hm _
  · exact s.keepsSound_refl

theorem State.timeRead_keepsSound (s : State) : s.keepsSound s.timeRead := by
  unfold State.timeRead
  split
  · rename_i hm _
    have hm : s.part.mode = .unconfigured := by simp_all
    exact s.keepsSound_work fun _ => (Part.timeStep_evolves (by simp [hm]) _).keepsInvariants
  · exact s.keepsSound_refl

/-! ### Resets -/

theorem Line.cleared_state (l : Line) : l.cleared.state ≠ .fault := by
  unfold Line.cleared
  simp only
  split <;> exact nofun

/-- A part as a reset leaves it has no trouble (R166). -/
theorem Part.troubleCurrent_cleared {p q : Part} (hmode : q.mode ≠ .unconfigured)
    (hlines : ∀ n, (q.line n).state = (p.cleared.line n).state)
    (h : p.cleared.keepsBut [.mode, .straps, .bus, .mirrors, .lines, .time] q) : q.troubleCurrent := by
  refine Part.troubleCurrent_of_quiet hmode (by rw [h.queue]; rfl) (fun n => ?_) (by rw [h.heartbeat]; rfl)
    (by rw [h.points]; rfl) (by rw [h.notice]; rfl)
  rw [hlines]
  simpa [Part.line, Part.cleared] using Line.cleared_state _

theorem Part.cleared_trouble {m : Mode} (hm : m ≠ .unconfigured) (p : Part) : Part.troubleCurrent { p.cleared with mode := m } :=
  Part.troubleCurrent_cleared (p := p) hm (fun _ => rfl) fun b hb => by cases b <;> simp [Block.same] at hb ⊢

/-- Entering LOADING changes the state of no line that has been cleared. -/
theorem Part.startLoading_lines (kind : LoadKind) (p : Part) (n : LineNo) :
    ((Part.startLoading kind p).line n).state = (p.line n).cleared.state := by
  simp [Part.startLoading, Part.beginLoad, Part.line, Line.start, Line.become]

theorem Line.cleared_cleared (l : Line) : l.cleared.cleared = l.cleared := rfl

/-- LOADING is entered with the other blocks as the reset has left them. -/
theorem Part.startLoading_keeps (kind : LoadKind) {p : Part} (hh : p.notice.heads = none) :
    p.keepsBut [.mode, .bus, .mirrors, .lines] (Part.startLoading kind p) := by
  intro b hb
  cases b <;> simp [Block.same, Part.startLoading, Part.beginLoad] at hb ⊢
  rw [← hh]

theorem Part.troubleDue_notice (p : Part) (m : Notice) : Part.troubleDue { p with notice := m } = p.troubleDue := rfl

theorem Part.sample_trouble (straps : Straps) (kind : LoadKind) (p : Part) : (p.sample straps kind).troubleCurrent := by
  unfold Part.sample
  split
  · exact Part.troubleCurrent_cleared (p := p) (by simp) (fun _ => rfl) fun b hb => by cases b <;> simp [Block.same] at hb ⊢
  · simp only
    generalize (if p.straps.bypass then p.enableAll else p) = q
    have hload := Part.startLoading_keeps kind (p := { q.cleared with straps }) rfl
    have hkeeps : q.cleared.keepsBut [.mode, .straps, .bus, .mirrors, .lines, .time]
        (Part.enter .noticeUnit 0x012 (Part.startLoading kind { q.cleared with straps })) := by
      intro b hb
      cases b <;> simp [Block.same, hload.queue, hload.points, hload.routes, hload.arbiter, hload.heartbeat, hload.notice]
        at hb ⊢
    refine Part.troubleCurrent_cleared ?_ (fun n => ?_) hkeeps
    · simp [Part.startLoading, Part.beginLoad]
    · have hentered : ∀ r : Part, (Part.enter .noticeUnit 0x012 r).line n = r.line n := fun r => by simp [Part.line]
      rw [hentered, Part.startLoading_lines]
      simp [Part.line, Part.cleared, Line.cleared_cleared]

theorem Part.restartReset_trouble (p : Part) : p.restartReset.troubleCurrent := by
  have hload := Part.startLoading_keeps .restart (p := p.cleared) rfl
  have hmode : (Part.startLoading .restart p.cleared).mode ≠ .unconfigured := by simp [Part.startLoading, Part.beginLoad]
  have hcurrent : (Part.startLoading .restart p.cleared).troubleCurrent := by
    refine Part.troubleCurrent_cleared hmode (fun n => ?_) (Part.keepsBut_mono hload (by simp))
    rw [Part.startLoading_lines]
    simp [Part.line, Part.cleared, Line.cleared_cleared]
  unfold Part.restartReset
  exact (Part.troubleDue_notice _ _).trans hcurrent

/-- A reset passes the held cycle, if there is one, and leaves a part without trouble. -/
theorem State.reset_keepsSound {q : Part} (s : State) (hinv : s.part.keepsInvariants q) (htrouble : q.troubleCurrent) :
    s.keepsSound { (match s.part.bus.hold with
      | some h => s.pass h.cycle
      | none => s) with part := q } := by
  split
  · exact ⟨fun hpos hmem => (s.pass_keepsSound _).memory hpos hmem, hinv, fun _ => htrouble⟩
  · exact ⟨fun _ => id, hinv, fun _ => htrouble⟩

theorem State.assertXrst_keepsSound (s : State) : s.keepsSound s.assertXrst := by
  have hreset := s.reset_keepsSound (Part.cleared_keepsInvariants (m := .xrst) rfl s.part s.part)
    (Part.cleared_trouble (by simp) _)
  unfold State.assertXrst
  split
  · exact s.keepsSound_refl
  · exact s.keepsSound_refl
  all_goals exact hreset

theorem State.drainDone_keepsSound (s : State) : s.keepsSound s.drainDone := by
  unfold State.drainDone
  split
  · exact s.reset_keepsSound (Part.restartReset_keepsInvariants _ _) (Part.restartReset_trouble _)
  · exact s.keepsSound_refl

/-! ### The inputs, the clock and the mains -/

theorem Line.setOffice_state (judged asserted : Bool) (l : Line) : (l.setOffice judged asserted).state = l.state := by
  unfold Line.setOffice
  split <;> rfl

theorem Line.setLoop_state (judged present : Bool) (l : Line) : (l.setLoop judged present).state = l.state := by
  unfold Line.setLoop
  split <;> rfl

/-- A change of a line that leaves its state. -/
theorem State.keepsSound_setLine (s : State) {n : LineNo} {l : Line} (h : l.state = (s.part.line n).state) :
    s.keepsSound { s with part := s.part.setLine n l } := by
  refine ⟨fun _ => id, (Part.setLine_evolves n l s.part).keepsInvariants, fun hcur => ?_⟩
  have hdue : (s.part.setLine n l).troubleDue = s.part.troubleDue := by
    refine Part.troubleDue_congr rfl rfl (fun m => ?_) rfl rfl
    by_cases hm : m = n
    · rw [hm, Part.line_setLine, h]
    · rw [Part.line_setLine_ne hm]
  exact hdue.trans hcur

theorem Part.testDue_of_not_serving {p : Part} (hm : p.mode.serving = false) : p.testDue = p := by
  simp [Part.testDue, hm]

/-- Outside STOPPED and RUNNING a second changes the time base and enters the time words alone (R154). -/
theorem Part.secondPasses_keeps {p : Part} (hm : p.mode.serving = false) : p.keepsBut [.bus, .time] p.secondPasses := by
  have hentered : ∀ q : Part, q.enterTime.mode = q.mode := by simp [Part.enterTime]
  unfold Part.secondPasses
  split
  · exact Part.keepsBut_refl _ p
  · simp only
    split
    · rw [Part.testDue_of_not_serving (by rw [hentered]; exact hm)]
      intro b hb
      cases b <;> simp [Block.same, Part.enterTime] at hb ⊢
    · intro b hb
      cases b <;> simp [Block.same] at hb ⊢

theorem Mode.serving_of_not_live {m : Mode} (h : m.live = false) : m.serving = false := by
  cases m <;> simp [Mode.live, Mode.serving] at h ⊢

/-- Under XRST and in BYPASS the mains timer changes the mains condition alone (R162). -/
theorem Part.mainsExpires_keeps {p : Part} (hm : p.mode.live = false) : p.keepsBut [.time] p.mainsExpires := by
  have hs := Mode.serving_of_not_live hm
  unfold Part.mainsExpires
  split
  · exact Part.keepsBut_refl _ p
  · simp only [hm, hs, Bool.false_eq_true, if_false]
    intro b hb
    cases b <;> simp [Block.same] at hb ⊢

theorem State.keepsSound_powered {f : Part → Part} (s : State) (h : s.part.evolves (f s.part))
    (hoff : s.part.mode.live = false → s.part.keepsBut [.bus, .time] (f s.part)) :
    s.keepsSound { s with part := s.part.powered f } := by
  refine ⟨fun _ => id, (Part.powered_evolves h).keepsInvariants, fun hcur => ?_⟩
  have hkept : s.part.mode.live = false → (f s.part).troubleCurrent := fun hm => by
    rw [Part.troubleCurrent, Part.troubleDue_of_keeps (hoff hm), (hoff hm).notice]
    exact hcur
  simp only [Part.powered]
  split
  · exact hcur
  · rename_i hm
    exact hkept (by rw [hm]; rfl)
  · rename_i hm
    exact hkept (by rw [hm]; rfl)
  all_goals exact Part.settle_current _ _

/-- A change of the time base alone. -/
theorem State.keepsSound_time (s : State) (t : TimeBase) : s.keepsSound { s with part := { s.part with time := t } } :=
  ⟨fun _ => id, (Part.withTime_evolves t s.part).keepsInvariants, id⟩

/-! ### One ms of time -/

theorem Queue.tick_records (q : Queue) : q.tick.records = q.records := by
  unfold Queue.tick
  split <;> rfl

theorem Queue.tick_nextId (q : Queue) : q.tick.nextId = q.nextId := by
  unfold Queue.tick
  split <;> rfl

theorem Queue.sound_tick {q : Queue} (h : q.sound) : q.tick.sound := by
  simpa only [Queue.sound, Queue.count, Queue.tick_records, Queue.tick_nextId] using h

theorem Part.tickLive_evolves (p : Part) : p.evolves p.tickLive := by
  refine Part.evolves_of_keeps (bs := [.time, .queue, .lines, .heartbeat, .notice]) ?_ (queue := fun _ => Queue.sound_tick)
    (heads := fun _ => id) (command := fun _ _ => id)
  intro b hb
  cases b <;> simp [Block.same, Part.tickLive] at hb ⊢

theorem Part.tickLive_line (p : Part) (n : LineNo) : p.tickLive.line n = ((p.line n).tick).1 := by
  simp [Part.line, Part.tickLive]

theorem Part.tickLive_troubleDue (p : Part) : p.tickLive.troubleDue = p.troubleDue :=
  Part.troubleDue_congr rfl (by simp only [Part.tickLive, Queue.held, Queue.tick_records])
    (fun n => by rw [Part.tickLive_line]; rfl) rfl rfl

theorem State.tick_keepsSound (s : State) : s.keepsSound s.tick := by
  have hlive : s.keepsSound { s with part := s.part.tickLive, pending := Part.dueLive s.part s.part.tickLive } :=
    ⟨fun _ => id, s.part.tickLive_evolves.keepsInvariants, fun hcur => s.part.tickLive_troubleDue.trans hcur⟩
  unfold State.tick
  split
  · exact s.keepsSound_refl
  · exact (s.keepsSound_time _).congr rfl rfl
  · exact (s.keepsSound_time _).congr rfl rfl
  all_goals exact hlive

theorem State.idle_keepsSound (s : State) : s.keepsSound s.idle := by
  unfold State.idle
  split
  · exact s.keepsSound_refl.congr rfl rfl
  · exact s.tick_keepsSound

end Sys2Proof.Machine
end

section
/-! PROOFS. The steps of the machine: every command answers, and every step keeps what O3 to O6 state. -/

namespace Sys2Proof.Machine

/-! ### The commands -/

theorem execPanelWrite_sound (st : Strobes) (a : Addr) (w : Word) (s : State) :
    ∃ t, execPanelWrite st a w s = .next t ∧ s.keepsSound t := by
  cases st with
  | cycle => exact ⟨_, rfl, s.begin_keepsSound _⟩
  | both | deselected => exact ⟨_, rfl, s.setHold_keepsSound none⟩

theorem execPanelRead_sound (st : Strobes) (a : Addr) (s : State) :
    ∃ t, execPanelRead st a s = .next t ∧ s.keepsSound t := by
  cases st with
  | cycle => exact ⟨_, rfl, s.begin_keepsSound _⟩
  | both | deselected => exact ⟨_, rfl, (s.setHold_keepsSound none).congr rfl rfl⟩

theorem execTestScheduleChange_sound (k : ScheduleWord) (w : Word) (s : State) :
    ∃ t, execTestScheduleChange k w s = .next t ∧ s.keepsSound t := by
  cases k <;> exact ⟨_, rfl, s.panelWriteAt_keepsSound _ _⟩

theorem execRouteDescriptorWrite_sound (r : RouteNo) (k : RouteWord) (w : Word) (s : State) :
    ∃ t, execRouteDescriptorWrite r k w s = .next t ∧ s.keepsSound t := by
  cases k <;> exact ⟨_, rfl, s.panelWriteAt_keepsSound _ _⟩

theorem execXrstRelease_sound (straps : Straps) (s : State) :
    ∃ t, execXrstRelease straps s = .next t ∧ s.keepsSound t := by
  unfold execXrstRelease
  split
  · exact ⟨_, rfl, fun _ => id, Part.sample_keepsInvariants (by simp) straps _, fun _ => Part.sample_trouble _ _ _⟩
  · exact ⟨_, rfl, s.keepsSound_refl⟩

theorem execPowerOn_sound (straps : Straps) (s : State) : ∃ t, execPowerOn straps s = .next t ∧ s.keepsSound t :=
  ⟨_, rfl, fun _ => id, Part.sample_keepsInvariants (by simp) straps _, fun _ => Part.sample_trouble _ _ _⟩

theorem execPowerLoss_sound (s : State) : ∃ t, execPowerLoss s = .next t ∧ s.keepsSound t :=
  ⟨_, rfl, fun _ => id, Part.cleared_keepsInvariants rfl _ _, fun _ => Part.cleared_trouble (by simp) _⟩

/-- RELOAD goes on in STOPPED or RUNNING, or it has failed, and nothing of it is left. -/
def Part.goesOn (p : Part) : Prop := p.mode.serving = true ∨ (p.mirrors.reload = none ∧ p.points.commandFree)

theorem Part.reloadFails_goesOn (p : Part) : p.reloadFails.goesOn := by
  refine Or.inr ⟨?_, ?_⟩
  · simp [Part.reloadFails, Mirrors.empty]
  · simp [Part.reloadFails, Points.empty, Points.commandFree]

theorem Part.reloadNext_goesOn {p : Part} (hm : p.mode.serving = true) (next : Nat) : (p.reloadNext next).goesOn := by
  unfold Part.reloadNext
  simp only
  split
  · exact Part.reloadFails_goesOn _
  · split
    · exact Or.inl ((Part.reloadEnds_evolves (by exact hm)).serving.trans hm)
    · exact Or.inl hm

theorem Part.reloadForgets_goesOn {p : Part} (hm : p.mode.serving = true) (i : PointNo) : (p.reloadForgets i).goesOn := by
  unfold Part.reloadForgets
  split
  · split
    · exact Part.reloadNext_goesOn hm _
    · exact Or.inl hm
  · exact Or.inl hm

/-- What follows the forgetting of a capture: the engine's next piece of work, and a capture that has waited. -/
theorem Part.goesOn.resumed {p : Part} (h : p.goesOn) : p.keepsInvariants p.pump.reloadResume := by
  rcases h with hm | ⟨hreload, hfree⟩
  · have hpump := (p.pump_advances).evolves hm
    exact hpump.keepsInvariants.trans (Part.reloadResume_keepsInvariants (hpump.serving.trans hm))
  · have hresume : p.reloadResume = p := by simp [Part.reloadResume, hreload]
    rw [Part.pump_of_commandFree hfree, hresume]
    exact Part.keepsInvariants_refl p

/-- What POINT_DISABLE does with a piece of work (R54). -/
theorem Part.takeDisable_keepsInvariants {p : Part} (hm : p.mode.serving = true) : p.keepsInvariants (p.takeWork fun
    | .disable i => some fun q => (q.disablePoint i).reloadForgets i
    | _ => none).reloadResume := by
  have hresume := Part.reloadResume_keepsInvariants hm
  unfold Part.takeWork
  split
  · split
    · rename_i w ws _
      have htaken : p.evolves { p with points := { p.points with work := ws } } := (p.withWork_advances ws).evolves hm
      split
      · rename_i g hg
        simp only at hg
        split at hg
        · rename_i i _
          simp only [Option.some.injEq] at hg
          subst hg
          have hdisabled := htaken.trans (Part.disablePoint_evolves i _)
          have hserving := hdisabled.serving.trans hm
          exact (hdisabled.keepsInvariants.trans (Part.reloadForgets_keepsInvariants hserving i)).trans
            (Part.reloadForgets_goesOn hserving i).resumed
        · simp at hg
      · exact hresume
    · exact hresume
  · exact hresume

theorem execPointDisable_sound (s : State) : ∃ t, execPointDisable s = .next t ∧ s.keepsSound t :=
  ⟨_, rfl, s.keepsSound_serve fun hm => Part.takeDisable_keepsInvariants hm⟩

theorem execFifoEntryTaken_sound (s : State) : ∃ t, execFifoEntryTaken s = .next t ∧ s.keepsSound t := by
  refine ⟨_, rfl, s.keepsSound_serve fun hm => ?_⟩
  have hstep := (Part.fifoStep_advances s.part).evolves hm
  exact hstep.keepsInvariants.trans (Part.reloadResume_keepsInvariants (hstep.serving.trans hm))

/-! ### Every command -/

/-- A command whose effect evolves a part that works. -/
theorem answers_work {c : Instr} {s : State} {f : Part → Part} (hf : s.part.evolves (f s.part))
    (hc : exec c s = .next { s with part := s.part.work f }) : Answers c s s.keepsSound :=
  ⟨_, hc, s.keepsSound_work fun _ => hf.keepsInvariants⟩

/-- A command whose effect evolves a part that serves. -/
theorem answers_serve {c : Instr} {s : State} {f : Part → Part} (hf : s.part.evolves (f s.part))
    (hc : exec c s = .next { s with part := s.part.serve f }) : Answers c s s.keepsSound :=
  ⟨_, hc, s.keepsSound_serve fun _ => hf.keepsInvariants⟩

/-- A command that takes a piece of Point Engine work. -/
theorem answers_takeWork {c : Instr} {s : State} {f : Work → Option (Part → Part)}
    (hf : ∀ w g, f w = some g → ∀ q : Part, q.advances (g q))
    (hc : exec c s = .next { s with part := s.part.serve (Part.takeWork f) }) : Answers c s s.keepsSound :=
  ⟨_, hc, s.keepsSound_takeWork hf⟩

/-- A command that is a panel write of one word. -/
theorem answers_panelWriteAt {c : Instr} {s : State} {off : Nat} {w : Word} (hc : exec c s = .next (s.panelWriteAt off w)) :
    Answers c s s.keepsSound :=
  ⟨_, hc, s.panelWriteAt_keepsSound off w⟩

/-- What a group of points is put through takes the engine on. -/
theorem takeGroup_answers {c : Instr} {s : State} {a : GroupAction} {f : Work → Option (Part → Part)}
    (hf : ∀ w g, f w = some g → ∃ is, g = Part.takeGroup a is)
    (hc : exec c s = .next { s with part := s.part.serve (Part.takeWork f) }) : Answers c s s.keepsSound := by
  refine answers_takeWork (fun w g hg q => ?_) hc
  obtain ⟨is, rfl⟩ := hf w g hg
  exact Part.runOps_advances _ q

/-- Every command answers a next state and keeps what every step keeps. -/
theorem exec_sound (c : Instr) (s : State) : Answers c s s.keepsSound := by
  cases c with
  | powerOn straps => exact execPowerOn_sound straps s
  | powerLoss => exact execPowerLoss_sound s
  | xrstAssert => exact ⟨_, rfl, s.assertXrst_keepsSound⟩
  | xrstRelease straps => exact execXrstRelease_sound straps s
  | panelWrite strobes a w => exact execPanelWrite_sound strobes a w s
  | panelRead strobes a => exact execPanelRead_sound strobes a s
  | waitHoldEnd => exact ⟨_, rfl, s.endHold_keepsSound⟩
  | heldCycleAbandoned => exact ⟨_, rfl, s.setHold_keepsSound none⟩
  | writeBack => exact ⟨_, rfl, s.writeBack_keepsSound⟩
  | writeBackEntryAdmitted => exact ⟨_, rfl, s.keepsSound_work fun _ => Part.admitEntry_keepsInvariants _⟩
  | logStagingWrite => exact ⟨_, rfl, s.stagingWrite_keepsSound⟩
  | logRecordAdmitted => exact answers_work ((Part.admitLog_evolves _).trans (Part.beginDrain_evolves _)) rfl
  | loadRead => exact ⟨_, rfl, s.loadRead_keepsSound⟩
  | reloadRead => exact ⟨_, rfl, s.reloadRead_keepsSound⟩
  | setTimeRead => exact ⟨_, rfl, s.timeRead_keepsSound⟩
  | restartDrainDone => exact ⟨_, rfl, s.drainDone_keepsSound⟩
  | start | stop | abortCalls | reload | adoptBaseline | testCall | setTime | clearTrouble | releaseHeld | restart
  | unknownCommand | causeWordWrite | causeEnableWrite | heartbeat | heartbeatPeriodChange | batteryThresholdChange
  | logTailWrite | lineEnableChange | budgetWrite | accessedFlagClear | directoryWrite | pointEntryWrite =>
    exact answers_panelWriteAt rfl
  | testScheduleChange k w => exact execTestScheduleChange_sound k w s
  | routeDescriptorWrite r k w => exact execRouteDescriptorWrite_sound r k w s
  | pointDisable => exact execPointDisable_sound s
  | pointEnable =>
    refine answers_takeWork (fun w g hg q => ?_) rfl
    cases w <;> simp only [Option.some.injEq, reduceCtorEq] at hg
    subst hg
    exact (Part.enablePoint_evolves _ q).toadvances
  | isolate =>
    refine takeGroup_answers (a := .isolate) (fun w g hg => ?_) rfl
    split at hg
    · exact ⟨_, (Option.some.inj hg).symm⟩
    · exact absurd hg nofun
  | deisolate =>
    refine takeGroup_answers (a := .deisolate) (fun w g hg => ?_) rfl
    split at hg
    · exact ⟨_, (Option.some.inj hg).symm⟩
    · exact absurd hg nofun
  | rescan =>
    refine takeGroup_answers (a := .rescan) (fun w g hg => ?_) rfl
    split at hg
    · exact ⟨_, (Option.some.inj hg).symm⟩
    · exact absurd hg nofun
  | fifoEntryTaken => exact execFifoEntryTaken_sound s
  | owedSweepStep => exact answers_serve (Part.sweep_evolves _) rfl
  | conditionChange =>
    refine answers_takeWork (fun w g hg q => ?_) rfl
    cases w <;> simp only [Option.some.injEq, reduceCtorEq] at hg
    subst hg
    exact (Part.takeCondition_evolves _ _ q).toadvances
  | testRequest =>
    refine answers_takeWork (fun w g hg q => ?_) rfl
    cases w <;> simp only [Option.some.injEq, reduceCtorEq] at hg
    subst hg
    exact Part.takeTest_advances _ _ q
  | deliveryNotice =>
    refine answers_takeWork (fun w g hg q => ?_) rfl
    cases w <;> simp only [Option.some.injEq, reduceCtorEq] at hg
    subst hg
    exact (Part.takeDelivery_evolves _ _ _ _ _ q).toadvances
  | queueNotice =>
    refine answers_takeWork (fun w g hg q => ?_) rfl
    cases w <;> simp only [Option.some.injEq, reduceCtorEq] at hg
    subst hg
    exact (Part.takeNotice_evolves _ _ q).toadvances
  | retryTimePassed slot => exact answers_serve (Part.retryPassed_evolves slot _) rfl
  | holdExpiry slot => exact answers_serve (Part.holdExpires_evolves slot _) rfl
  | decision => exact answers_serve (Part.decision_evolves _) rfl
  | grantOffer n => exact answers_work (Part.takeGrant_evolves n _) rfl
  | preemptionOffer n => exact answers_work (Part.takePreemption_evolves n _) rfl
  | joinOffer n => exact answers_work (Part.takeJoin_evolves n _) rfl
  | officeSenseChange n b => exact ⟨_, rfl, s.keepsSound_setLine (Line.setOffice_state _ _ _)⟩
  | loopSenseChange n b => exact ⟨_, rfl, s.keepsSound_setLine (Line.setLoop_state _ _ _)⟩
  | officeUseBegins n | officeUseEnds n | breakExpiry n | dialSymbolEnd n | ready n =>
    exact answers_work (Part.evolves_ite (Part.moveLine_evolves n _ _)) rfl
  | loopLossExpiry n => exact answers_work (Part.loopLossExpires_evolves n _) rfl
  | presenceTimerExpiry n => exact answers_work (Part.evolves_ite (Part.leaveFault_evolves n _)) rfl
  | farClear n | waitSymbolExpiry n | busy n | ringbackExpiry n =>
    exact answers_work (Part.evolves_ite (Part.failLine_evolves n _ _)) rfl
  | dialTone n =>
    refine answers_work ?_ rfl
    split
    · exact Part.moveLine_evolves n _ _
    · exact Part.evolves_ite (Part.moveLine_evolves n _ _)
  | dialToneWaitExpiry n =>
    refine answers_work ?_ rfl
    refine Part.evolves_ite ?_
    split
    · exact Part.moveLine_evolves n _ _
    · exact Part.failLine_evolves n _ _
  | readyToneStopped n => exact answers_work (Part.inPhaseDo_evolves n _ (Part.setLine_evolves n _ _)) rfl
  | handshakeExpiry n => exact answers_work (Part.afterPhaseDo_evolves n _ (Part.failLine_evolves n _ _)) rfl
  | turnaroundEnd n => exact answers_work (Part.afterPhaseDo_evolves n _ (Part.turnaroundEnds_evolves n _)) rfl
  | burstSendingEnd n => exact answers_work (Part.afterPhaseDo_evolves n _ (Part.setLine_evolves n _ _)) rfl
  | ack n => exact answers_work (Part.inPhaseDo_evolves n _ (Part.acknowledge_evolves n _)) rfl
  | repeatToken n => exact answers_work (Part.inPhaseDo_evolves n _ (Part.unanswered_evolves n _)) rfl
  | windowExpiry n => exact answers_work (Part.afterPhaseDo_evolves n _ (Part.windowCloses_evolves n _)) rfl
  | endSymbolEnd n => exact answers_work (Part.afterPhaseDo_evolves n _ (Part.endCall_evolves n _ _ _)) rfl
  | releaseGuardEnd n => exact answers_work (Part.guardEnds_evolves n _) rfl
  | clockSecond =>
    exact ⟨_, rfl, s.keepsSound_powered (Part.secondPasses_evolves _) fun hm =>
      Part.secondPasses_keeps (Mode.serving_of_not_live hm)⟩
  | heartbeatExpiry => exact answers_serve (Part.heartbeatExpires_evolves _) rfl
  | mainsLostChange b => exact ⟨_, rfl, s.keepsSound_time _⟩
  | mainsTimerExpiry =>
    exact ⟨_, rfl, s.keepsSound_powered (Part.mainsExpires_evolves _) fun hm =>
      Part.keepsBut_mono (Part.mainsExpires_keeps hm) (by simp)⟩
  | troublePulseToggle => exact answers_work (Part.pulseToggles_evolves _) rfl

/-- Every step answers a next state and keeps what every command keeps. -/
theorem step_sound (s : State) : ∃ t, step s = .next t ∧ s.keepsSound t := by
  unfold step
  split
  · rename_i c q _
    obtain ⟨t, hexec, hsound⟩ := exec_sound c { s with pending := q }
    exact ⟨t, hexec, (s.keepsSound_refl.congr (u := { s with pending := q }) rfl rfl).trans hsound⟩
  · exact ⟨_, rfl, s.idle_keepsSound⟩

theorem keepsSound_of_step {s t : State} (h : step s = .next t) : s.keepsSound t := by
  obtain ⟨u, hstep, hsound⟩ := step_sound s
  rw [hstep, Host.Outcome.next.injEq] at h
  exact h ▸ hsound

/-! ### The statements -/

/-- Settles O1. -/
theorem stepRunsFrontCommand : Obligations.StepRunsFrontCommand := fun _ _ _ => rfl

/-- Settles O2: the commands one by one answer a next state, and so does a step. -/
theorem nothingStopsThePart : Obligations.NothingStopsThePart := by
  refine ⟨fun c s => ?_, fun s => ?_⟩
  · obtain ⟨t, hexec, -⟩ := exec_sound c s
    exact ⟨t, hexec⟩
  · obtain ⟨t, hstep, -⟩ := step_sound s
    exact ⟨t, hstep⟩

/-- Settles O3: a step writes memory and mirrors inside their address spaces only. -/
theorem memoryStaysSound : Obligations.MemoryStaysSound := by
  rintro s t ⟨hwf, hbound, hmirrors, hwindow, hpos⟩ hstep
  have hsound := keepsSound_of_step hstep
  obtain ⟨hwf', hbound'⟩ := hsound.memory hpos ⟨hwf, hbound⟩
  obtain ⟨hmirrors', hwindow'⟩ := hsound.part.words ⟨hmirrors, hwindow⟩
  exact ⟨hwf', hbound', hmirrors', hwindow', hsound.part.bus.stagePos hpos⟩

/-- Settles O4: each operation on the buffers keeps their bounds. -/
theorem boundedBuffersStayBounded : Obligations.BoundedBuffersStayBounded := by
  intro s t hstep
  have hpart := (keepsSound_of_step hstep).part
  exact ⟨hpart.bus.writeBack, hpart.bus.staging, hpart.points.fifo⟩

/-- Settles O5: each operation on the Report Queue keeps it sound. -/
theorem reportQueueStaysSound : Obligations.ReportQueueStaysSound := fun _ _ hsound hstep =>
  (keepsSound_of_step hstep).part.queue hsound

/-- Settles O6: a step that changes a condition settles, and the log heads, point 263 and the RELOAD in progress are kept by
each operation. -/
theorem troubleHeadsTestPointAndReloadKept : Obligations.TroubleHeadsTestPointAndReloadKept := by
  intro s t hstep
  have hsound := keepsSound_of_step hstep
  exact ⟨hsound.trouble, hsound.part.heads, hsound.part.points.test, hsound.part.reload⟩

/-- Settles O7: reset is a state without records, and its blocks are empty but for the four addresses entered. -/
theorem resetMeetsTheInvariants : Obligations.ResetMeetsTheInvariants := by
  refine ⟨by decide, by decide, by decide, by decide, by decide, by decide, by decide, by decide, ?_, rfl, rfl⟩
  refine ⟨fun k h => ?_, by decide⟩
  exact absurd h (by simp [State.reset, Part.atReset])

end Sys2Proof.Machine
end

section
/-! PROOFS. The resets, BYPASS and the loss of power (R18 to R20, R103, R178). -/

namespace Sys2Proof.Machine

/-! ### Lines -/

/-- What every reset leaves of a line: no call, no timer, no mark, both relays released (R103). -/
def Line.quiet (l : Line) : Prop :=
  l.call = none ∧ l.disablePending = false ∧ l.timer = none ∧ l.state = if l.takenEnable then .idle else .disabled

theorem Line.cleared_quiet (l : Line) : l.cleared.quiet := ⟨rfl, rfl, rfl, rfl⟩

theorem Line.start_quiet (l : Line) : l.start.quiet := by
  refine ⟨?_, rfl, rfl, rfl⟩
  have hstate : l.cleared.state.inCall = false := by
    unfold Line.cleared
    simp only
    split <;> rfl
  simp only [Line.start, Line.become, hstate, Bool.false_eq_true, if_false]

theorem Line.quiet.released {l : Line} (h : l.quiet) : l.state.seized = false ∧ l.state.offHook = false := by
  obtain ⟨-, -, -, hstate⟩ := h
  rw [hstate]
  split <;> exact ⟨rfl, rfl⟩

theorem Part.relaysReleased_of_quiet {p : Part} (h : ∀ n, (p.line n).quiet) : p.relaysReleased := fun n => (h n).released

/-! ### Blocks -/

theorem Part.discarded_cleared {p q : Part} (h : p.cleared.keepsBut [.mode, .straps, .bus, .mirrors, .lines, .notice] q)
    (hbus : q.bus = { Bus.empty with wbq := q.bus.wbq }) (hmirrors : q.mirrors = { Mirrors.empty with load := q.mirrors.load })
    (hlines : ∀ n, (q.line n).quiet) (hcauses : q.notice.causes = 0) (hheads : q.notice.heads = none) : q.discarded := by
  have hroute : ∀ r, q.route r = Route.empty := fun r => by
    rw [Part.route, h.routes]
    simp [Part.cleared]
  have hoffers : ∀ n : LineNo, q.arbiter.offers[n] = none := fun n => by
    rw [h.arbiter]
    simp [Part.cleared]
  have hline : ∀ n, (q.line n).call = none ∧ (q.line n).disablePending = false ∧ (q.line n).timer = none := fun n => by
    obtain ⟨hcall, hpending, htimer, -⟩ := hlines n
    exact ⟨hcall, hpending, htimer⟩
  exact ⟨congrArg Bus.wbWait hbus, congrArg Bus.staging hbus, congrArg Bus.logWait hbus, congrArg Bus.hold hbus,
    congrArg Bus.drain hbus, congrArg Mirrors.words hmirrors, congrArg Mirrors.reload hmirrors,
    congrArg Mirrors.timeReads hmirrors, h.points, congrArg Queue.records h.queue, congrArg Queue.clock h.queue, hroute,
    hline, congrArg Arbiter.decisionPending h.arbiter, hoffers, congrArg TimeBase.nextTest h.time,
    congrArg Heartbeat.timer h.heartbeat, congrArg Heartbeat.silent h.heartbeat, hcauses, hheads⟩

/-- LOADING is entered with the status word and the line state word entered (R18, R23, R102). -/
theorem Part.startLoading_eq {kind : LoadKind} {p : Part} (h : p.bus = Bus.empty) : Part.startLoading kind p =
    { p with
      mode := .loading
      bus := { Bus.empty with wbq := [0x017, 0x018] }
      mirrors := { p.mirrors with load := some { kind, next := 0 } }
      lines := tabulate fun n => p.lines[n].start
      notice := { p.notice with heads := none } } := by
  simp [Part.startLoading, Part.beginLoad, Part.enter, h, Bus.empty, Mode.live, Config.writeBackPlaces]

/-- A part as a reset clears it, in a communicator state that is inert (R18, R19, R103). -/
theorem Part.discarded_inert (m : Mode) (straps : Straps) (p : Part) :
    Part.discarded { p.cleared with mode := m, straps } ∧ Part.relaysReleased { p.cleared with mode := m, straps } := by
  have hlines : ∀ n, (Part.line { p.cleared with mode := m, straps } n).quiet := fun n => by
    simpa [Part.line, Part.cleared] using Line.cleared_quiet _
  refine ⟨Part.discarded_cleared (p := p) (fun b hb => ?_) rfl rfl hlines rfl rfl, Part.relaysReleased_of_quiet hlines⟩
  cases b <;> simp [Block.same] at hb ⊢

/-- LOADING as a reset enters it. -/
def Part.loadingAfter (kind : LoadKind) (straps : Straps) (wbq : List Nat) (m : Notice) (p : Part) : Part :=
  { p.cleared with
    mode := .loading
    straps
    bus := { Bus.empty with wbq }
    mirrors := { Mirrors.empty with load := some { kind, next := 0 } }
    lines := tabulate fun n => p.cleared.lines[n].start
    notice := m }

theorem Part.line_loadingAfter (kind : LoadKind) (straps : Straps) (wbq : List Nat) (m : Notice) (p : Part) (n : LineNo) :
    (p.loadingAfter kind straps wbq m).line n = (p.line n).cleared.start := by
  simp [Part.loadingAfter, Part.line, Part.cleared]

theorem Part.discarded_loadingAfter (kind : LoadKind) (straps : Straps) (wbq : List Nat) {m : Notice} (hc : m.causes = 0)
    (hh : m.heads = none) (p : Part) :
    (p.loadingAfter kind straps wbq m).discarded ∧ (p.loadingAfter kind straps wbq m).relaysReleased := by
  have hlines : ∀ n, ((p.loadingAfter kind straps wbq m).line n).quiet := fun n => by
    rw [Part.line_loadingAfter]
    exact Line.start_quiet _
  refine ⟨Part.discarded_cleared (p := p) (fun b hb => ?_) rfl rfl hlines hc hh, Part.relaysReleased_of_quiet hlines⟩
  cases b <;> simp [Block.same, Part.loadingAfter] at hb ⊢

theorem Part.sample_bypass {straps : Straps} (h : straps.bypass = true) (kind : LoadKind) (p : Part) :
    p.sample straps kind = { p.cleared with mode := .bypass, straps } := by
  simp [Part.sample, h]

/-- The notice unit as a reset that samples the straps leaves it (R173, R178). -/
theorem Part.sample_loading {straps : Straps} (h : straps.bypass = false) (kind : LoadKind) (p : Part) :
    p.sample straps kind = (if p.straps.bypass then p.enableAll else p).loadingAfter kind straps [0x017, 0x018, 0x012]
      (if p.straps.bypass then p.enableAll else p).cleared.notice := by
  simp only [Part.sample, h, Bool.false_eq_true, if_false]
  rw [Part.startLoading_eq rfl]
  simp [Part.enter, Mode.live, Part.loadingAfter, Config.writeBackPlaces, Bus.empty, Part.cleared]

theorem Part.restartReset_eq (p : Part) : p.restartReset = p.loadingAfter .restart p.straps [0x017, 0x018]
    { p.cleared.notice with
      inProgress := p.notice.inProgress
      resultTag := (p.notice.inProgress.map (·.tag)).getD 0
      resultStatus := .done } := by
  simp only [Part.restartReset]
  rw [Part.startLoading_eq rfl]
  rfl

theorem Part.line_enableAll (p : Part) (n : LineNo) : p.enableAll.line n = { p.line n with takenEnable := true } := by
  simp [Part.enableAll, Part.line]

/-- The held cycle, if there is one, is passed unchanged (R17). -/
def State.heldMade (s : State) : State :=
  match s.part.bus.hold with
  | some h => s.pass h.cycle
  | none => s

theorem State.heldMade_pending (s : State) : s.heldMade.pending = s.pending := by
  unfold State.heldMade
  split
  · rename_i h _
    cases h.cycle <;> rfl
  · rfl

theorem State.heldPassed_heldMade (s : State) (q : Part) : s.heldPassed { s.heldMade with part := q } := by
  unfold State.heldPassed State.heldMade
  cases s.part.bus.hold with
  | none => exact ⟨rfl, rfl⟩
  | some h =>
    obtain ⟨c, before, stalled⟩ := h
    cases c <;> exact ⟨rfl, rfl⟩

theorem State.assertXrst_eq {s : State} (hoff : s.part.mode ≠ .off) (hxrst : s.part.mode ≠ .xrst) :
    s.assertXrst = { s.heldMade with part := { s.part.cleared with mode := .xrst } } := by
  unfold State.assertXrst
  split
  · exact absurd ‹_› hoff
  · exact absurd ‹_› hxrst
  all_goals
    unfold State.heldMade
    cases s.part.bus.hold <;> rfl

theorem State.drainDone_eq {s : State} (h : s.part.bus.drained = true) :
    s.drainDone = { s.heldMade with part := s.part.restartReset } := by
  rw [State.drainDone, if_pos h]
  unfold State.heldMade
  cases s.part.bus.hold <;> rfl

theorem Bus.drained_iff (b : Bus) : b.drained = true ↔ ∃ raised, b.drain = some (.draining 0 [] raised) := by
  unfold Bus.drained
  split
  · rename_i n offs raised hdrain
    simp [hdrain, List.isEmpty_iff]
  · rename_i hdrain
    simp [hdrain]
  · rename_i hdrain
    simp [hdrain]

/-! ### The statements -/

/-- The part as power on finds it, the straps at their pull-downs (R103, R154, R162). -/
def Part.poweredUp (p : Part) : Part :=
  { p.enableAll with
    straps := strapsPulledDown
    time := { p.time with day := 0, minute := 0, second := 0, elapsedMs := 0, mainsActive := false }.restartMains }

theorem Part.poweredUp_line (p : Part) (n : LineNo) : p.poweredUp.line n = { p.line n with takenEnable := true } :=
  p.line_enableAll n

theorem Part.powerUp_eq (straps : Straps) (p : Part) : p.powerUp straps =
    if straps.bypass then { p.poweredUp.cleared with mode := .bypass, straps }
    else p.poweredUp.loadingAfter .powerOn straps [0x017, 0x018, 0x012] p.poweredUp.cleared.notice := by
  have hup : p.powerUp straps = p.poweredUp.sample straps .powerOn := rfl
  have hpulled : p.poweredUp.straps.bypass = false := rfl
  rw [hup]
  by_cases hb : straps.bypass = true
  · rw [Part.sample_bypass hb, if_pos hb]
  · rw [Part.sample_loading (Bool.eq_false_iff.mpr hb), hpulled, if_neg hb]
    rfl

/-- Settles O10: power on is `sample` of a part whose clock has been set to 0, power loss a part cleared. -/
theorem powerOnLoadsAndPowerLossReleasesLines : Obligations.PowerOnLoadsAndPowerLossReleasesLines := by
  refine ⟨fun straps s => ⟨_, rfl, rfl, rfl, rfl, ?_⟩, fun s => ⟨_, rfl, rfl, rfl, rfl, ?_⟩⟩
  · have hmains : s.part.poweredUp.time.mainsTimer = if s.part.time.mainsLost then some 0 else none := by
      cases h : s.part.time.mainsLost <;> simp [Part.poweredUp, TimeBase.restartMains, h]
    rw [Part.powerUp_eq]
    by_cases hb : straps.bypass = true
    · obtain ⟨hdiscarded, hreleased⟩ := s.part.poweredUp.discarded_inert .bypass straps
      rw [if_pos hb, if_pos hb]
      refine ⟨hdiscarded, rfl, rfl, rfl, rfl, rfl, rfl, rfl, hmains, fun n => ?_, hreleased, rfl, rfl, rfl⟩
      have hline : Part.line { s.part.poweredUp.cleared with mode := .bypass, straps } n = (s.part.poweredUp.line n).cleared := by
        simp [Part.line, Part.cleared]
      rw [hline, Part.poweredUp_line]
      exact ⟨rfl, rfl, rfl⟩
    · obtain ⟨hdiscarded, hreleased⟩ := s.part.poweredUp.discarded_loadingAfter .powerOn straps [0x017, 0x018, 0x012]
        (m := s.part.poweredUp.cleared.notice) rfl rfl
      rw [if_neg hb, if_neg hb]
      refine ⟨hdiscarded, rfl, rfl, rfl, rfl, rfl, rfl, rfl, hmains, fun n => ?_, hreleased, rfl, rfl, ⟨rfl, rfl⟩, rfl, rfl,
        fun n => ?_⟩
      · rw [Part.line_loadingAfter, Part.poweredUp_line]
        exact ⟨rfl, rfl, rfl⟩
      · rw [Part.line_loadingAfter, Part.poweredUp_line]
        rfl
  · obtain ⟨hdiscarded, hreleased⟩ := s.part.discarded_inert .off s.part.straps
    exact ⟨hreleased, hdiscarded, rfl⟩

/-- Settles O11: XRST clears the part once a held cycle has been passed, and its release samples the straps. -/
theorem xrstDropsAllWorkAndItsReleaseLoads : Obligations.XrstDropsAllWorkAndItsReleaseLoads := by
  refine ⟨fun s hoff hxrst => ⟨_, rfl, ?_⟩, fun straps s hm => ⟨s.part.sample straps .xrst |> fun p => { s with part := p }, ?_, ?_⟩⟩
  · obtain ⟨hdiscarded, hreleased⟩ := s.part.discarded_inert .xrst s.part.straps
    rw [State.assertXrst_eq hoff hxrst]
    refine ⟨s.heldMade_pending, rfl, rfl, hdiscarded, rfl, hreleased, rfl, rfl, rfl, ⟨rfl, rfl, rfl, rfl, rfl, rfl, rfl⟩,
      fun n => ?_, s.heldPassed_heldMade _⟩
    simp [Part.line, Part.cleared, Line.cleared]
  · simp [exec, execXrstRelease, hm]
  · refine ⟨rfl, rfl, rfl, ?_⟩
    by_cases hb : straps.bypass = true
    · obtain ⟨hdiscarded, hreleased⟩ := s.part.discarded_inert .bypass straps
      rw [Part.sample_bypass hb, if_pos hb]
      refine ⟨rfl, hdiscarded, ⟨rfl, rfl, rfl, rfl, rfl, rfl, rfl⟩, hreleased, rfl, rfl, rfl, rfl, rfl, fun n => ?_⟩
      simp [Part.line, Part.cleared, Line.cleared]
    · rw [Part.sample_loading (Bool.eq_false_iff.mpr hb), if_neg hb]
      have henable : ∀ n, ((if s.part.straps.bypass then s.part.enableAll else s.part).line n).takenEnable =
          ((s.part.line n).takenEnable || s.part.straps.bypass) := fun n => by
        split
        · rename_i h
          rw [Part.line_enableAll, h, Bool.or_true]
        · rename_i h
          rw [Bool.eq_false_iff.mpr h, Bool.or_false]
      have htime : (if s.part.straps.bypass then s.part.enableAll else s.part).time = s.part.time := by
        split <;> rfl
      generalize (if s.part.straps.bypass then s.part.enableAll else s.part) = p at henable htime
      obtain ⟨hdiscarded, hreleased⟩ := p.discarded_loadingAfter .xrst straps [0x017, 0x018, 0x012]
        (m := p.cleared.notice) rfl rfl
      refine ⟨rfl, hdiscarded, ?_, hreleased, rfl, rfl, ⟨rfl, rfl⟩, rfl, rfl, fun n => ?_⟩
      · rw [← htime]
        exact ⟨rfl, rfl, rfl, rfl, rfl, rfl, rfl⟩
      · rw [Part.line_loadingAfter]
        exact ⟨henable n, rfl⟩

/-- Settles O12: a drain that is done resets the part, any other leaves it. -/
theorem restartResetKeepsStrapsClockAndResult : Obligations.RestartResetKeepsStrapsClockAndResult := by
  refine ⟨fun raised s hdrain => ⟨_, rfl, ?_⟩, fun s hdrain => ⟨_, rfl, ?_⟩⟩
  · rw [State.drainDone_eq ((Bus.drained_iff _).mpr ⟨raised, hdrain⟩), Part.restartReset_eq]
    obtain ⟨hdiscarded, hreleased⟩ := s.part.discarded_loadingAfter .restart s.part.straps [0x017, 0x018]
      (m := { s.part.cleared.notice with
        inProgress := s.part.notice.inProgress
        resultTag := (s.part.notice.inProgress.map (·.tag)).getD 0
        resultStatus := .done }) rfl rfl
    refine ⟨s.heldPassed_heldMade _, s.heldMade_pending, rfl, ⟨rfl, rfl, rfl, rfl, rfl, rfl, rfl⟩, hdiscarded, hreleased, rfl,
      rfl, rfl, rfl, fun c hc => ⟨?_, rfl⟩, fun n => ?_⟩
    · simp [Part.loadingAfter, hc]
    · rw [Part.line_loadingAfter]
      exact ⟨rfl, rfl⟩
  · have hnot : ¬ s.part.bus.drained = true := by
      rw [Bus.drained_iff]
      exact fun ⟨raised, h⟩ => hdrain raised h
    rw [State.drainDone, if_neg hnot]

end Sys2Proof.Machine
end

section
/-! PROOFS. Panel cycles: made, passed or held (R1, R4, R10, R15 to R19, R180). -/

namespace Sys2Proof.Machine

/-! ### A panel write in the window -/

theorem pointOffset_lt (i : Fin 256) {w : Nat} (hw : w < 4) : pointOffset i.val w < 4096 := by
  have := i.isLt
  unfold pointOffset
  omega

theorem windowWord_pointEntry (i : Fin 256) : windowWord (pointOffset i.val 0) = .point i 0 := windowWord_point i 0

/-- A write stores its word at the window address, and memory is as before elsewhere. -/
theorem State.stores_write {s : State} (hmem : s.mem.wf = true) (off : Nat) (w : Word) (q : Part) :
    s.stores off w { s with mem := s.mem.write (s.wordAddress off) w, part := q } :=
  ⟨Memory.read_write hmem _ _, fun _ hb => Memory.read_write_ne hmem hb _, rfl, rfl⟩

theorem Part.actsOn_of_not_owned {p : Part} {off : Nat} (h : partOwned off = false) : p.actsOn off = false := by
  simp [Part.actsOn, h]

theorem Part.clearByWrite_of_not_acting {p : Part} {off : Nat} (h : p.actsOn off = false) (w : Word) :
    p.clearByWrite off w = p := by
  simp [Part.clearByWrite, h]

theorem Part.downstream_of_not_acting {p : Part} {off : Nat} (h : p.actsOn off = false) (w : Word) :
    p.downstream off w = w := by
  simp [Part.downstream, h]

/-- A panel write of a word the part does not act on stores the word as it is (R4). -/
theorem State.panelWriteAt_passed {s : State} {off : Nat} {w : Word} (hoff : off < 4096) (hm : s.part.mode.live = true)
    (hb : s.busFree) (hc : s.part.captures off w = false) (ha : s.part.actsOn off = false) :
    s.panelWriteAt off w =
      { s with
        mem := s.mem.write (s.wordAddress off) w
        part := Part.settle s.part (s.part.takeWrite off w) } := by
  rw [State.panelWriteAt_eq hoff hm hb (Part.stalls_eq_false rfl hoff hc), Part.clearByWrite_of_not_acting ha,
    Part.downstream_of_not_acting ha]
  rfl

/-- Only w0 of a point entry makes a capture (R43). -/
theorem Part.captures_of_not_point {p : Part} {off : Nat} (h : ∀ i, windowWord off ≠ .point i 0) (w : Word) :
    p.captures off w = false := by
  unfold Part.captures
  split
  · rename_i i k hword
    have hk : ¬ k.val = 0 := fun hk => h i (by rw [hword, show k = 0 from Fin.ext hk])
    simp [hk]
  all_goals rfl

/-- A write of w0 of a point entry makes a capture when the point stays enabled, its state code changes and OVERRUN is not in
force (R43, R46). -/
theorem Part.captures_point {p : Part} {i : Fin 256} {w : Word} (hbefore : enabledField (p.mirror (pointOffset i.val 0)) = true)
    (hafter : enabledField w = true)
    (hcode : stateCodeField (p.mirror (pointOffset i.val 0)) ≠ stateCodeField w) (hover : p.points.overrun = false) :
    p.captures (pointOffset i.val 0) w = true := by
  simp [Part.captures, windowWord_pointEntry, hbefore, hafter, hcode, hover]

/-- In STOPPED and RUNNING a word is taken, and then a capture of RELOAD that waited may be made (R27, R44). -/
theorem Part.takeWrite_of_serving {p : Part} (hm : p.mode.serving = true) (off : Nat) (w : Word) :
    p.takeWrite off w = p.takeServing off w ∨ p.takeWrite off w = (p.takeServing off w).reloadResume := by
  cases hmode : p.mode with
  | stopped | running =>
    simp only [Part.takeWrite, hmode]
    split
    · split
      · exact .inr rfl
      · exact .inl rfl
    all_goals exact .inl rfl
  | off | xrst | bypass | loading | unconfigured => simp [hmode, Mode.serving] at hm

/-- In STOPPED and RUNNING only w0 of a point entry lets RELOAD go on (R44). -/
theorem Part.takeWrite_serving {p : Part} (hm : p.mode.serving = true) {off : Nat} (h : ∀ i, windowWord off ≠ .point i 0)
    (w : Word) : p.takeWrite off w = p.takeServing off w := by
  cases hmode : p.mode with
  | stopped | running =>
    simp only [Part.takeWrite, hmode]
    split
    · rename_i i k hword
      rw [if_neg fun hk => h i (by rw [hword, show k = 0 from Fin.ext hk])]
    all_goals rfl
  | off | xrst | bypass | loading | unconfigured => simp [hmode, Mode.serving] at hm

theorem Part.takeWrite_point {p : Part} (hm : p.mode.serving = true) (i : Fin 256) (w : Word) :
    p.takeWrite (pointOffset i.val 0) w = (p.takeServing (pointOffset i.val 0) w).reloadResume := by
  cases hmode : p.mode with
  | stopped | running => simp [Part.takeWrite, hmode, windowWord_pointEntry]
  | off | xrst | bypass | loading | unconfigured => simp [hmode, Mode.serving] at hm

/-! ### Settling without effect -/

/-- What the status word shows (R23). -/
theorem Part.statusWord_congr {p q : Part} (hmode : q.mode = p.mode) (htrouble : q.notice.trouble = p.notice.trouble)
    (hreload : q.mirrors.reload.isSome = p.mirrors.reload.isSome) (hmains : q.time.mainsActive = p.time.mainsActive)
    (howed : q.points.owedExist = p.points.owedExist) (hunrouted : q.queue.unroutedExist = p.queue.unroutedExist) :
    q.statusWord = p.statusWord := by
  simp only [Part.statusWord, hmode, htrouble, hreload, hmains, howed, hunrouted]

/-- A step that changes none of the conditions and nothing the status word shows settles without effect. -/
theorem Part.settle_of_keeps {bs : List Block} {p q : Part} (h : p.keepsBut bs q) (hcur : p.troubleCurrent)
    (hreload : q.mirrors.reload.isSome = p.mirrors.reload.isSome) (hlatch : q.points.latch = p.points.latch)
    (howed : q.points.owedExist = p.points.owedExist) (hm : .mode ∉ bs := by decide) (hq : .queue ∉ bs := by decide)
    (hl : .lines ∉ bs := by decide) (hh : .heartbeat ∉ bs := by decide) (hn : .notice ∉ bs := by decide)
    (ht : .time ∉ bs := by decide) : Part.settle p q = q := by
  have hdue : q.troubleDue = p.troubleDue :=
    Part.troubleDue_congr (h.mode hm) (by rw [h.queue hq]) (fun n => by rw [Part.line, Part.line, h.lines hl])
      (by rw [h.heartbeat hh]) hlatch
  refine Part.settle_of_current ?_ (Part.statusWord_congr (h.mode hm) (by rw [h.notice hn]) hreload (by rw [h.time ht]) howed
    (by rw [h.queue hq]))
  rw [hdue, h.notice hn]
  exact hcur

/-- A step that changes mirrors alone, and no RELOAD, settles without effect. -/
theorem Part.settle_of_mirrors {p q : Part} (h : p.keepsBut [.mirrors] q) (hcur : p.troubleCurrent)
    (hreload : q.mirrors.reload = p.mirrors.reload) : Part.settle p q = q :=
  Part.settle_of_keeps h hcur (by rw [hreload]) (by rw [h.points]) (by rw [h.points])

theorem Part.settle_refl {p : Part} (hcur : p.troubleCurrent) : Part.settle p p = p :=
  Part.settle_of_mirrors (Part.keepsBut_refl _ p) hcur rfl

/-! ### A word taken into its mirror -/

theorem Part.keepsMirrorsBut_setMirror {p : Part} (h : p.mirrors.words.wf = true) (off : Nat) (w : Word) :
    p.keepsMirrorsBut [off] (p.setMirror off w) := by
  refine ⟨rfl, fun a ha => ?_⟩
  rw [Part.mirror_setMirror h, if_neg (by simpa using ha)]

theorem Part.mirror_setMirror_same {p : Part} (h : p.mirrors.words.wf = true) {off : Nat} (w : Word)
    (hmask : mirrorMask off = 0xFFFF) : (p.setMirror off w).mirror off = w := by
  rw [Part.mirror_setMirror h, if_pos rfl, hmask]
  exact BitVec.and_allOnes

theorem mirrorMask_pointEntry (i : Fin 256) : mirrorMask (pointOffset i.val 0) = 0xFFFF := by
  simp [mirrorMask, windowWord_pointEntry]

/-! ### Cycles that are held -/

theorem State.begin_full {s : State} {c : Cycle} (hm : s.part.mode.live = true) (hfull : s.part.bus.full = true) :
    s.begin c = (((s.setHold none).undriven c).setHold
      (some { cycle := c, before := s.part.bus.tickets, stalled := none })) := by
  have hbus : ∀ c, ((s.setHold none).undriven c).part = (s.setHold none).part := fun c => by cases c <;> rfl
  have hfull' : ((s.setHold none).undriven c).part.bus.full = true := by rw [hbus]; exact hfull
  have htickets : ((s.setHold none).undriven c).part.bus.tickets = s.part.bus.tickets := by rw [hbus]; rfl
  cases hmode : s.part.mode with
  | off | xrst | bypass => simp [hmode, Mode.live] at hm
  | loading | unconfigured | stopped | running => simp only [State.begin, hmode, hfull', if_true, htickets]

/-- A write that begins while the bus is free and would capture into a full FIFO under STALL is held (R16). -/
theorem State.begin_stalls {s : State} {a : Addr} {w : Word} (hm : s.part.mode.live = true) (hb : s.busFree)
    (hs : s.part.stalls (.write a w) = true) :
    s.begin (.write a w) = State.setHold
      (some { cycle := .write a w, before := 0, stalled := some s.part.bus.tickets })
      { s with part := { s.part with bus := { s.part.bus with tickets := s.part.bus.tickets + 1 } } } := by
  obtain ⟨hhold, hfull⟩ := hb
  have hnone := State.setHold_none hhold
  cases hmode : s.part.mode with
  | off | xrst | bypass => simp [hmode, Mode.live] at hm
  | loading | unconfigured | stopped | running =>
    simp [State.begin, hmode, hnone, State.undriven, hfull, State.attempt, hs]

theorem State.setHold_keeps (h : Option Hold) (s : State) : s.part.keepsBut [.bus] (s.setHold h).part := by
  intro b hb
  cases b <;> simp [Block.same, State.setHold] at hb ⊢

/-! ### The statements -/

/-- A cycle begins in a part that passes it unchanged (R18, R19). -/
theorem State.begin_passes {s : State} (hm : s.part.mode = .xrst ∨ s.part.mode = .bypass) (c : Cycle) :
    s.begin c = s.pass c := by
  rcases hm with hm | hm <;> simp [State.begin, hm]

/-- Settles O13: under XRST and in BYPASS a cycle is passed, and one outside the window has no offset to be taken at. -/
theorem panelCyclesPassThrough : Obligations.PanelCyclesPassThrough := by
  refine ⟨fun a w s hmem hcase => ?_, fun a w s hhold => ?_⟩
  · have hwrite : ∀ t, t = { s with mem := s.mem.write a.toNat w } →
        t.mem.read a.toNat = w ∧ s.writesOnly a.toNat t ∧ t.upData = s.upData ∧ t.pending = s.pending ∧ t.part = s.part := by
      rintro t rfl
      exact ⟨Memory.read_write hmem _ _, fun _ hb => Memory.read_write_ne hmem hb _, rfl, rfl, rfl⟩
    have hpass : s.part.mode = .xrst ∨ s.part.mode = .bypass ∨ _ := hcase
    rcases hpass with hm | hm | ⟨hm, hb, hoff⟩
    · exact ⟨⟨_, rfl, hwrite _ (State.begin_passes (.inl hm) _)⟩, ⟨_, rfl, State.begin_passes (.inl hm) _⟩⟩
    · exact ⟨⟨_, rfl, hwrite _ (State.begin_passes (.inr hm) _)⟩, ⟨_, rfl, State.begin_passes (.inr hm) _⟩⟩
    · refine ⟨⟨_, rfl, hwrite _ ?_⟩, ⟨_, rfl, ?_⟩⟩
      · rw [State.begin_write hm hb (by simp [Part.stalls, hoff])]
        simp only [State.writeWord, hoff]
      · rw [State.begin_read hm hb]
        simp only [State.shown, hoff]
  · have hnone := State.setHold_none hhold
    refine ⟨⟨_, rfl, hnone⟩, ⟨_, rfl, hnone⟩, ⟨_, rfl, ?_⟩, ⟨_, rfl, ?_⟩⟩ <;> rw [hnone]

/-- Settles O18: a full queue holds every cycle, a full FIFO with STALL the writes that would capture. -/
theorem fullQueuesHoldThePanel : Obligations.FullQueuesHoldThePanel := by
  refine ⟨fun a w s hm hfull => ⟨⟨_, rfl, ?_⟩, ⟨_, rfl, ?_⟩⟩, fun i w s hm hb hstall hbefore hafter hcode hover hfifo => ?_⟩
  · rw [State.begin_full hm hfull]
    exact ⟨rfl, rfl, rfl, rfl, rfl, Part.keepsBut_trans (s.setHold_keeps none) (State.setHold_keeps _ _)⟩
  · rw [State.begin_full hm hfull]
    exact ⟨rfl, rfl, rfl, rfl, Part.keepsBut_trans (s.setHold_keeps none) (State.setHold_keeps _ _), rfl⟩
  · have hstalls : s.part.stalls (.write (s.address (pointOffset i.val 0)) w) = true := by
      simp [Part.stalls, State.windowOffset_address s (pointOffset_lt i (w := 0) (by decide)), hstall, hm,
        Part.captures_point hbefore hafter hcode hover, hfifo]
    refine ⟨_, rfl, ?_⟩
    rw [State.panelWriteAt, State.begin_stalls (Mode.live_of_serving hm) hb hstalls]
    refine ⟨rfl, rfl, rfl, rfl, fun b hb => ?_⟩
    cases b <;> simp [Block.same, State.setHold] at hb ⊢

/-! ### A capture -/

/-- A capture that finds a place, OVERRUN not in force, is added to the FIFO (R44). -/
theorem Part.capture_place {p : Part} (hover : p.points.overrun = false) (hfifo : p.points.fifo.length < Config.fifoPlaces)
    (i : PointNo) (code : BitVec 6) : p.capture i code =
      { p with points := { p.points with fifo := p.points.fifo ++ [{ point := i, code }] } } := by
  simp [Part.capture, hover, hfifo]

/-- A write of w0 of an enabled point that keeps it enabled with another state code captures (R43). -/
theorem Part.takeServing_capture {p : Part} {i : Fin 256} {w : Word}
    (hbefore : enabledField (p.mirror (pointOffset i.val 0)) = true) (hafter : enabledField w = true)
    (hcode : stateCodeField (p.mirror (pointOffset i.val 0)) ≠ stateCodeField w) :
    p.takeServing (pointOffset i.val 0) w =
      (p.setMirror (pointOffset i.val 0) w).capture (i.castLE (by omega)) (stateCodeField w) := by
  simp [Part.takeServing, windowWord_pointEntry, Part.takePoint, hbefore, hafter, hcode]

theorem Part.actsOn_pointEntry (p : Part) (i : Fin 256) : p.actsOn (pointOffset i.val 0) = false :=
  Part.actsOn_of_not_owned (by simp [partOwned, windowWord_pointEntry])

/-- A window write that is made stores the word and hands it on (R4). -/
theorem State.writeWord_passed {s : State} {off : Nat} {w : Word} (hoff : off < 4096) (hm : s.part.mode.live = true)
    (ha : s.part.actsOn off = false) : s.writeWord (s.address off) w =
      { s with
        mem := s.mem.write (s.wordAddress off) w
        part := Part.settle s.part (s.part.takeWrite off w) } := by
  unfold State.writeWord
  rw [State.windowOffset_address s hoff, State.toNat_address s hoff]
  simp only [Part.work_of_live hm, Part.clearByWrite_of_not_acting ha, Part.downstream_of_not_acting ha, State.wordAddress]

/-- The part after a write of w0 of a point that captures into a free place (R43, R44). -/
def Part.captured (i : Fin 256) (w : Word) (p : Part) : Part :=
  { p.setMirror (pointOffset i.val 0) w with points := { p.points with
      fifo := p.points.fifo ++ [{ point := i.castLE (by omega), code := stateCodeField w }] } }

theorem Part.captured_keeps (i : Fin 256) (w : Word) (p : Part) : p.keepsBut [.mirrors, .points] (p.captured i w) := by
  intro b hb
  cases b <;> simp [Block.same, Part.captured] at hb ⊢

theorem Part.settle_takeWrite_capture {p : Part} {i : Fin 256} {w : Word} (hm : p.mode.serving = true)
    (hcur : p.troubleCurrent) (hwait : p.mirrors.waitsSince = none) (hover : p.points.overrun = false)
    (hfifo : p.points.fifo.length < Config.fifoPlaces)
    (hbefore : enabledField (p.mirror (pointOffset i.val 0)) = true) (hafter : enabledField w = true)
    (hcode : stateCodeField (p.mirror (pointOffset i.val 0)) ≠ stateCodeField w) :
    Part.settle p (p.takeWrite (pointOffset i.val 0) w) = p.captured i w := by
  have htaken : p.takeServing (pointOffset i.val 0) w = p.captured i w := by
    rw [Part.takeServing_capture hbefore hafter hcode]
    exact Part.capture_place (p := p.setMirror (pointOffset i.val 0) w) hover hfifo _ _
  rw [Part.takeWrite_point hm, htaken, Part.reloadResume_of (p := p.captured i w) hwait]
  exact Part.settle_of_keeps (p.captured_keeps i w) hcur rfl rfl rfl

/-- Settles O19: the hold ends in `attempt`, or in `make` where it waited for a place in the FIFO. -/
theorem heldCycleIsMadeOrAbandoned : Obligations.HeldCycleIsMadeOrAbandoned := by
  refine ⟨fun h s hm hhold hstalled hmem => ⟨fun hentered => ⟨_, rfl, ?_⟩, fun hentered a hread => ⟨_, rfl, ?_⟩,
    fun hentered a w hwrite hoff => ⟨_, rfl, ?_⟩⟩, fun h k i w s hm hhold hstalled hcycle => ⟨fun hfull => ⟨_, rfl, ?_⟩,
    fun hplace hwait hmem hwords hcur hover hbefore hafter hcode => ⟨_, rfl, ?_⟩⟩, fun s => ⟨_, rfl, rfl, rfl⟩⟩
  · simp [State.endHold, hhold, hstalled, hentered]
  · have hmade : s.endHold = (s.setHold none).make (.read a) := by
      simp [State.endHold, hhold, hstalled, hentered, State.attempt, hread, Part.stalls]
    rw [hmade]
    exact ⟨rfl, rfl, rfl, s.setHold_keeps none, rfl, rfl⟩
  · have hstalls : (s.setHold none).part.stalls (.write a w) = false := by
      have hstraps : (s.setHold none).part.straps = s.part.straps := rfl
      simp [Part.stalls, hstraps, hoff]
    have hmade : s.endHold = { s.setHold none with mem := s.mem.write a.toNat w } := by
      simp only [State.endHold, hhold, hstalled, hentered, if_true, State.attempt, hwrite, hstalls, Bool.false_eq_true,
        if_false, State.make, State.writeWord]
      rw [show (s.setHold none).part.straps = s.part.straps from rfl, hoff]
      rfl
    rw [hmade]
    exact ⟨rfl, Memory.read_write hmem _ _, fun _ hb => Memory.read_write_ne hmem hb _, rfl, rfl, s.setHold_keeps none, rfl⟩
  · have hplace : s.part.placeFor (some k) s.part.mirrors.waitsSince = false := by
      simp [Part.placeFor, Nat.not_lt.mpr hfull]
    simp [State.endHold, hhold, hstalled, hplace]
  · have hoff := pointOffset_lt i (w := 0) (by decide)
    have hmade : s.endHold = (s.setHold none).writeWord (s.address (pointOffset i.val 0)) w := by
      have hfree : s.part.placeFor (some k) s.part.mirrors.waitsSince = true := by simp [Part.placeFor, hplace, hwait]
      simp only [State.endHold, hhold, hstalled, hfree, if_true, State.make, hcycle]
    have hpart : Part.settle (s.setHold none).part ((s.setHold none).part.takeWrite (pointOffset i.val 0) w) =
        (s.setHold none).part.captured i w :=
      Part.settle_takeWrite_capture hm hcur hwait hover hplace hbefore hafter hcode
    have hwritten := State.writeWord_passed (s := s.setHold none) (w := w) hoff (Mode.live_of_serving hm)
      (Part.actsOn_pointEntry _ i)
    rw [hpart] at hwritten
    rw [hmade.trans hwritten]
    refine ⟨rfl, State.stores_write hmem _ w _, ?_, ?_, rfl, rfl⟩
    · exact Part.mirror_setMirror_same hwords w (mirrorMask_pointEntry i)
    · exact Part.keepsBut_trans (Part.keepsBut_mono (s.setHold_keeps none) (by simp))
        (Part.keepsBut_mono (Part.captured_keeps i w _) (by simp))

end Sys2Proof.Machine
end

section
/-! PROOFS. Part-owned words: what a panel read shows of them, what a panel write leaves of them (R4 to R10). -/

namespace Sys2Proof.Machine

/-! ### Words the part acts on -/

theorem Part.actsOn_of_config {p : Part} (hm : p.mode.live = true) {n : Fin 32} (hn : n.val ∈ ownedConfig)
    (hh : n.val = 0x15 → p.notice.heads.isSome = true) : p.actsOn n.val = true := by
  have howned : partOwned n.val = true := by simpa [partOwned, windowWord_config] using hn
  have hheads : ¬ n.val = 0x15 ∨ p.notice.heads.isSome = true := by
    by_cases h : n.val = 0x15
    · exact .inr (hh h)
    · exact .inl h
  have hlt := n.isLt
  cases hmode : p.mode with
  | off | xrst | bypass => simp [hmode, Mode.live] at hm
  | loading | unconfigured | stopped | running => simp [Part.actsOn, howned, hheads, hmode, hlt]

/-- A part-owned word of a table is acted on in STOPPED and RUNNING, and in LOADING once LOAD has read it (R5). -/
theorem Part.actsOn_of_table {p : Part} {off : Nat} (howned : partOwned off = true) (hoff : off ≠ 0x15)
    (hm : p.mode.serving = true ∨ (p.mode = .loading ∧ p.loadHasRead off = true)) : p.actsOn off = true := by
  rcases hm with hm | ⟨hm, hread⟩
  · cases hmode : p.mode with
    | stopped | running => simp [Part.actsOn, howned, hoff, hmode]
    | off | xrst | bypass | loading | unconfigured => simp [hmode, Mode.serving] at hm
  · simp [Part.actsOn, howned, hoff, hm, hread]

theorem partOwned_point (i : Fin 256) {w : Fin 3} (hw : 1 ≤ w.val) : partOwned (pointOffset i.val w.val) = true := by
  simp [partOwned, windowWord_point, hw]

theorem partOwned_virtual (v : Fin 8) {w : Fin 4} (hw : 2 ≤ w.val) : partOwned (virtualOffset v.val w.val) = true := by
  simp [partOwned, windowWord_virtual, hw]

theorem partOwned_route (r : RouteNo) {w : Fin 4} (hw : 2 ≤ w.val) : partOwned (routeOffset r.val w.val) = true := by
  simp [partOwned, windowWord_route, hw]

theorem pointOffset_ne (i w : Nat) : pointOffset i w ≠ 0x15 := by unfold pointOffset; omega

theorem virtualOffset_ne (v w : Nat) : virtualOffset v w ≠ 0x15 := by unfold virtualOffset; omega

theorem routeOffset_ne (r w : Nat) : routeOffset r w ≠ 0x15 := by unfold routeOffset; omega

/-! ### What a panel read shows -/

theorem Part.overlay_of_not_acting {p : Part} {off : Nat} (h : p.actsOn off = false) (w : Word) : p.overlay off w = w := by
  simp [Part.overlay, h]

theorem Part.overlay_log (p : Part) (k : Fin 32) (i : Fin 4) (w : Word) : p.overlay (logOffset k.val i.val) w = w := by
  by_cases h : p.actsOn (logOffset k.val i.val) = true
  · simp [Part.overlay, windowWord_log]
  · exact Part.overlay_of_not_acting (Bool.eq_false_iff.mpr h) w

/-- A part-owned word of the configuration block is shown as its owner holds it (R6, R7, R9, R10). -/
theorem Part.overlay_config {p : Part} (hm : p.mode.live = true) {n : Fin 32} (hn : n.val ∈ ownedConfig)
    (hh : n.val = 0x15 → p.notice.heads.isSome = true) (w : Word) : p.overlay n.val w = p.ownedWord n.val := by
  simp [Part.overlay, Part.actsOn_of_config hm hn hh, windowWord_config]

theorem Part.overlay_point {p : Part} (i : Fin 256) {k : Fin 3} (h : p.actsOn (pointOffset i.val k.val) = true) (w : Word) :
    p.overlay (pointOffset i.val k.val) w = p.ownedWord (pointOffset i.val k.val) := by
  simp [Part.overlay, h, windowWord_point]

theorem Part.overlay_virtual {p : Part} (v : Fin 8) {k : Fin 4} (h : p.actsOn (virtualOffset v.val k.val) = true) (w : Word) :
    p.overlay (virtualOffset v.val k.val) w = p.ownedWord (virtualOffset v.val k.val) := by
  simp [Part.overlay, h, windowWord_virtual]

theorem pack_zero (x : Nat) : pack [(0, x)] = BitVec.ofNat 16 x := by simp [pack]

/-- The overlay of w2 of a route shows the budget with memory's other bits (R8). -/
theorem Part.overlay_budget {p : Part} {r : RouteNo} (h : p.actsOn (routeOffset r.val 2) = true) (w : Word) :
    p.overlay (routeOffset r.val 2) w = (w &&& 0xFC00) ||| BitVec.ofNat 16 (p.route r).budget := by
  have hword : windowWord (routeOffset r.val 2) = .route r 2 := windowWord_route r 2
  simp [Part.overlay, h, hword, pack_zero]

theorem Part.overlay_routeState {p : Part} {r : RouteNo} (h : p.actsOn (routeOffset r.val 3) = true) (w : Word) :
    p.overlay (routeOffset r.val 3) w = (p.route r).w3 := by
  have hword : windowWord (routeOffset r.val 3) = .route r 3 := windowWord_route r 3
  simp [Part.overlay, h, hword, Part.ownedWord]

theorem Part.ownedWord_entryW1 (p : Part) {i : PointNo} (hi : i.val < 256) :
    p.ownedWord (pointOffset i.val 1) = (p.shadow i).entryW1 := by
  have hword : windowWord (pointOffset i.val 1) = .point ⟨i.val, hi⟩ 1 := windowWord_point ⟨i.val, hi⟩ 1
  simp [Part.ownedWord, hword, Part.shadow]

theorem Part.ownedWord_entryW2 (p : Part) {i : PointNo} (hi : i.val < 256) :
    p.ownedWord (pointOffset i.val 2) = (p.shadow i).entryW2 := by
  have hword : windowWord (pointOffset i.val 2) = .point ⟨i.val, hi⟩ 2 := windowWord_point ⟨i.val, hi⟩ 2
  simp [Part.ownedWord, hword, Part.shadow]

/-- The virtual record of a point 256 to 263. -/
theorem windowWord_virtualPoint {i : PointNo} (w : Fin 4) : windowWord (virtualOffset (i.val - 256) w.val) =
    .virtual ⟨i.val - 256, by omega⟩ w := windowWord_virtual ⟨i.val - 256, by omega⟩ w

theorem Part.ownedWord_virtualW2 (p : Part) {i : PointNo} (hi : 256 ≤ i.val) :
    p.ownedWord (virtualOffset (i.val - 256) 2) = (p.shadow i).virtualW2 := by
  have hword : windowWord (virtualOffset (i.val - 256) 2) = _ := windowWord_virtualPoint 2
  have hi' : 256 + (i.val - 256) = i.val := by omega
  simp only [Part.ownedWord, hword, Part.shadow, Fin.getElem_fin, hi']
  rfl

theorem Part.ownedWord_virtualW3 (p : Part) {i : PointNo} (hi : 256 ≤ i.val) :
    p.ownedWord (virtualOffset (i.val - 256) 3) = (p.shadow i).virtualW3 := by
  have hword : windowWord (virtualOffset (i.val - 256) 3) = _ := windowWord_virtualPoint 3
  have hi' : 256 + (i.val - 256) = i.val := by omega
  simp only [Part.ownedWord, hword, Part.shadow, Fin.getElem_fin, hi']
  rfl

/-- Settles O14: a read shows the overlay of memory's word. -/
theorem panelReadShowsOwnersValue : Obligations.PanelReadShowsOwnersValue := by
  intro off s hoff hm hb
  refine ⟨{ s with upData := some (s.part.overlay off (s.mem.read (s.wordAddress off))) }, ?_, rfl, rfl, rfl, ?_⟩
  · refine congrArg Host.Outcome.next ((State.begin_read hm hb).trans ?_)
    rw [State.shown, State.windowOffset_address s hoff, State.toNat_address s hoff]
    rfl
  generalize s.mem.read (s.wordAddress off) = w
  have hconfig : ∀ n : Fin 32, n.val ∈ ownedConfig → (n.val = 0x15 → s.part.notice.heads.isSome = true) → off = n.val →
      some (s.part.overlay off w) = some (s.part.ownedWord n.val) := by
    rintro n hn hh rfl
    rw [Part.overlay_config hm hn hh]
  refine ⟨fun ha => congrArg some (Part.overlay_of_not_acting ha w),
    fun ho => congrArg some (Part.overlay_of_not_acting (Part.actsOn_of_not_owned ho) w), fun hlo hhi => ?_,
    hconfig 0x12 (by decide) (fun h => absurd h (by decide)), hconfig 0x13 (by decide) (fun h => absurd h (by decide)), hconfig 0x17 (by decide) (fun h => absurd h (by decide)),
    hconfig 0x18 (by decide) (fun h => absurd h (by decide)), hconfig 0x19 (by decide) (fun h => absurd h (by decide)), hconfig 0x1A (by decide) (fun h => absurd h (by decide)),
    fun h => ?_, fun h => ?_, fun h hheads h15 => ?_, fun hread => ⟨fun i hi => ⟨?_, ?_⟩, fun i hi => ⟨?_, ?_⟩, fun r => ⟨?_, ?_⟩⟩⟩
  · have hlog : off = logOffset ((off - 0x200) / 4) (off % 4) := by
      unfold logOffset
      omega
    rw [hlog]
    exact congrArg some (s.part.overlay_log ⟨(off - 0x200) / 4, by omega⟩ ⟨off % 4, by omega⟩ w)
  · rw [← pack_zero]
    exact hconfig 0x1B (by decide) (fun h => absurd h (by decide)) h
  · rw [← pack_zero]
    exact hconfig 0x1C (by decide) (fun h => absurd h (by decide)) h
  · rw [hconfig 0x15 (by decide) (fun _ => by rw [hheads]; rfl) h15, ← pack_zero, Part.ownedWord,
      show windowWord (0x15 : Fin 32).val = .config 0x15 from windowWord_config 0x15]
    simp only [hheads]
    rfl
  · rintro rfl
    exact congrArg some ((s.part.overlay_point ⟨i.val, hi⟩ (k := 1) (Part.actsOn_of_table
      (partOwned_point ⟨i.val, hi⟩ (by decide)) (pointOffset_ne _ _) hread) w).trans (s.part.ownedWord_entryW1 hi))
  · rintro rfl
    exact congrArg some ((s.part.overlay_point ⟨i.val, hi⟩ (k := 2) (Part.actsOn_of_table
      (partOwned_point ⟨i.val, hi⟩ (by decide)) (pointOffset_ne _ _) hread) w).trans (s.part.ownedWord_entryW2 hi))
  · rintro rfl
    exact congrArg some ((s.part.overlay_virtual ⟨i.val - 256, by omega⟩ (k := 2) (Part.actsOn_of_table
      (partOwned_virtual ⟨i.val - 256, by omega⟩ (by decide)) (virtualOffset_ne _ _) hread) w).trans
      (s.part.ownedWord_virtualW2 hi))
  · rintro rfl
    exact congrArg some ((s.part.overlay_virtual ⟨i.val - 256, by omega⟩ (k := 3) (Part.actsOn_of_table
      (partOwned_virtual ⟨i.val - 256, by omega⟩ (by decide)) (virtualOffset_ne _ _) hread) w).trans
      (s.part.ownedWord_virtualW3 hi))
  · rintro rfl
    exact congrArg some (Part.overlay_budget
      (Part.actsOn_of_table (partOwned_route r (w := 2) (by decide)) (routeOffset_ne _ _) hread) w)
  · rintro rfl
    exact congrArg some (Part.overlay_routeState
      (Part.actsOn_of_table (partOwned_route r (w := 3) (by decide)) (routeOffset_ne _ _) hread) w)

/-! ### A panel write of a word of class PART -/

/-- A word all of whose bits the part holds but the cause word: no panel write changes it, and its mirror keeps nothing (R6,
R9). -/
def WindowWord.isPart : WindowWord → Prop
  | .config n => n.val ∈ ownedConfig ∧ n.val ≠ 0x13
  | .virtual _ w => 2 ≤ w.val
  | .point _ w => 1 ≤ w.val
  | .group _ | .route _ _ | .directory _ _ | .log _ _ | .translation _ _ | .ordinary => False

theorem mirrorMask_of_isPart {off : Nat} (h : (windowWord off).isPart) : mirrorMask off = 0 := by
  unfold mirrorMask
  split
  · rename_i n hword
    rw [hword] at h
    exact if_pos h.1
  · rfl
  · rename_i v w hword
    rw [hword] at h
    exact if_neg (by simp only [WindowWord.isPart] at h; omega)
  · rename_i hword
    rw [hword] at h
    exact h.elim
  · rename_i hword
    rw [hword] at h
    exact h.elim
  · rfl
  · rename_i hword
    rw [hword] at h
    exact h.elim
  · rename_i i w hword
    rw [hword] at h
    exact if_neg (by simp only [WindowWord.isPart] at h; omega)
  · rfl

theorem Part.clearByWrite_of_isPart {off : Nat} (h : (windowWord off).isPart) (w : Word) (p : Part) :
    p.clearByWrite off w = p := by
  unfold Part.clearByWrite
  split
  · split
    · rename_i n hword
      rw [hword] at h
      exact if_neg h.2
    · rename_i hword
      rw [hword] at h
      exact h.elim
    all_goals rfl
  · rfl

theorem Part.downstream_of_isPart {off : Nat} (h : (windowWord off).isPart) {p : Part} (ha : p.actsOn off = true) (w : Word) :
    p.downstream off w = p.ownedWord off := by
  unfold Part.downstream
  rw [if_pos ha]
  split
  · rename_i hword
    rw [hword] at h
    exact h.elim
  · rename_i hword
    rw [hword] at h
    exact h.elim
  all_goals rfl

theorem Part.takeServing_of_isPart {off : Nat} (h : (windowWord off).isPart) (w : Word) (p : Part) :
    p.takeServing off w = p.setMirror off w := by
  unfold Part.takeServing
  simp only
  split
  · rename_i n hword
    rw [hword] at h
    obtain ⟨hn, -⟩ := h
    split <;> simp_all [ownedConfig]
  all_goals (rename_i hword; rw [hword] at h)
  · exact h.elim
  · exact if_neg (by simp only [WindowWord.isPart] at h; omega)
  · exact h.elim
  · exact h.elim
  · exact if_neg (by simp only [WindowWord.isPart] at h; omega)

theorem Part.takeLoading_of_isPart {p : Part} {off : Nat} (h : (windowWord off).isPart) (hcommand : off ≠ 0x010)
    (henable : off ≠ 0x014) (w : Word) :
    p.takeLoading off w = if p.loadHasRead off then p.setMirror off w else p := by
  unfold Part.takeLoading
  rw [if_neg hcommand, if_neg henable]
  split
  · simp only
    split
    · rename_i hword
      rw [hword] at h
      exact h.elim
    · rename_i hword
      rw [hword] at h
      exact h.elim
    all_goals rfl
  · rfl

/-- A part that works takes nothing of such a word, but that its mirror, where it is taken, is set to what it keeps. -/
theorem Part.takeWrite_of_isPart {p : Part} (hm : p.mode.live = true) {off : Nat} (h : (windowWord off).isPart) (w : Word) :
    p.takeWrite off w =
      if p.mode.serving = true ∨ (p.mode = .loading ∧ p.loadHasRead off = true) then p.setMirror off w else p := by
  have hcommand : off ≠ 0x010 := by
    rintro rfl
    rw [windowWord_command] at h
    simp [WindowWord.isPart, ownedConfig] at h
  have henable : off ≠ 0x014 := by
    rintro rfl
    rw [windowWord_causeEnable] at h
    simp [WindowWord.isPart, ownedConfig] at h
  have hargument : off ≠ 0x011 := by
    rintro rfl
    rw [show windowWord 0x011 = .config 0x11 by decide] at h
    simp [WindowWord.isPart, ownedConfig] at h
  have hpoint : ∀ i, windowWord off ≠ .point i 0 := fun i hword => by
    rw [hword] at h
    simp [WindowWord.isPart] at h
  by_cases hs : p.mode.serving = true
  · rw [Part.takeWrite_serving hs hpoint, if_pos (.inl hs), Part.takeServing_of_isPart h]
  · cases hmode : p.mode with
    | off | xrst | bypass => simp [hmode, Mode.live] at hm
    | stopped | running => simp [hmode, Mode.serving] at hs
    | loading => simp [Part.takeWrite, hmode, Mode.serving, Part.takeLoading_of_isPart h hcommand henable]
    | unconfigured => simp [Part.takeWrite, hmode, Mode.serving, Part.takeUnconfigured, hcommand, hargument, henable]

/-- The words of class PART that O15 speaks of, where the part acts on them (R5). -/
theorem Part.isPart_of_class {p : Part} (hm : p.mode.live = true) {off : Nat}
    (h : off ∈ [0x012, 0x017, 0x018, 0x019, 0x01A, 0x01B, 0x01C] ∨ (off = 0x015 ∧ p.notice.heads.isSome = true) ∨
      (p.mode.serving = true ∧ ((∃ i : Fin 256, off = pointOffset i.val 1 ∨ off = pointOffset i.val 2) ∨
        ∃ v : Fin 8, off = virtualOffset v.val 2 ∨ off = virtualOffset v.val 3))) :
    off < 4096 ∧ (windowWord off).isPart ∧ p.actsOn off = true := by
  have hconfig : ∀ n : Fin 32, n.val ∈ ownedConfig → n.val ≠ 0x13 → (n.val = 0x15 → p.notice.heads.isSome = true) →
      n.val < 4096 ∧ (windowWord n.val).isPart ∧ p.actsOn n.val = true := fun n hn h13 hh =>
    ⟨by omega, by rw [windowWord_config]; exact ⟨hn, h13⟩, Part.actsOn_of_config hm hn hh⟩
  rcases h with h | ⟨rfl, hheads⟩ | ⟨hs, ⟨i, hi⟩ | ⟨v, hv⟩⟩
  · simp only [List.mem_cons, List.not_mem_nil, or_false] at h
    rcases h with rfl | rfl | rfl | rfl | rfl | rfl | rfl
    · exact hconfig 0x12 (by decide) (by decide) fun h => absurd h (by decide)
    · exact hconfig 0x17 (by decide) (by decide) fun h => absurd h (by decide)
    · exact hconfig 0x18 (by decide) (by decide) fun h => absurd h (by decide)
    · exact hconfig 0x19 (by decide) (by decide) fun h => absurd h (by decide)
    · exact hconfig 0x1A (by decide) (by decide) fun h => absurd h (by decide)
    · exact hconfig 0x1B (by decide) (by decide) fun h => absurd h (by decide)
    · exact hconfig 0x1C (by decide) (by decide) fun h => absurd h (by decide)
  · exact hconfig 0x15 (by decide) (by decide) fun _ => hheads
  · have hpoint : ∀ k : Fin 3, 1 ≤ k.val → pointOffset i.val k.val < 4096 ∧
        (windowWord (pointOffset i.val k.val)).isPart ∧ p.actsOn (pointOffset i.val k.val) = true := fun k hk =>
      ⟨pointOffset_lt i (by omega), by rw [windowWord_point]; exact hk,
        Part.actsOn_of_table (partOwned_point i hk) (pointOffset_ne _ _) (.inl hs)⟩
    rcases hi with rfl | rfl
    · exact hpoint 1 (by decide)
    · exact hpoint 2 (by decide)
  · have hvirtual : ∀ k : Fin 4, 2 ≤ k.val → virtualOffset v.val k.val < 4096 ∧
        (windowWord (virtualOffset v.val k.val)).isPart ∧ p.actsOn (virtualOffset v.val k.val) = true := fun k hk =>
      ⟨by have := v.isLt; have := k.isLt; unfold virtualOffset; omega, by rw [windowWord_virtual]; exact hk,
        Part.actsOn_of_table (partOwned_virtual v hk) (virtualOffset_ne _ _) (.inl hs)⟩
    rcases hv with rfl | rfl
    · exact hvirtual 2 (by decide)
    · exact hvirtual 3 (by decide)

/-- LOAD reads none of the words of class PART of the configuration block but 015H. -/
theorem Part.loadHasRead_ownedConfig (p : Part) {off : Nat} (h : off ∈ [0x012, 0x017, 0x018, 0x019, 0x01A, 0x01B, 0x01C]) :
    p.loadHasRead off = false := by
  have hrank : loadRank off = none := by
    simp only [List.mem_cons, List.not_mem_nil, or_false] at h
    rcases h with rfl | rfl | rfl | rfl | rfl | rfl | rfl <;> decide
  unfold Part.loadHasRead
  rw [hrank]
  split
  · rename_i heq
    exact absurd heq nofun
  · rfl

/-- Settles O15: the downstream data is the owners' word, and the mirrors take nothing of it. -/
theorem panelWriteToPartWordIsMasked : Obligations.PanelWriteToPartWordIsMasked := by
  intro off w s hm hw hcur hclass
  obtain ⟨hmem, hb, hwords⟩ := hw
  obtain ⟨hoff, hpart, hacts⟩ := Part.isPart_of_class hm hclass
  have hcaptures : s.part.captures off w = false := Part.captures_of_not_point (fun i hword => by
    rw [hword] at hpart
    simp [WindowWord.isPart] at hpart) w
  have hmirror : s.part.keepsBut [.mirrors] (s.part.takeWrite off w) ∧ s.part.keepsMirrorsBut [off] (s.part.takeWrite off w) := by
    rw [Part.takeWrite_of_isPart hm hpart]
    split
    · exact ⟨Part.setMirror_keeps _ _ _, Part.keepsMirrorsBut_setMirror hwords _ _⟩
    · exact ⟨Part.keepsBut_refl _ _, rfl, fun _ _ => rfl⟩
  obtain ⟨hkeeps, hmirrors⟩ := hmirror
  have hsettle : Part.settle s.part (s.part.takeWrite off w) = s.part.takeWrite off w :=
    Part.settle_of_mirrors hkeeps hcur (by rw [hmirrors.1])
  have hwritten : s.panelWriteAt off w = { s with
      mem := s.mem.write (s.wordAddress off) (s.part.ownedWord off), part := s.part.takeWrite off w } := by
    rw [State.panelWriteAt_eq hoff hm hb (Part.stalls_eq_false rfl hoff hcaptures), Part.clearByWrite_of_isPart hpart,
      Part.downstream_of_isPart hpart hacts, hsettle]
    rfl
  refine ⟨_, congrArg Host.Outcome.next hwritten, State.stores_write hmem _ _ _, hkeeps, hmirrors, fun h15 => ?_⟩
  simp only [Part.takeWrite_of_isPart hm hpart]
  by_cases hs : s.part.mode.serving = true
  · rw [if_pos (.inl hs), if_pos hs, Part.mirror_setMirror hwords, if_pos rfl, mirrorMask_of_isPart hpart]
    exact BitVec.and_zero
  · have hunread : s.part.loadHasRead off = false := by
      rcases hclass with h | ⟨h, -⟩ | ⟨h, -⟩
      · exact s.part.loadHasRead_ownedConfig h
      · exact absurd h h15
      · exact absurd h hs
    rw [if_neg hs, if_neg]
    rintro (h | ⟨-, h⟩)
    · exact hs h
    · simp [hunread] at h

end Sys2Proof.Machine
end

section
/-! PROOFS. Panel writes in STOPPED and RUNNING of the words without a row of their own (R4, R24, R27, R54). -/

namespace Sys2Proof.Machine

/-! ### A write in STOPPED and RUNNING -/

/-- A write in STOPPED and RUNNING of a word that is no point's w0 and has no part-owned field acted on. -/
theorem State.servingWrite_eq {s : State} {off : Nat} (hoff : off < 4096) (hm : s.part.mode.serving = true) (hb : s.busFree)
    (ha : s.part.actsOn off = false) (hpoint : ∀ i, windowWord off ≠ .point i 0) (w : Word) :
    s.panelWriteAt off w =
      { s with
        mem := s.mem.write (s.wordAddress off) w
        part := Part.settle s.part (s.part.takeServing off w) } := by
  rw [State.panelWriteAt_passed hoff (Mode.live_of_serving hm) hb (Part.captures_of_not_point hpoint w) ha,
    Part.takeWrite_serving hm hpoint]

/-- The words whose write fills a mirror and does nothing else (R27). -/
def WindowWord.isPlain : WindowWord → Prop
  | .config n => n.val ∈ [0x00, 0x01, 0x02, 0x0C, 0x0D, 0x0E, 0x0F, 0x11, 0x14, 0x16, 0x1D, 0x1E, 0x1F]
  | .virtual _ w => w.val = 1
  | .route _ w => w.val = 1
  | .translation _ _ => True
  | .log _ _ | .ordinary => True
  | .group _ | .directory _ _ | .point _ _ => False

theorem Part.takeServing_of_isPlain {off : Nat} (h : (windowWord off).isPlain) (w : Word) (p : Part) :
    p.takeServing off w = p.setMirror off w := by
  unfold Part.takeServing
  simp only
  split
  · rename_i n hword
    rw [hword] at h
    simp only [WindowWord.isPlain, List.mem_cons, List.not_mem_nil, or_false] at h
    split <;> first | rfl | omega
  all_goals (rename_i hword; rw [hword] at h)
  · exact h.elim
  · rename_i k
    have hk : k.val = 1 := h
    exact if_neg (by omega)
  · rename_i k
    have hk : k.val = 1 := h
    rw [if_neg (by omega), if_neg (by omega)]
  · exact h.elim
  · exact h.elim

theorem Part.passed_log {off : Nat} {k : Fin 32} {i : Fin 4} (h : windowWord off = .log k i) (w : Word) (p : Part) :
    p.clearByWrite off w = p ∧ p.downstream off w = w := by
  constructor
  · unfold Part.clearByWrite
    split
    · rw [h]
    · rfl
  · unfold Part.downstream
    split
    · rw [h]
    · rfl

theorem WindowWord.isPlain.notOwned {off : Nat} (h : (windowWord off).isPlain) :
    partOwned off = false ∨ ∃ k i, windowWord off = .log k i := by
  cases hword : windowWord off with
  | config n =>
    rw [hword] at h
    refine .inl ?_
    simp only [WindowWord.isPlain, List.mem_cons, List.not_mem_nil, or_false] at h
    simp only [partOwned, hword, ownedConfig, List.mem_cons, List.not_mem_nil, or_false, decide_eq_false_iff_not]
    omega
  | virtual v k =>
    rw [hword] at h
    have hk : k.val = 1 := h
    exact .inl (by simp [partOwned, hword, hk])
  | route r k =>
    rw [hword] at h
    have hk : k.val = 1 := h
    exact .inl (by simp [partOwned, hword, hk])
  | log k i => exact .inr ⟨k, i, rfl⟩
  | translation i k | ordinary => exact .inl (by simp [partOwned, hword])
  | group g | directory d k | point i k => rw [hword] at h; exact h.elim

theorem Part.passed_of_isPlain {off : Nat} (h : (windowWord off).isPlain) (w : Word) (p : Part) :
    p.clearByWrite off w = p ∧ p.downstream off w = w := by
  rcases h.notOwned with howned | ⟨k, i, hlog⟩
  · have ha : p.actsOn off = false := Part.actsOn_of_not_owned howned
    exact ⟨Part.clearByWrite_of_not_acting ha w, Part.downstream_of_not_acting ha w⟩
  · exact p.passed_log hlog w

/-- A write in STOPPED and RUNNING of a word that only fills its mirror (R27). -/
theorem State.plainWrite_eq {s : State} {off : Nat} (hoff : off < 4096) (hm : s.part.mode.serving = true) (hb : s.busFree)
    (hcur : s.part.troubleCurrent) (h : (windowWord off).isPlain) (w : Word) :
    s.panelWriteAt off w = { s with
      mem := s.mem.write (s.wordAddress off) w
      part := s.part.setMirror off w } := by
  have hpoint : ∀ i, windowWord off ≠ .point i 0 := fun i hword => by
    rw [hword] at h
    exact h.elim
  obtain ⟨hclear, hdown⟩ := s.part.passed_of_isPlain h w
  rw [State.panelWriteAt_eq hoff (Mode.live_of_serving hm) hb
    (Part.stalls_eq_false rfl hoff (Part.captures_of_not_point hpoint w)), hclear, hdown, Part.takeWrite_serving hm hpoint,
    Part.takeServing_of_isPlain h, Part.settle_of_mirrors (Part.setMirror_keeps _ _ _) hcur rfl]
  rfl

/-! ### Where the words lie -/

theorem windowWord_gap {off : Nat} (h : (0x020 ≤ off ∧ off < 0x040) ∨ (0x130 ≤ off ∧ off < 0x400) ∨
    (0x600 ≤ off ∧ off < 0x800) ∨ 0xC00 ≤ off ∨ (0x0B0 ≤ off ∧ off < 0x130 ∧ 9 ≤ off % 16) ∨
    (0x800 ≤ off ∧ off < 0xC00 ∧ off % 4 = 3)) : (windowWord off).isPlain := by
  rcases h with h | h | h | h | h | h
  · rw [windowWord, if_neg (by omega), if_pos (by omega)]
    trivial
  · simp only [windowWord]
    rw [if_neg (by omega), if_neg (by omega), if_neg (by omega), if_neg (by omega), if_neg (by omega), if_neg (by omega)]
    split
    · trivial
    · split
      · trivial
      · rw [if_pos (by omega)]
        trivial
  · simp only [windowWord]
    repeat rw [if_neg (by omega)]
    rw [if_pos (by omega)]
    trivial
  · simp only [windowWord]
    repeat rw [if_neg (by omega)]
    trivial
  · simp only [windowWord]
    repeat rw [if_neg (by omega)]
    rw [if_pos (by omega), if_neg (by omega)]
    trivial
  · simp only [windowWord]
    repeat rw [if_neg (by omega)]
    rw [if_pos (by omega), if_neg (by omega)]
    trivial

theorem windowWord_translation {off : Nat} (hlo : 0x400 ≤ off) (hhi : off < 0x600) :
    ∃ i k, windowWord off = .translation i k := by
  refine ⟨Fin.ofNat 256 ((off - 0x400) / 2), Fin.ofNat 2 (off % 2), ?_⟩
  simp only [windowWord]
  repeat rw [if_neg (by omega)]
  rw [if_pos hhi]

/-- The settings that only others read, the translation words and w1 of a virtual record: their mirror keeps all of them. -/
theorem windowWord_setting {off : Nat} (h : (0x400 ≤ off ∧ off < 0x600) ∨ (∃ v : Fin 8, off = virtualOffset v.val 1) ∨
    off ∈ [0x000, 0x001, 0x002, 0x00C, 0x00D, 0x00E, 0x00F, 0x011, 0x01D, 0x01E, 0x01F]) :
    (windowWord off).isPlain ∧ mirrorMask off = 0xFFFF := by
  rcases h with ⟨hlo, hhi⟩ | ⟨v, rfl⟩ | h
  · obtain ⟨i, k, hword⟩ := windowWord_translation hlo hhi
    exact ⟨by rw [hword]; trivial, by simp [mirrorMask, hword]⟩
  · have hword : windowWord (virtualOffset v.val 1) = .virtual v 1 := windowWord_virtual v 1
    exact ⟨by rw [hword]; rfl, by simp [mirrorMask, hword]⟩
  · have hlt : off < 32 := by
      simp only [List.mem_cons, List.not_mem_nil, or_false] at h
      omega
    have hword : windowWord off = .config ⟨off, hlt⟩ := windowWord_config ⟨off, hlt⟩
    constructor
    · rw [hword]
      simp only [WindowWord.isPlain, List.mem_cons, List.not_mem_nil, or_false] at h ⊢
      omega
    · simp only [mirrorMask, hword]
      refine if_neg ?_
      simp only [List.mem_cons, List.not_mem_nil, or_false] at h ⊢
      omega

/-! ### Writes to the group words -/

/-- Two lists in strict order with the same members are the same. -/
theorem eq_of_sorted_of_mem_iff {n : Nat} {l m : List (Fin n)} (hl : l.Pairwise (· < ·)) (hm : m.Pairwise (· < ·))
    (h : ∀ a, a ∈ l ↔ a ∈ m) : l = m :=
  List.Perm.eq_of_pairwise (fun _ _ _ _ hab hba => absurd hab (Nat.lt_asymm hba)) hl hm
    ((List.perm_ext_iff_of_nodup (hl.imp Fin.ne_of_lt) (hm.imp Fin.ne_of_lt)).mpr h)

/-- Point i of the 16 of a group. -/
def groupPoint (g i : Fin 16) : PointNo := ⟨16 * g.val + i.val, by omega⟩

theorem groupPoints_eq (g : Fin 16) (w : Word) :
    groupPoints g w = ((List.finRange 16).filter fun i => w.getLsbD i.val).map (groupPoint g) := by
  have hpoint : ∀ i : Fin 16, (Fin.ofNat 264 (16 * g.val + i.val) : PointNo) = groupPoint g i := fun i => by
    refine Fin.ext ?_
    rw [Fin.val_ofNat]
    exact Nat.mod_eq_of_lt (by omega)
  unfold groupPoints
  simp only [hpoint]
  induction List.finRange 16 with
  | nil => rfl
  | cons i is ih =>
    by_cases hbit : w.getLsbD i.val = true
    · simp only [List.filterMap_cons, List.filter_cons, hbit, if_true, List.map_cons, ih]
    · simp only [List.filterMap_cons, List.filter_cons, hbit, Bool.false_eq_true, if_false, ih]

/-- A write to a group word selects the points of its group whose bits are set, ascending (02 section 2.2). -/
theorem groupPoints_eq_filter (g : Fin 16) (w : Word) : groupPoints g w =
    (List.finRange 264).filter fun i => decide (i.val / 16 = g.val) && w.getLsbD (i.val % 16) := by
  rw [groupPoints_eq]
  refine eq_of_sorted_of_mem_iff ?_ ((List.pairwise_lt_finRange 264).filter _) fun a => ?_
  · rw [List.pairwise_map]
    refine ((List.pairwise_lt_finRange 16).filter _).imp fun {i j} hij => ?_
    have hij' : i.val < j.val := hij
    simp only [groupPoint, Fin.lt_def]
    omega
  · simp only [List.mem_map, List.mem_filter, List.mem_finRange, true_and, Bool.and_eq_true, decide_eq_true_eq]
    constructor
    · rintro ⟨i, hbit, rfl⟩
      have hdiv : (16 * g.val + i.val) / 16 = g.val := by omega
      have hmod : (16 * g.val + i.val) % 16 = i.val := by omega
      simp only [groupPoint, hdiv, hmod]
      exact ⟨trivial, hbit⟩
    · rintro ⟨hdiv, hbit⟩
      refine ⟨⟨a.val % 16, by omega⟩, hbit, Fin.ext ?_⟩
      simp only [groupPoint]
      omega

/-- What a write to a group word adds to the work of the Point Engine (R24). -/
def Part.groupWork (g : Fin 16) (w : Word) (p : Part) : List Work :=
  if groupPoints g w = [] then [] else match p.groupAction with
    | some a => [.group a (groupPoints g w)]
    | none => []

theorem Part.takeGroupWrite_points (g : Fin 16) (w : Word) (p : Part) :
    (p.takeGroupWrite g w).points = { p.points with work := p.points.work ++ p.groupWork g w } := by
  unfold Part.takeGroupWrite Part.groupWork
  cases p.groupAction <;> cases groupPoints g w <;> simp [Part.tell]

theorem Part.takeGroupWrite_keeps (g : Fin 16) (w : Word) (p : Part) : p.keepsBut [.points] (p.takeGroupWrite g w) := by
  unfold Part.takeGroupWrite
  split
  · exact Part.tell_keeps _ p
  · exact Part.keepsBut_refl _ p

theorem Part.takeServing_group (g : Fin 16) (w : Word) (p : Part) :
    p.takeServing (0x040 + g.val) w = (p.setMirror (0x040 + g.val) w).takeGroupWrite g w := by
  simp [Part.takeServing, windowWord_group]

theorem Part.groupAction_of_mirror {p q : Part} (h : q.mirror 0x002 = p.mirror 0x002) : q.groupAction = p.groupAction := by
  simp only [Part.groupAction, h]

/-! ### w0 of a virtual record -/

theorem Part.takeServing_virtual {i : PointNo} (hi : 256 ≤ i.val) (w : Word) (p : Part) :
    p.takeServing (virtualOffset (i.val - 256) 0) w =
      (p.setMirror (virtualOffset (i.val - 256) 0) w).takeEnabled i (bit (p.mirror (virtualOffset (i.val - 256) 0)) 0)
        (bit w 0) := by
  have hword : windowWord (virtualOffset (i.val - 256) 0) = _ := windowWord_virtualPoint 0
  have hpoint : (Fin.ofNat 264 (256 + (i.val - 256)) : PointNo) = i := Fin.ext (by rw [Fin.val_ofNat]; omega)
  simp only [Part.takeServing, hword, hpoint]
  exact if_pos rfl

/-- What a change of an enabled field adds to the work of the Point Engine (R54). -/
theorem Part.takeEnabled_points (i : PointNo) (before after : Bool) (p : Part) :
    (p.takeEnabled i before after).points = { p.points with work := p.points.work ++
      (if before = after then [] else if after = true then [.enable i] else [.disable i]) } := by
  unfold Part.takeEnabled
  split
  · simp
  · split <;> rfl

theorem Part.takeEnabled_keeps (i : PointNo) (before after : Bool) (p : Part) :
    p.keepsBut [.points] (p.takeEnabled i before after) := by
  unfold Part.takeEnabled
  split
  · exact Part.keepsBut_refl _ p
  · exact Part.tell_keeps _ p

/-- A word handed to the Point Engine: its mirror is set, the work changes, nothing else. -/
theorem State.toldWrite {s : State} {off : Nat} (hoff : off < 4096) (hm : s.part.mode.serving = true) (hw : s.writable)
    (hcur : s.part.troubleCurrent) (howned : partOwned off = false) (hpoint : ∀ i, windowWord off ≠ .point i 0) {w : Word}
    {q : Part} {ws : List Work} (htaken : s.part.takeServing off w = q)
    (hkeeps : (s.part.setMirror off w).keepsBut [.points] q)
    (hpoints : q.points = { s.part.points with work := s.part.points.work ++ ws }) :
    ∃ t, s.panelWriteAt off w = t ∧ s.stores off w t ∧ s.part.keepsBut [.mirrors, .points] t.part ∧
      s.part.keepsMirrorsBut [off] t.part ∧ t.part.mirror off = w &&& mirrorMask off ∧
      t.part.points = { s.part.points with work := t.part.points.work } ∧ t.part.points.work = s.part.points.work ++ ws := by
  obtain ⟨hmem, hb, hwords⟩ := hw
  have hblocks : s.part.keepsBut [.mirrors, .points] q :=
    Part.keepsBut_trans (Part.keepsBut_mono (Part.setMirror_keeps off w s.part) (by simp)) (Part.keepsBut_mono hkeeps (by simp))
  have hsettle : Part.settle s.part q = q :=
    Part.settle_of_keeps hblocks hcur (by rw [hkeeps.mirrors]; rfl) (by rw [hpoints]) (by rw [hpoints]; rfl)
  have hmirror : ∀ a, q.mirror a = (s.part.setMirror off w).mirror a := Part.mirror_of_mirrors hkeeps.mirrors
  refine ⟨_, rfl, ?_⟩
  rw [State.servingWrite_eq hoff hm hb (Part.actsOn_of_not_owned howned) hpoint, htaken, hsettle]
  refine ⟨State.stores_write hmem _ _ _, hblocks, ⟨?_, fun a ha => ?_⟩, ?_, ?_, ?_⟩
  · simp only [hkeeps.mirrors]
    rfl
  · simp only [hmirror]
    rw [Part.mirror_setMirror hwords, if_neg (by simpa using ha)]
  · simp only [hmirror]
    rw [Part.mirror_setMirror hwords, if_pos rfl]
  · simp only [hpoints]
  · simp only [hpoints]

/-- Settles O16: a plain word fills its mirror; a group word and w0 of a virtual record reach the Point Engine too. -/
theorem panelWritesReachTheirOwners : Obligations.PanelWritesReachTheirOwners := by
  intro off w s hoff hm hw hcur
  obtain ⟨hmem, hb, hwords⟩ := id hw
  have hplain : (windowWord off).isPlain → s.panelWriteAt off w = { s with
      mem := s.mem.write (s.wordAddress off) w, part := s.part.setMirror off w } := fun h =>
    State.plainWrite_eq hoff hm hb hcur h w
  refine ⟨s.panelWriteAt off w, rfl, fun h => ?_, fun h => ?_, ?_, ?_⟩
  · rw [hplain (windowWord_gap h)]
    exact ⟨State.stores_write hmem _ _ _, Part.setMirror_keeps _ _ _, Part.keepsMirrorsBut_setMirror hwords _ _⟩
  · obtain ⟨hword, hmask⟩ := windowWord_setting h
    rw [hplain hword]
    exact ⟨State.stores_write hmem _ _ _, Part.setMirror_keeps _ _ _, Part.keepsMirrorsBut_setMirror hwords _ _,
      Part.mirror_setMirror_same hwords w hmask⟩
  · rintro g rfl
    have hword := windowWord_group g
    have hmirror : (s.part.setMirror (0x040 + g.val) w).mirror 0x002 = s.part.mirror 0x002 := by
      rw [Part.mirror_setMirror hwords, if_neg (by omega)]
    obtain ⟨t, ht, hstores, hblocks, hmirrors, -, hpoints, hwork⟩ := State.toldWrite hoff hm hw hcur
      (by simp [partOwned, hword]) (fun i h => by simp [hword] at h) (s.part.takeServing_group g w)
      (Part.takeGroupWrite_keeps g w _) (Part.takeGroupWrite_points g w _)
    rw [ht]
    refine ⟨hstores, hblocks, hmirrors, hpoints, hwork.trans ?_⟩
    rw [Part.groupWork, Part.groupAction_of_mirror hmirror, Part.groupAction]
    simp only [← groupPoints_eq_filter]
    congr 1
    generalize groupPoints g w = chosen
    split
    · rfl
    · generalize field (s.part.mirror 0x002) 1 2 = action
      rcases action with _ | _ | _ | action <;> rfl
  · intro i hi hoffset
    have hword : windowWord off = .virtual ⟨i.val - 256, by omega⟩ 0 := by
      rw [hoffset]
      exact windowWord_virtualPoint 0
    have htaken : s.part.takeServing off w =
        (s.part.setMirror off w).takeEnabled i (bit (s.part.mirror off) 0) (bit w 0) := by
      rw [hoffset]
      exact s.part.takeServing_virtual hi w
    obtain ⟨t, ht, hstores, hblocks, hmirrors, hmirror, hpoints, hwork⟩ := State.toldWrite hoff hm hw hcur
      (by simp [partOwned, hword]) (fun i h => by simp [hword] at h) htaken
      (Part.takeEnabled_keeps _ _ _ _) (Part.takeEnabled_points _ _ _ _)
    rw [ht]
    refine ⟨hstores, hblocks, hmirrors, hmirror.trans ?_, hpoints, hwork⟩
    rw [show mirrorMask off = 0xFFFF by simp [mirrorMask, hword]]
    exact BitVec.and_allOnes

end Sys2Proof.Machine
end

section
/-! PROOFS. Panel writes in LOADING and in UNCONFIGURED (R28 to R31, R96). -/

namespace Sys2Proof.Machine

/-! ### Words of a directory entry -/

theorem ite_ne_of_imp {α : Type} {c : Prop} [Decidable c] {a b x : α} (ha : c → a ≠ x) (hb : ¬ c → b ≠ x) :
    (if c then a else b) ≠ x := by
  split
  · exact ha ‹_›
  · exact hb ‹_›

theorem bounds_of_windowWord_directory {off : Nat} {d : DestNo} {k : Fin 9} (h : windowWord off = .directory d k) :
    0x0B0 + 16 * d.val ≤ off ∧ off < 0x0B9 + 16 * d.val := by
  have hentry : ∀ h₁ : 0x0B0 ≤ off ∧ off < 0x130 ∧ off % 16 < 9,
      WindowWord.directory (Fin.ofNat 8 ((off - 0x0B0) / 16)) (Fin.ofNat 9 (off % 16)) = .directory d k →
        0x0B0 + 16 * d.val ≤ off ∧ off < 0x0B9 + 16 * d.val := by
    intro h₁ heq
    rw [WindowWord.directory.injEq, Fin.ext_iff, Fin.val_ofNat] at heq
    omega
  by_contra hbounds
  refine absurd h ?_
  unfold windowWord
  repeat' refine ite_ne_of_imp (fun _ => ?_) (fun _ => ?_)
  all_goals try simp only [ne_eq, reduceCtorEq, not_false_eq_true]
  exact fun heq => hbounds (hentry (by omega) heq)

theorem windowWord_of_directoryBounds {off : Nat} {d : DestNo} (hlo : 0x0B0 + 16 * d.val ≤ off) (hhi : off < 0x0B9 + 16 * d.val) :
    ∃ k, windowWord off = .directory d k := by
  have hoff : off = directoryOffset d.val (off - (0x0B0 + 16 * d.val)) := by
    unfold directoryOffset
    omega
  rw [hoff]
  exact ⟨_, windowWord_directory d ⟨off - (0x0B0 + 16 * d.val), by omega⟩⟩

/-! ### A write outside STOPPED and RUNNING -/

/-- Only in STOPPED and RUNNING does a write wait for a place in the FIFO (R16). -/
theorem Part.stalls_of_not_serving {p : Part} (hs : p.mode.serving = false) (c : Cycle) : p.stalls c = false := by
  unfold Part.stalls
  split
  · rfl
  · split
    · simp [hs]
    · rfl

theorem State.quietWrite_eq {s : State} {off : Nat} (hoff : off < 4096) (hm : s.part.mode.live = true)
    (hs : s.part.mode.serving = false) (hb : s.busFree) (w : Word) :
    s.panelWriteAt off w = { s with
      mem := s.mem.write (s.wordAddress off) ((s.part.clearByWrite off w).downstream off w)
      part := Part.settle s.part ((s.part.clearByWrite off w).takeWrite off w) } :=
  State.panelWriteAt_eq hoff hm hb (Part.stalls_of_not_serving hs _)

/-- A write outside STOPPED and RUNNING of a word the part does not act on. -/
theorem State.quietWrite_passed {s : State} {off : Nat} (hoff : off < 4096) (hm : s.part.mode.live = true)
    (hs : s.part.mode.serving = false) (hb : s.busFree) (ha : s.part.actsOn off = false) (w : Word) :
    s.panelWriteAt off w = { s with
      mem := s.mem.write (s.wordAddress off) w
      part := Part.settle s.part (s.part.takeWrite off w) } := by
  rw [State.quietWrite_eq hoff hm hs hb, Part.clearByWrite_of_not_acting ha, Part.downstream_of_not_acting ha]

/-! ### LOADING -/

theorem Part.takeWrite_loading {p : Part} (hm : p.mode = .loading) (off : Nat) (w : Word) :
    p.takeWrite off w = p.takeLoading off w := by
  simp [Part.takeWrite, hm]

/-- A word that LOAD reads and that holds no part-owned field is mirrored whole (R27, R33). -/
theorem mirrorMask_of_loaded {off : Nat} (hrank : loadRank off ≠ none) (howned : partOwned off = false) :
    mirrorMask off = 0xFFFF := by
  cases hword : windowWord off with
  | config n =>
    simp only [partOwned, hword, ownedConfig] at howned
    simp only [mirrorMask, hword]
    exact if_neg (of_decide_eq_false howned)
  | virtual v k =>
    simp only [partOwned, hword, decide_eq_false_iff_not] at howned
    simp only [mirrorMask, hword]
    exact if_pos (by omega)
  | route r k =>
    simp only [partOwned, hword, decide_eq_false_iff_not] at howned
    simp only [mirrorMask, hword]
    exact if_pos (by omega)
  | directory d k | translation i k => simp [mirrorMask, hword]
  | point i k =>
    simp only [partOwned, hword, decide_eq_false_iff_not] at howned
    simp only [mirrorMask, hword]
    exact if_pos (by omega)
  | group g | log k i | ordinary => simp [loadRank, hword] at hrank

theorem Part.loadRank_of_read {p : Part} {off : Nat} (h : p.loadHasRead off = true) : loadRank off ≠ none := by
  intro hrank
  unfold Part.loadHasRead at h
  rw [hrank] at h
  cases hl : p.mirrors.load <;> simp [hl] at h

/-- The mirrors after a write in LOADING of a word already read, without a part-owned field (R30). -/
def Part.loadedMirrors (off : Nat) (w : Word) (p : Part) : Part :=
  match windowWord off with
  | .directory d _ => (p.setMirror off w).judgeValid d
  | .config _ | .group _ | .virtual _ _ | .route _ _ | .log _ _ | .translation _ _ | .point _ _ | .ordinary =>
    p.setMirror off w

theorem Part.takeLoading_of_read {p : Part} {off : Nat} (hread : p.loadHasRead off = true) (howned : partOwned off = false)
    (hcommand : off ≠ 0x010) (w : Word) : p.takeLoading off w = p.loadedMirrors off w := by
  unfold Part.takeLoading Part.loadedMirrors
  rw [if_neg hcommand]
  by_cases henable : off = 0x014
  · rw [if_pos henable, henable, windowWord_causeEnable]
  · rw [if_neg henable, if_pos hread]
    cases hword : windowWord off with
    | route r k =>
      simp only [partOwned, hword, decide_eq_false_iff_not] at howned
      exact if_neg (by omega)
    | config n | group g | virtual v k | directory d k | log k i | translation i k | point i k | ordinary => rfl

theorem Part.loadedMirrors_keeps (off : Nat) (w : Word) (p : Part) : p.keepsBut [.mirrors] (p.loadedMirrors off w) := by
  unfold Part.loadedMirrors
  intro b hb
  split <;> cases b <;> simp [Block.same, Part.judgeValid] at hb ⊢

theorem Part.loadedMirrors_mirrors (off : Nat) (w : Word) (p : Part) :
    (p.loadedMirrors off w).mirrors = { (p.setMirror off w).mirrors with valid := (p.loadedMirrors off w).mirrors.valid } := by
  unfold Part.loadedMirrors
  split <;> rfl

theorem Part.mirror_of_words {p q : Part} (h : q.mirrors.words = p.mirrors.words) (a : Nat) : q.mirror a = p.mirror a := by
  simp only [Part.mirror, h]

/-- Validity is judged from the mirrors alone (R25). -/
theorem Part.entryValid_of_words {p q : Part} (h : q.mirrors.words = p.mirrors.words) (d : DestNo) :
    q.entryValid d = p.entryValid d := by
  have hmirror : q.mirror = p.mirror := funext (Part.mirror_of_words h)
  have hslot : q.dialSlot d = p.dialSlot d := funext fun i => by simp only [Part.dialSlot, hmirror]
  have hlength : q.dialLength d = p.dialLength d := by simp only [Part.dialLength, hmirror]
  have haccount : q.account d = p.account d := by simp only [Part.account, hmirror]
  have hcodes : q.dialCodes d = p.dialCodes d := by simp only [Part.dialCodes, hlength, hslot]
  rw [Part.entryValid, Part.entryValid, hlength, haccount, hcodes]

theorem Part.loadedMirrors_valid (off : Nat) (w : Word) (p : Part) (d : DestNo) : (p.loadedMirrors off w).mirrors.valid[d] =
    if 0x0B0 + 16 * d.val ≤ off ∧ off < 0x0B9 + 16 * d.val then (p.loadedMirrors off w).entryValid d
    else p.mirrors.valid[d] := by
  have hwords : (p.loadedMirrors off w).mirrors.words = (p.setMirror off w).mirrors.words := by
    rw [Part.loadedMirrors_mirrors]
  rw [Part.entryValid_of_words hwords]
  by_cases hbounds : 0x0B0 + 16 * d.val ≤ off ∧ off < 0x0B9 + 16 * d.val
  · obtain ⟨k, hword⟩ := windowWord_of_directoryBounds hbounds.1 hbounds.2
    rw [if_pos hbounds]
    simp [Part.loadedMirrors, hword, Part.judgeValid]
  · rw [if_neg hbounds]
    cases hword : windowWord off with
    | directory e k =>
      have hne : e.val ≠ d.val := fun heq => by
        rw [show e = d from Fin.ext heq] at hword
        exact hbounds (bounds_of_windowWord_directory hword)
      simp [Part.loadedMirrors, hword, Part.judgeValid, hne, Part.setMirror]
    | config n | group g | virtual v k | route r k | log k i | translation i k | point i k | ordinary =>
      simp [Part.loadedMirrors, hword, Part.setMirror]

/-! ### w2 and w3 of a route in LOADING -/

theorem windowWord_budget (r : RouteNo) : windowWord (routeOffset r.val 2) = .route r 2 := windowWord_route r 2

theorem windowWord_routeState (r : RouteNo) : windowWord (routeOffset r.val 3) = .route r 3 := windowWord_route r 3

theorem Part.passed_budget (r : RouteNo) (w : Word) (p : Part) :
    p.clearByWrite (routeOffset r.val 2) w = p ∧ p.downstream (routeOffset r.val 2) w = w := by
  constructor
  · unfold Part.clearByWrite
    split
    · simp [windowWord_budget]
    · rfl
  · unfold Part.downstream
    split
    · simp [windowWord_budget]
    · rfl

/-- The budget of a route as a write in LOADING leaves it (R96). -/
def Part.budgetLoaded (r : RouteNo) (w : Word) (p : Part) : Route :=
  let v := p.route r
  if budgetField w = v.budget then v
  else if p.loadHasRead (routeOffset r.val 3) = true then
    { v with budget := budgetField w, spent := false, w3AtEnd := v.w3AtEnd || v.spent }
  else { v with budget := budgetField w, clearKept := true, w3AtEnd := true }

theorem Part.takeBudgetLoading_spec (r : RouteNo) (w : Word) (p : Part) :
    p.keepsBut [.routes] (p.takeBudgetLoading r w) ∧ (∀ k, k ≠ r → (p.takeBudgetLoading r w).route k = p.route k) ∧
      (p.takeBudgetLoading r w).route r = p.budgetLoaded r w := by
  unfold Part.takeBudgetLoading Part.budgetLoaded
  simp only
  split
  · exact ⟨Part.keepsBut_refl _ p, fun _ _ => rfl, rfl⟩
  · split
    · exact ⟨Part.setRoute_keeps _ _ p, fun k hk => Part.route_setRoute_ne hk _ p, Part.route_setRoute _ _ _⟩
    · exact ⟨Part.setRoute_keeps _ _ p, fun k hk => Part.route_setRoute_ne hk _ p, Part.route_setRoute _ _ _⟩

theorem Part.takeLoading_budget {p : Part} {r : RouteNo} (hread : p.loadHasRead (routeOffset r.val 2) = true) (w : Word) :
    p.takeLoading (routeOffset r.val 2) w = (p.setMirror (routeOffset r.val 2) w).takeBudgetLoading r w := by
  have hcommand : routeOffset r.val 2 ≠ 0x010 := by unfold routeOffset; omega
  have henable : routeOffset r.val 2 ≠ 0x014 := by unfold routeOffset; omega
  simp [Part.takeLoading, hcommand, henable, hread, windowWord_budget]

theorem Part.takeLoading_routeState {p : Part} {r : RouteNo} (hread : p.loadHasRead (routeOffset r.val 3) = true) (w : Word) :
    p.takeLoading (routeOffset r.val 3) w = p.setMirror (routeOffset r.val 3) w := by
  have hcommand : routeOffset r.val 3 ≠ 0x010 := by unfold routeOffset; omega
  have henable : routeOffset r.val 3 ≠ 0x014 := by unfold routeOffset; omega
  simp [Part.takeLoading, hcommand, henable, hread, windowWord_routeState]

/-- A 0 written to w3 of a route clears its accessed flag, where the part acts on the word (R8). -/
theorem Part.clearByWrite_routeState {p : Part} {r : RouteNo} (ha : p.actsOn (routeOffset r.val 3) = true) (w : Word) :
    p.keepsBut [.routes] (p.clearByWrite (routeOffset r.val 3) w) ∧
      (∀ k, k ≠ r → (p.clearByWrite (routeOffset r.val 3) w).route k = p.route k) ∧
      (p.clearByWrite (routeOffset r.val 3) w).route r =
        { p.route r with accessed := (p.route r).accessed && bit w 0 } := by
  simp only [Part.clearByWrite, ha, if_true, windowWord_routeState]
  by_cases hbit : bit w 0 = true
  · rw [if_neg (by simp [hbit]), hbit]
    exact ⟨Part.keepsBut_refl _ p, fun _ _ => rfl, by rw [Bool.and_true]⟩
  · rw [if_pos (by simp [hbit]), Bool.eq_false_iff.mpr hbit]
    exact ⟨Part.setRoute_keeps _ _ p, fun k hk => Part.route_setRoute_ne hk _ p, by
      rw [Part.route_setRoute, Bool.and_false]⟩

theorem Part.downstream_routeState {p : Part} {r : RouteNo} (ha : p.actsOn (routeOffset r.val 3) = true) (w : Word) :
    p.downstream (routeOffset r.val 3) w = (p.route r).w3 := by
  simp [Part.downstream, ha, windowWord_routeState, Part.ownedWord]

/-- What the part acts on does not depend on its routes. -/
theorem Part.actsOn_of_keeps {p q : Part} (h : p.keepsBut [.routes] q) (off : Nat) : q.actsOn off = p.actsOn off := by
  simp only [Part.actsOn, Part.loadHasRead, h.mode, h.notice, h.mirrors]

/-! ### The statement -/

/-- A write of a word LOAD has read, without a part-owned field (R30). -/
theorem State.loadingWrite_plain {s : State} {off : Nat} (hoff : off < 4096) (hm : s.part.mode = .loading) (hw : s.writable)
    (hcur : s.part.troubleCurrent) (hread : s.part.loadHasRead off = true) (howned : partOwned off = false)
    (hcommand : off ≠ 0x010) (w : Word) :
    ∃ t, s.panelWriteAt off w = t ∧ s.stores off w t ∧ s.part.keepsBut [.mirrors] t.part ∧ t.part.mirror off = w ∧
      (∀ a, a ≠ off → t.part.mirror a = s.part.mirror a) ∧ t.part.mirrors.load = s.part.mirrors.load ∧
      ∀ d : DestNo, t.part.mirrors.valid[d] =
        if 0x0B0 + 16 * d.val ≤ off ∧ off < 0x0B9 + 16 * d.val then t.part.entryValid d else s.part.mirrors.valid[d] := by
  obtain ⟨hmem, hb, hwords⟩ := hw
  have hmirrors := s.part.loadedMirrors_mirrors off w
  have hmirror : ∀ a, (s.part.loadedMirrors off w).mirror a = (s.part.setMirror off w).mirror a :=
    Part.mirror_of_words (by rw [hmirrors])
  have hsettle : Part.settle s.part (s.part.loadedMirrors off w) = s.part.loadedMirrors off w :=
    Part.settle_of_mirrors (s.part.loadedMirrors_keeps off w) hcur (by rw [hmirrors]; rfl)
  have hwritten := State.quietWrite_passed hoff (by rw [hm]; rfl) (by rw [hm]; rfl) hb
    (Part.actsOn_of_not_owned howned) w
  rw [Part.takeWrite_loading hm, Part.takeLoading_of_read hread howned hcommand, hsettle] at hwritten
  refine ⟨_, hwritten, State.stores_write hmem _ _ _, s.part.loadedMirrors_keeps off w, ?_, fun a ha => ?_, ?_,
    s.part.loadedMirrors_valid off w⟩
  · exact (hmirror off).trans
      (Part.mirror_setMirror_same hwords w (mirrorMask_of_loaded (Part.loadRank_of_read hread) howned))
  · exact (hmirror a).trans (by rw [Part.mirror_setMirror hwords, if_neg ha])
  · have hload : (s.part.loadedMirrors off w).mirrors.load = (s.part.setMirror off w).mirrors.load :=
      by rw [hmirrors]
    exact hload

/-- A write of w2 of a route that LOAD has read (R96). -/
theorem State.loadingWrite_budget {s : State} {r : RouteNo} (hm : s.part.mode = .loading) (hw : s.writable)
    (hcur : s.part.troubleCurrent) (hread : s.part.loadHasRead (routeOffset r.val 2) = true) (w : Word) :
    ∃ t, s.panelWriteAt (routeOffset r.val 2) w = t ∧ s.stores (routeOffset r.val 2) w t ∧
      s.part.keepsBut [.mirrors, .routes] t.part ∧ s.part.keepsMirrorsBut [routeOffset r.val 2] t.part ∧
      t.part.mirror (routeOffset r.val 2) = w &&& 0xC000 ∧ (∀ k, k ≠ r → t.part.route k = s.part.route k) ∧
      t.part.route r = s.part.budgetLoaded r w := by
  obtain ⟨hmem, hb, hwords⟩ := hw
  have hoff : routeOffset r.val 2 < 4096 := by unfold routeOffset; omega
  have hmask : mirrorMask (routeOffset r.val 2) = 0xC000 := by simp [mirrorMask, windowWord_budget]
  obtain ⟨hclear, hdown⟩ := s.part.passed_budget r w
  obtain ⟨hkeeps, hothers, hroute⟩ := (s.part.setMirror (routeOffset r.val 2) w).takeBudgetLoading_spec r w
  have hblocks := Part.keepsBut_trans (Part.keepsBut_mono (Part.setMirror_keeps (routeOffset r.val 2) w s.part)
    (cs := [.mirrors, .routes]) (by simp)) (Part.keepsBut_mono hkeeps (by simp))
  have hmirrors := hkeeps.mirrors
  have hsettle := Part.settle_of_keeps hblocks hcur (by rw [hmirrors]; rfl) (by rw [hblocks.points])
    (by rw [hblocks.points])
  have hwritten := State.quietWrite_eq hoff (by rw [hm]; rfl) (by rw [hm]; rfl) hb w
  rw [hclear, hdown, Part.takeWrite_loading hm, Part.takeLoading_budget hread, hsettle] at hwritten
  refine ⟨_, hwritten, State.stores_write hmem _ _ _, hblocks, ⟨?_, fun a ha => ?_⟩, ?_, hothers, hroute⟩
  · simp only [hmirrors]
    rfl
  · refine (Part.mirror_of_mirrors hmirrors a).trans ?_
    rw [Part.mirror_setMirror hwords, if_neg (by simpa using ha)]
  · refine (Part.mirror_of_mirrors hmirrors _).trans ?_
    rw [Part.mirror_setMirror hwords, if_pos rfl, hmask]

/-- A write of w3 of a route that LOAD has read (R8, log 37). -/
theorem State.loadingWrite_routeState {s : State} {r : RouteNo} (hm : s.part.mode = .loading) (hw : s.writable)
    (hcur : s.part.troubleCurrent) (hread : s.part.loadHasRead (routeOffset r.val 3) = true) (w : Word) :
    ∃ t, s.panelWriteAt (routeOffset r.val 3) w = t ∧ s.stores (routeOffset r.val 3) (t.part.route r).w3 t ∧
      s.part.keepsBut [.mirrors, .routes] t.part ∧ s.part.keepsMirrorsBut [routeOffset r.val 3] t.part ∧
      (∀ k, k ≠ r → t.part.route k = s.part.route k) ∧
      t.part.route r = { s.part.route r with accessed := (s.part.route r).accessed && bit w 0 } := by
  obtain ⟨hmem, hb, hwords⟩ := hw
  have hoff : routeOffset r.val 3 < 4096 := by unfold routeOffset; omega
  have hacts : s.part.actsOn (routeOffset r.val 3) = true :=
    Part.actsOn_of_table (partOwned_route r (w := 3) (by decide)) (routeOffset_ne _ _) (.inr ⟨hm, hread⟩)
  obtain ⟨hkeeps, hothers, hroute⟩ := Part.clearByWrite_routeState hacts w
  have hwritten := State.quietWrite_eq hoff (by rw [hm]; rfl) (by rw [hm]; rfl) hb w
  have hread' : (s.part.clearByWrite (routeOffset r.val 3) w).loadHasRead (routeOffset r.val 3) = true := by
    rw [Part.loadHasRead, hkeeps.mirrors]
    exact hread
  generalize s.part.clearByWrite (routeOffset r.val 3) w = q at hkeeps hothers hroute hwritten hread'
  have hmirrors : (q.setMirror (routeOffset r.val 3) w).mirrors = (s.part.setMirror (routeOffset r.val 3) w).mirrors := by
    simp only [Part.setMirror, hkeeps.mirrors]
  have hblocks := Part.keepsBut_trans (Part.keepsBut_mono hkeeps (cs := [.mirrors, .routes]) (by simp))
    (Part.keepsBut_mono (Part.setMirror_keeps (routeOffset r.val 3) w q) (by simp))
  have hsettle := Part.settle_of_keeps hblocks hcur (by rw [hmirrors]; rfl) (by rw [hblocks.points])
    (by rw [hblocks.points])
  have hacts' : q.actsOn (routeOffset r.val 3) = true := by rw [Part.actsOn_of_keeps hkeeps, hacts]
  rw [Part.downstream_routeState hacts', Part.takeWrite_loading (hkeeps.mode.trans hm), Part.takeLoading_routeState hread',
    hsettle] at hwritten
  refine ⟨_, hwritten, State.stores_write hmem _ _ _, hblocks, ⟨?_, fun a ha => ?_⟩, hothers, hroute⟩
  · simp only [hmirrors]
    rfl
  · refine (Part.mirror_of_mirrors hmirrors a).trans ?_
    rw [Part.mirror_setMirror hwords, if_neg (by simpa using ha)]

/-- A write of 011H or 014H in UNCONFIGURED, and of 014H in LOADING, fills the mirror (R30, R31). -/
theorem State.quietWrite_mirror {s : State} {off : Nat} (hoff : off = 0x011 ∨ off = 0x014) (hm : s.part.mode.live = true)
    (hs : s.part.mode.serving = false) (hw : s.writable) (hcur : s.part.troubleCurrent) {w : Word}
    (htaken : s.part.takeWrite off w = s.part.setMirror off w) :
    ∃ t, s.panelWriteAt off w = t ∧ t.part = s.part.setMirror off w ∧ s.stores off w t ∧ s.part.keepsBut [.mirrors] t.part ∧
      s.part.keepsMirrorsBut [off] t.part ∧ t.part.mirror off = w := by
  obtain ⟨hmem, hb, hwords⟩ := hw
  have hword : off < 4096 ∧ partOwned off = false ∧ mirrorMask off = 0xFFFF := by
    rcases hoff with rfl | rfl <;> decide
  obtain ⟨hlt, howned, hmask⟩ := hword
  have hwritten := State.quietWrite_passed hlt hm hs hb (Part.actsOn_of_not_owned howned) w
  rw [htaken, Part.settle_of_mirrors (Part.setMirror_keeps _ _ _) hcur rfl] at hwritten
  exact ⟨_, hwritten, rfl, State.stores_write hmem _ _ _, Part.setMirror_keeps _ _ _,
    Part.keepsMirrorsBut_setMirror hwords _ _, Part.mirror_setMirror_same hwords w hmask⟩

theorem Part.irq_of_live {p : Part} (hm : p.mode.live = true) : p.irq = true ↔ p.notice.causes &&& p.causeEnable ≠ 0 := by
  simp [Part.irq, hm]

/-- Settles O17: by the branches of what is taken in LOADING and in UNCONFIGURED. -/
theorem loadingAndUnconfiguredWritesChangeMirrorsOnly : Obligations.LoadingAndUnconfiguredWritesChangeMirrorsOnly := by
  intro off w s hoff hw hcur
  obtain ⟨hmem, hb, hwords⟩ := id hw
  refine ⟨fun hm => ⟨fun hread ha hcommand henable => ?_, fun henable => ?_, fun hread => ⟨fun howned hcommand => ?_, ?_, ?_⟩⟩,
    fun hm => ⟨fun hset => ?_, fun hcommand hargument henable ha => ?_⟩⟩
  · have hwritten := State.quietWrite_passed hoff (by rw [hm]; rfl) (by rw [hm]; rfl) hb ha w
    rw [Part.takeWrite_loading hm, Part.takeLoading, if_neg hcommand, if_neg henable, if_neg (by simp [hread]),
      Part.settle_refl hcur] at hwritten
    exact ⟨_, congrArg Host.Outcome.next hwritten, State.stores_write hmem _ _ _, rfl⟩
  · have hlive : s.part.mode.live = true := by rw [hm]; rfl
    obtain ⟨t, ht, hpart, hstores, hkeeps, hmirrors, hmirror⟩ := State.quietWrite_mirror (.inr henable) hlive
      (by rw [hm]; rfl) hw hcur (w := w) (by rw [henable]; exact Part.takeWrite_causeEnable hlive w)
    refine ⟨t, congrArg Host.Outcome.next ht, hstores, hkeeps, hmirrors, hmirror, ?_⟩
    have hcauses : t.part.notice.causes &&& t.part.causeEnable = s.part.notice.causes &&& w.extractLsb' 0 10 := by
      rw [hkeeps.notice, Part.causeEnable, ← henable, hmirror]
    rw [Part.irq_of_live (by rw [hkeeps.mode]; exact hlive), hcauses]
  · obtain ⟨t, ht, hspec⟩ := State.loadingWrite_plain hoff hm hw hcur hread howned hcommand w
    exact ⟨t, congrArg Host.Outcome.next ht, hspec⟩
  · rintro r rfl
    obtain ⟨t, ht, hspec⟩ := State.loadingWrite_budget hm hw hcur hread w
    exact ⟨t, congrArg Host.Outcome.next ht, hspec⟩
  · rintro r rfl
    obtain ⟨t, ht, hspec⟩ := State.loadingWrite_routeState hm hw hcur hread w
    exact ⟨t, congrArg Host.Outcome.next ht, hspec⟩
  · have htaken : s.part.takeWrite off w = s.part.setMirror off w := by
      rcases hset with rfl | rfl <;> simp [Part.takeWrite, hm, Part.takeUnconfigured]
    obtain ⟨t, ht, -, hspec⟩ := State.quietWrite_mirror hset (by rw [hm]; rfl) (by rw [hm]; rfl) hw hcur htaken
    exact ⟨t, congrArg Host.Outcome.next ht, hspec⟩
  · have hwritten := State.quietWrite_passed hoff (by rw [hm]; rfl) (by rw [hm]; rfl) hb ha w
    have htaken : s.part.takeWrite off w = s.part := by
      simp [Part.takeWrite, hm, Part.takeUnconfigured, hcommand, hargument, henable]
    rw [htaken, Part.settle_refl hcur] at hwritten
    exact ⟨_, congrArg Host.Outcome.next hwritten, State.stores_write hmem _ _ _, rfl⟩

end Sys2Proof.Machine
end

section
/-! PROOFS. Inserted writes (R11 to R14, R170, R178). -/

namespace Sys2Proof.Machine

/-! ### The write-back queue -/

/-- The oldest of a queue without repetition leaves the others in order. -/
theorem filter_ne_split {off : Nat} {pre rest : List Nat} (h : (pre ++ off :: rest).Nodup) :
    (pre ++ off :: rest).filter (· ≠ off) = pre ++ rest := by
  rw [List.nodup_append] at h
  obtain ⟨-, htail, hdisjoint⟩ := h
  have hpre : pre.filter (· ≠ off) = pre :=
    List.filter_eq_self.mpr fun a ha => by simpa using hdisjoint a ha off List.mem_cons_self
  have hrest : rest.filter (· ≠ off) = rest :=
    List.filter_eq_self.mpr fun a ha => by
      have hne : off ≠ a := fun h => (List.nodup_cons.mp htail).1 (h ▸ ha)
      simpa using hne.symm
  rw [List.filter_append, List.filter_cons, hpre, hrest]
  simp

theorem Bus.mayStage_of_no_drain {b : Bus} (h : b.drain = none) : b.mayStage = true := by
  simp [Bus.mayStage, h]

theorem Bus.mayStage_of_draining {b : Bus} {n : Nat} {offs : List Nat} {raised : Bool}
    (h : b.drain = some (.draining n offs raised)) : b.mayStage = decide (0 < n) := by
  simp [Bus.mayStage, h]

theorem Bus.nextBack_of_no_drain {b : Bus} (h : b.drain = none) : b.nextBack = b.wbq.head? := by
  simp [Bus.nextBack, h]

theorem Bus.nextBack_of_draining {b : Bus} {n : Nat} {offs : List Nat} {raised : Bool}
    (h : b.drain = some (.draining n offs raised)) : b.nextBack = b.wbq.find? (offs.contains ·) := by
  simp [Bus.nextBack, h]

theorem Part.backWord_of_no_drain {p : Part} (h : p.bus.drain = none) (off : Nat) : p.backWord off = p.ownedWord off := by
  simp [Part.backWord, h]

/-- During the drain of a RESTART 012H is written as its DONE, and 013H without a COMMAND raised since (R178). -/
theorem Part.backWord_of_draining {p : Part} {n : Nat} {offs : List Nat} {raised : Bool} {c : Command}
    (h : p.bus.drain = some (.draining n offs raised)) (hc : p.notice.inProgress = some c) (off : Nat) : p.backWord off =
      if off = 0x012 then pack [(0, c.tag.toNat), (8, ResultStatus.done.code)]
      else if off = 0x013 ∧ raised = true then (p.notice.causes &&& ~~~ Cause.command.bits).setWidth 16
      else p.ownedWord off := by
  cases raised <;> simp [Part.backWord, h, hc, Notice.resultWord]

/-- A write-back that is made takes an address the part acts on, and writes its word. -/
theorem State.writeBack_acting {s : State} {off : Nat} (hm : s.part.mode.live = true) (hb : s.part.bus.mayBack = true)
    (hn : s.part.bus.nextBack = some off) (ha : s.part.actsOn off = true) :
    s.writeBack = { s with
      mem := s.mem.write (s.wordAddress off) (s.part.backWord off)
      part := { s.part with bus := s.part.bus.takeBack off } } := by
  simp [State.writeBack, hm, hb, hn, ha, State.wordAddress]

theorem State.writeBack_not_acting {s : State} {off : Nat} (hm : s.part.mode.live = true) (hb : s.part.bus.mayBack = true)
    (hn : s.part.bus.nextBack = some off) (ha : s.part.actsOn off = false) :
    s.writeBack = { s with part := { s.part with bus := s.part.bus.takeBack off } } := by
  simp [State.writeBack, hm, hb, hn, ha]

theorem State.writeBack_waits {s : State} (h : s.part.bus.mayBack = false ∨ s.part.bus.nextBack = none) :
    s.writeBack = s := by
  unfold State.writeBack
  split
  · rename_i hmay hnext
    rcases h with h | h
    · simp [h] at hmay
    · simp [h] at hnext
  · rfl

theorem Bus.takeBack_eq {b : Bus} {off : Nat} {pre rest : List Nat} (hw : b.wbq = pre ++ off :: rest) (hn : b.wbq.Nodup) :
    b.takeBack off = { b with
      wbq := pre ++ rest
      drain := b.drain.map fun
        | .draining n offs raised => .draining n (offs.filter (· ≠ off)) raised
        | d => d } := by
  rw [Bus.takeBack, hw, filter_ne_split (hw ▸ hn)] <;> rfl

theorem Part.withBus_keeps (b : Bus) (p : Part) : p.keepsBut [.bus] { p with bus := b } := by
  intro x hx
  cases x <;> simp [Block.same] at hx ⊢

/-- The oldest of the queue that the drain has still to write. -/
theorem find?_split {offs pre rest : List Nat} {off : Nat} (hpre : ∀ a ∈ pre, a ∉ offs) (hoff : off ∈ offs) :
    (pre ++ off :: rest).find? (offs.contains ·) = some off := by
  have hnone : pre.find? (offs.contains ·) = none := List.find?_eq_none.mpr fun a ha => by simpa using hpre a ha
  rw [List.find?_append, hnone, Option.none_or, List.find?_cons]
  simp [hoff]

/-! ### Admission -/

/-- The oldest waiter finds a place (R12). -/
theorem Part.admitWaiter_eq {p : Part} {w : Waiter} {ws : List Waiter} (hwait : p.bus.wbWait = w :: ws)
    (hfirst : w.first ∉ p.bus.wbq) (hplace : p.bus.wbq.length < Config.writeBackPlaces) :
    p.admitWaiter = Part.enterAll w.owner w.later { p with bus := { p.bus with wbWait := ws, wbq := p.bus.wbq ++ [w.first] } } := by
  simp [Part.admitWaiter, hwait, hfirst, hplace]

theorem Part.enterAll_keeps (o : Owner) (offs : List Nat) (p : Part) : p.keepsBut [.bus] (p.enterAll o offs) :=
  Part.keepsBut_foldl (fun q a => Part.enter_keeps o a q) offs p

/-- With no drain and no work of the Point Engine an admission changes the Bus Path alone. -/
theorem Part.admitEntry_eq {p : Part} {w : Waiter} {ws : List Waiter} (hwait : p.bus.wbWait = w :: ws)
    (hfirst : w.first ∉ p.bus.wbq) (hplace : p.bus.wbq.length < Config.writeBackPlaces) (hdrain : p.bus.drain = none)
    (htodo : p.points.todo = []) (hwork : p.points.work = []) :
    p.admitEntry = Part.enterAll w.owner w.later { p with bus := { p.bus with wbWait := ws, wbq := p.bus.wbq ++ [w.first] } } := by
  unfold Part.admitEntry
  rw [Part.admitWaiter_eq hwait hfirst hplace]
  obtain ⟨-, -, -, -, hkept, -⟩ := Part.enterAll_entries w.owner w.later
    { p with bus := { p.bus with wbWait := ws, wbq := p.bus.wbq ++ [w.first] } }
  have hpoints := (Part.enterAll_keeps w.owner w.later
    { p with bus := { p.bus with wbWait := ws, wbq := p.bus.wbq ++ [w.first] } }).points
  rw [Part.beginDrain_of fun es before later h => by rw [hkept, hdrain] at h; simp at h]
  refine Part.resume_of_commandFree ?_
  rw [hpoints]
  exact ⟨htodo, by simp [hwork], by simp [hwork]⟩

theorem Part.admitLog_eq {p : Part} {k : Nat} {r : Staged} {rest : List (Nat × Staged)} (hwait : p.bus.logWait = (k, r) :: rest)
    (hplace : p.bus.staging.length < Config.stagingPlaces) :
    p.admitLog = { p with bus := { p.bus with staging := p.bus.staging ++ [r], logWait := rest } } := by
  simp [Part.admitLog, hwait, hplace]

/-- A step of a part that works which changes the Bus Path alone settles without effect. -/
theorem Part.work_of_bus {f : Part → Part} {p : Part} (hm : p.mode.live = true) (hcur : p.troubleCurrent)
    (h : p.keepsBut [.bus] (f p)) : p.work f = f p := by
  rw [Part.work_of_live hm]
  exact Part.settle_of_keeps h hcur (by rw [h.mirrors]) (by rw [h.points]) (by rw [h.points])

/-- Settles O20: a write-back takes the next address of the queue, and an admission the one that waited longest. -/
theorem writeBackServesTheQueueInOrder : Obligations.WriteBackServesTheQueueInOrder := by
  refine ⟨fun off rest s hmem hm hdrain hwbq hbound => ?_, fun k offs raised c s hmem hm hdrain hc hbound => ?_,
    fun w ws s hm hwait hfirst hplace hdrain htodo hwork hcur => ?_, fun k r rest s hm hwait hplace hdrain hcur => ?_⟩
  · have hnext : s.part.bus.nextBack = some off := by rw [Bus.nextBack_of_no_drain hdrain, hwbq]; rfl
    have htaken : s.part.bus.takeBack off = { s.part.bus with wbq := rest } := by
      rw [Bus.takeBack_eq (pre := []) hwbq hbound.2]
      simp [hdrain]
    refine ⟨fun hstaging ha => ⟨_, congrArg Host.Outcome.next
      (State.writeBack_acting hm (by simp [Bus.mayBack, hstaging]) hnext ha), ?_, htaken, Part.withBus_keeps _ _⟩,
      fun hstaging ha => ⟨_, congrArg Host.Outcome.next
      (State.writeBack_not_acting hm (by simp [Bus.mayBack, hstaging]) hnext ha), ⟨rfl, rfl, rfl, Part.withBus_keeps _ _⟩,
      htaken⟩, fun hstaging => ⟨_, rfl, State.writeBack_waits (.inl ?_)⟩⟩
    · rw [Part.backWord_of_no_drain hdrain]
      exact State.stores_write hmem _ _ _
    · simp [Bus.mayBack, hstaging, Bus.mayStage_of_no_drain hdrain]
  · refine ⟨fun hnone => ⟨_, rfl, State.writeBack_waits (.inr ?_)⟩, fun pre off rest hwbq hpre hoff hstage ha => ?_⟩
    · rw [Bus.nextBack_of_draining hdrain]
      exact List.find?_eq_none.mpr fun a ha => by simpa using hnone a ha
    · have hnext : s.part.bus.nextBack = some off := by
        rw [Bus.nextBack_of_draining hdrain, hwbq, find?_split hpre hoff]
      have hmay : s.part.bus.mayBack = true := by
        rcases hstage with h | h
        · simp [Bus.mayBack, h]
        · simp [Bus.mayBack, Bus.mayStage_of_draining hdrain, h]
      refine ⟨_, congrArg Host.Outcome.next (State.writeBack_acting hm hmay hnext ha), ?_, ?_, Part.withBus_keeps _ _⟩
      · rw [Part.backWord_of_draining hdrain hc]
        exact State.stores_write hmem _ _ _
      · rw [Bus.takeBack_eq hwbq hbound.2, hdrain]
        rfl
  · have heq := Part.admitEntry_eq hwait hfirst hplace hdrain htodo hwork
    have hkeeps := Part.keepsBut_trans (Part.withBus_keeps { s.part.bus with wbWait := ws, wbq := s.part.bus.wbq ++ [w.first] }
      s.part) (Part.enterAll_keeps w.owner w.later _)
    have hpart : s.part.work Part.admitEntry = _ := (Part.work_of_bus hm hcur (by rw [heq]; exact hkeeps)).trans heq
    refine ⟨_, rfl, ?_⟩
    rw [hpart]
    obtain ⟨-, -, -, -, -, hprefix⟩ := Part.enterAll_entries w.owner w.later
      { s.part with bus := { s.part.bus with wbWait := ws, wbq := s.part.bus.wbq ++ [w.first] } }
    refine ⟨hprefix, rfl, rfl, rfl, hkeeps, fun hlater => ?_⟩
    rw [hlater]
    rfl
  · have heq := Part.admitLog_eq hwait hplace
    have hkeeps := Part.withBus_keeps { s.part.bus with staging := s.part.bus.staging ++ [r], logWait := rest } s.part
    have hstep : s.part.admitLog.beginDrain = s.part.admitLog := by
      refine Part.beginDrain_of fun es before later h => ?_
      rw [heq, hdrain] at h
      exact absurd h nofun
    have hpart : (s.part.work fun p => p.admitLog.beginDrain) = _ :=
      (Part.work_of_bus hm hcur (by rw [hstep, heq]; exact hkeeps)).trans (hstep.trans heq)
    refine ⟨_, rfl, ?_⟩
    rw [hpart]
    exact ⟨⟨rfl, rfl, rfl, hkeeps⟩, rfl⟩

/-! ### The staging buffer -/

theorem Cause.getLsbD_bits (c : Cause) (i : Nat) : c.bits.getLsbD i = decide (i = c.index) := by
  have hlt : c.index < 10 := by cases c <;> decide
  rw [Cause.bits, BitVec.getLsbD_twoPow]
  simp [hlt, eq_comm]

/-- A cause asked for is set where it is enabled, and no other changes (R173). -/
theorem Part.raise_causes (c : Cause) (p : Part) : (p.raise c).notice.causes =
    if p.causeEnable.getLsbD c.index = true then p.notice.causes ||| c.bits else p.notice.causes := by
  unfold Part.raise
  by_cases hen : p.causeEnable.getLsbD c.index = true
  · by_cases hset : p.notice.causes.getLsbD c.index = true
    · rw [if_neg (by simp [hset]), if_pos hen]
      refine BitVec.eq_of_getLsbD_eq fun i _ => ?_
      rw [BitVec.getLsbD_or, Cause.getLsbD_bits]
      by_cases hi : i = c.index
      · simp [hi, hset]
      · simp [hi]
    · rw [if_pos (by simp [hen, hset]), if_pos hen]
      simp
  · rw [if_neg (by simp [hen]), if_neg hen]

theorem Part.raise_entries (c : Cause) (p : Part) : p.bus.keepsButEntries (p.raise c).bus := by
  unfold Part.raise
  split
  · exact Part.enter_entries _ _ { p with notice := { p.notice with causes := p.notice.causes ||| c.bits } }
  · exact Bus.keepsButEntries_refl _

/-- A step that changes of the Bus Path and the Notice Unit, and there not the trouble pattern, settles without effect. -/
theorem Part.settle_of_notice {p q : Part} (h : p.keepsBut [.bus, .notice] q) (hcur : p.troubleCurrent)
    (htrouble : q.notice.trouble = p.notice.trouble) : Part.settle p q = q := by
  have hdue : q.troubleDue = p.troubleDue := Part.troubleDue_of_keeps h
  refine Part.settle_of_current ?_ (Part.statusWord_congr h.mode htrouble (by rw [h.mirrors]) (by rw [h.time])
    (by rw [h.points]) (by rw [h.queue]))
  rw [hdue, htrouble]
  exact hcur

/-- The shown head advances past a slot, which may bring it to the tail (R170). -/
theorem Part.advanceShown_spec {p : Part} {h : Heads} (hh : p.notice.heads = some h) (slot : Fin 32) :
    p.keepsBut [.bus, .notice] (p.advanceShown slot) ∧ p.bus.keepsButEntries (p.advanceShown slot).bus ∧
      (p.advanceShown slot).notice = { p.notice with
        heads := some { h with shown := slot + 1 }
        causes := if (slot + 1).val = p.logTail ∧ p.causeEnable.getLsbD Cause.logwrap.index = true then
          p.notice.causes ||| Cause.logwrap.bits else p.notice.causes } := by
  have hentered : ∀ q : Part, q.keepsBut [.bus, .notice] (q.enter .noticeUnit 0x015) := fun q =>
    Part.keepsBut_mono (Part.enter_keeps _ _ q) (by simp)
  have hshown : p.keepsBut [.bus, .notice] { p with notice := { p.notice with heads := some { h with shown := slot + 1 } } } :=
    fun b hb => by cases b <;> simp [Block.same] at hb ⊢
  have hkeeps := Part.keepsBut_trans hshown (hentered _)
  have hentries := Part.enter_entries .noticeUnit 0x015
    { p with notice := { p.notice with heads := some { h with shown := slot + 1 } } }
  have hnotice := Part.enter_notice .noticeUnit 0x015
    { p with notice := { p.notice with heads := some { h with shown := slot + 1 } } }
  simp only [Part.advanceShown, hh]
  generalize Part.enter .noticeUnit 0x015 { p with notice := { p.notice with heads := some { h with shown := slot + 1 } } } = q
    at hkeeps hentries hnotice
  have htail : q.logTail = p.logTail := by simp only [Part.logTail, Part.mirror_of_mirrors hkeeps.mirrors]
  have henable : q.causeEnable = p.causeEnable := by simp only [Part.causeEnable, Part.mirror_of_mirrors hkeeps.mirrors]
  rw [htail]
  by_cases hwrap : (slot + 1).val = p.logTail
  · rw [if_pos hwrap]
    refine ⟨Part.keepsBut_trans hkeeps fun b hb => by cases b <;> simp [Block.same] at hb ⊢,
      Bus.keepsButEntries_trans hentries (Part.raise_entries _ q), ?_⟩
    rw [Part.raise_notice, Part.raise_causes, henable, hnotice]
    simp [hwrap]
  · rw [if_neg hwrap]
    refine ⟨hkeeps, hentries, hnotice.trans ?_⟩
    simp [hwrap]

/-- What a write of the staging buffer does to the part, once memory has the word (R14, R170). -/
def Part.stagedOn (r : Staged) (p : Part) : Part :=
  if p.bus.stagePos < 3 then { p with bus := { p.bus with stagePos := p.bus.stagePos + 1 } }
  else Part.advanceShown r.slot { p with bus := p.bus.takeStaged }

theorem State.stagingWrite_eq {s : State} {r : Staged} {rest : List Staged} (hm : s.part.mode.live = true)
    (hmay : s.part.bus.mayStage = true) (hstaging : s.part.bus.staging = r :: rest) : s.stagingWrite = { s with
      mem := s.mem.write (s.wordAddress (logOffset r.slot.val s.part.bus.stagePos)) (r.record.word s.part.bus.stagePos)
      part := Part.settle s.part (s.part.stagedOn r) } := by
  unfold State.stagingWrite
  split
  · rename_i r' rest' _ hfound
    rw [hstaging, List.cons.injEq] at hfound
    obtain ⟨rfl, -⟩ := hfound
    simp only [Part.work_of_live hm]
    rfl
  · rename_i hnone
    exact absurd hstaging (hnone _ _ (by rw [hm, hmay]; rfl))

/-- Settles O21: the words of a record go out one by one, and the last takes the record with it. -/
theorem stagingWritesRecordsInOrder : Obligations.StagingWritesRecordsInOrder := by
  intro r rest h s hmem hm hdrain hstaging hheads hcur hpos
  have hmay := Bus.mayStage_of_no_drain hdrain
  have hlive := Mode.live_of_serving hm
  have hwritten := State.stagingWrite_eq hlive hmay hstaging
  by_cases hlast : s.part.bus.stagePos < 3
  · have hstep : Part.settle s.part (s.part.stagedOn r) =
        { s.part with bus := { s.part.bus with stagePos := s.part.bus.stagePos + 1 } } := by
      rw [Part.stagedOn, if_pos hlast]
      exact Part.settle_of_keeps (Part.withBus_keeps _ _) hcur rfl rfl rfl
    rw [hstep] at hwritten
    exact ⟨_, congrArg Host.Outcome.next hwritten, State.stores_write hmem _ _ _,
      Part.keepsBut_mono (Part.withBus_keeps _ _) (by simp), fun _ => ⟨rfl, rfl⟩, fun h => by omega⟩
  · obtain ⟨hkeeps, hentries, hnotice⟩ := Part.advanceShown_spec (p := { s.part with bus := s.part.bus.takeStaged }) hheads r.slot
    have hblocks := Part.keepsBut_trans (Part.keepsBut_mono (Part.withBus_keeps s.part.bus.takeStaged s.part)
      (cs := [.bus, .notice]) (by simp)) hkeeps
    have hstep : Part.settle s.part (s.part.stagedOn r) = Part.advanceShown r.slot { s.part with bus := s.part.bus.takeStaged } := by
      rw [Part.stagedOn, if_neg hlast]
      exact Part.settle_of_notice hblocks hcur (by rw [hnotice])
    rw [hstep] at hwritten
    obtain ⟨hstaged, hposition, -⟩ := hentries
    refine ⟨_, congrArg Host.Outcome.next hwritten, State.stores_write hmem _ _ _, hblocks, fun h => absurd h hlast,
      fun _ => ⟨hstaged.trans ?_, hposition, congrArg Notice.heads hnotice, congrArg Notice.causes hnotice⟩⟩
    simp [Bus.takeStaged, hstaging]

end Sys2Proof.Machine
end

section
/-! PROOFS. Commands that are not accepted (R175, R176). -/

namespace Sys2Proof.Machine

theorem exec_commandRow (code : BitVec 4) (tag : BitVec 8) (spare : BitVec 4) (s : State) :
    exec (commandRow code tag spare) s = .next (s.commandWrite code tag spare) := by
  obtain ⟨⟨n, hn⟩⟩ := code
  interval_cases n <;> rfl

/-- A command that is refused is answered, and nothing else of it takes effect. -/
theorem Part.takeCommand_refused {p : Part} {w : Word} {st : ResultStatus} (h : p.refusal (commandOf w).code = some st) :
    p.takeCommand w = (p.setMirror 0x010 w).answerRefused (commandOf w) st := by
  have h' : (p.setMirror 0x010 w).refusal (commandOf w).code = some st := h
  simp [Part.takeCommand, Part.judge, h']

/-- An answer does not depend on the mirror of the command word. -/
theorem Part.answered_setMirror_command {p q : Part} (hwords : p.mirrors.words.wf = true) {w : Word} {code : BitVec 4}
    {tag : BitVec 8} {st : ResultStatus} (h : (p.setMirror 0x010 w).answered code tag st q) : p.answered code tag st q := by
  obtain ⟨hshows, hcause, hlog⟩ := h
  rw [Part.causeEnable_setMirror_command hwords] at hcause
  exact ⟨hshows, hcause, hlog⟩

theorem Part.finalResult_keeps (c : Command) (st : ResultStatus) (p : Part) :
    p.keepsBut [.bus, .notice] (p.finalResult c st) := by
  intro b hb
  cases b <;> simp [Block.same] at hb ⊢

/-- While a RESTART's final result is not being finished, a refused command has its result at once (R175, R178). -/
theorem Part.answerRefused_spec {p : Part} (h : ∀ es before later, p.bus.drain ≠ some (.finishing es before later))
    (c : Command) (st : ResultStatus) : p.answered c.code c.tag st (p.answerRefused c st) ∧
      (p.answerRefused c st).notice.inProgress = p.notice.inProgress ∧
      p.keepsBut [.bus, .notice] (p.answerRefused c st) := by
  have hanswered := Part.finalResult_answered c st p
  have hnotice : (p.finalResult c st).notice.inProgress = p.notice.inProgress := by rw [Part.finalResult_notice]
  cases hdrain : p.bus.drain with
  | none =>
    rw [Part.answerRefused_of hdrain]
    exact ⟨hanswered, hnotice, p.finalResult_keeps c st⟩
  | some d =>
    cases d with
    | finishing es before later => exact absurd hdrain (h es before later)
    | draining n offs raised =>
      simp only [Part.answerRefused, hdrain]
      exact ⟨hanswered, hnotice, Part.keepsBut_trans (p.finalResult_keeps c st)
        (Part.keepsBut_mono (Part.withBus_keeps _ _) (by simp))⟩

/-- The refusal of R175 in the words of O34. -/
theorem Part.refusal_of_not_accepted {p : Part} {code : BitVec 4}
    (h : unknownCode code = true ∨ p.mode = .loading ∨ p.notice.inProgress.isSome = true ∨
      (p.mode = .unconfigured ∧ code ∉ ([4, 7, 8, 10] : List (BitVec 4))) ∨ (p.mode = .running ∧ code = 5)) :
    p.refusal code = some (if unknownCode code = true then .unknown
      else if p.mode = .loading then (if code = 10 then .refusedBusy else .refusedState)
      else if p.notice.inProgress.isSome = true then .refusedBusy
      else .refusedState) := by
  unfold Part.refusal
  by_cases hunknown : unknownCode code = true
  · simp [hunknown]
  by_cases hloading : p.mode = .loading
  · simp [hunknown, hloading]
  by_cases hbusy : p.notice.inProgress.isSome = true
  · simp [hunknown, hloading, hbusy]
  have hnot : accepts p.mode code.toNat = false := by
    rcases h with h | h | h | ⟨hmode, hcode⟩ | ⟨hmode, hcode⟩
    · exact absurd h hunknown
    · exact absurd h hloading
    · exact absurd h hbusy
    · have hne : ∀ c ∈ ([4, 7, 8, 10] : List (BitVec 4)), code.toNat ≠ c.toNat := fun c hc heq =>
        hcode (BitVec.eq_of_toNat_eq heq ▸ hc)
      simp only [accepts, hmode, Bool.or_eq_false_iff, beq_eq_false_iff_ne]
      exact ⟨⟨⟨hne 4 (by simp), hne 7 (by simp)⟩, hne 8 (by simp)⟩, hne 10 (by simp)⟩
    · rw [hmode, hcode]
      rfl
  simp [hunknown, hloading, hbusy, hnot]

/-- Settles O34: by the order of R175. -/
theorem commandsAreRefusedInOrder : Obligations.CommandsAreRefusedInOrder := by
  intro code tag spare s hm hw hdrain hcase
  have hrefusal := Part.refusal_of_not_accepted hcase
  generalize (if unknownCode code = true then ResultStatus.unknown
    else if s.part.mode = .loading then (if code = 10 then .refusedBusy else .refusedState)
    else if s.part.notice.inProgress.isSome = true then .refusedBusy
    else .refusedState) = st at hrefusal
  have hcommand := commandOf_commandWord code tag spare
  have htaken : s.part.takeCommand (commandWord code tag spare) =
      (s.part.setMirror 0x010 (commandWord code tag spare)).answerRefused { code, tag } st := by
    rw [Part.takeCommand_refused (st := st) (by rw [hcommand]; exact hrefusal), hcommand]
  obtain ⟨hanswered, hprogress, hkeeps⟩ := Part.answerRefused_spec
    (p := s.part.setMirror 0x010 (commandWord code tag spare)) hdrain { code, tag } st
  have hwritten := State.commandWrite_eq hm hw.2.1 code tag spare
  rw [htaken] at hwritten
  refine ⟨_, (exec_commandRow code tag spare s).trans (congrArg Host.Outcome.next hwritten),
    State.commandTaken_of hw (by simp) hkeeps, ?_, ?_⟩
  · obtain ⟨-, -, hkept, -⟩ := Part.settle_trouble s.part
      ((s.part.setMirror 0x010 (commandWord code tag spare)).answerRefused { code, tag } st)
    exact hkept.trans hprogress
  · exact Part.answered_settle (Part.answered_setMirror_command hw.2.2 hanswered) _

end Sys2Proof.Machine
end

section
/-! PROOFS. Panel writes of single words in STOPPED and RUNNING (R7, R27, R104, R126, R156, R160, R161, R171, R174). -/

namespace Sys2Proof.Machine

/-! ### What a write in STOPPED and RUNNING leaves -/

/-- A write in STOPPED and RUNNING stores its word, fills its mirror, and else has the effect of the word's owner. -/
theorem State.servingWrite_spec {s : State} {off : Nat} (hoff : off < 4096) (hm : s.part.mode.serving = true) (hw : s.writable)
    (howned : partOwned off = false) (hpoint : ∀ i, windowWord off ≠ .point i 0) {w : Word} {q : Part} {bs : List Block}
    (htaken : s.part.takeServing off w = q) (hkeeps : (s.part.setMirror off w).keepsBut bs q) (hbs : .mirrors ∉ bs) :
    ∃ t, s.panelWriteAt off w = t ∧ t.part = Part.settle s.part q ∧ s.stores off w t ∧
      (∀ a, t.part.mirror a = if a = off then w &&& mirrorMask off else s.part.mirror a) ∧
      t.part.mirrors.valid = s.part.mirrors.valid ∧ s.part.keepsBut (.bus :: .notice :: .mirrors :: bs) t.part ∧
      (s.part.bus.keepsButEntries q.bus → s.part.bus.keepsButEntries t.part.bus) ∧
      (s.part.notice.keepsButTrouble q.notice → s.part.notice.keepsButTrouble t.part.notice) := by
  obtain ⟨hmem, hb, hwords⟩ := hw
  have hwritten := State.servingWrite_eq hoff hm hb (Part.actsOn_of_not_owned howned) hpoint w
  rw [htaken] at hwritten
  have hmirrors : (Part.settle s.part q).mirrors = (s.part.setMirror off w).mirrors := by
    rw [Part.settle_mirrors, hkeeps.mirrors hbs]
  have h₁ := Part.keepsBut_mono (Part.setMirror_keeps off w s.part) (cs := .bus :: .notice :: .mirrors :: bs) (by simp)
  have h₂ := Part.keepsBut_mono hkeeps (cs := .bus :: .notice :: .mirrors :: bs) (by intro b hb; simp [hb])
  have h₃ := Part.keepsBut_mono (Part.settle_keeps s.part q) (cs := .bus :: .notice :: .mirrors :: bs) (by simp)
  refine ⟨_, hwritten, rfl, State.stores_write hmem _ _ _, fun a => ?_, (by simp only [hmirrors]; rfl),
    Part.keepsBut_trans (Part.keepsBut_trans h₁ h₂) h₃,
    fun h => Bus.keepsButEntries_trans h (Part.settle_entries _ _),
    fun h => Notice.keepsButTrouble_trans h (Part.settle_trouble _ _)⟩
  exact (Part.mirror_of_mirrors hmirrors a).trans (Part.mirror_setMirror hwords off w a)

/-- A word of the configuration block that the panel owns. -/
theorem config_written {n : Fin 32} (hn : n.val ∉ ownedConfig) :
    n.val < 4096 ∧ partOwned n.val = false ∧ (∀ i, windowWord n.val ≠ .point i 0) ∧ mirrorMask n.val = 0xFFFF := by
  refine ⟨by omega, by simpa [partOwned, windowWord_config] using hn, fun i => by simp [windowWord_config], ?_⟩
  simp only [mirrorMask, windowWord_config]
  exact if_neg hn

theorem and_mask (w : Word) : w &&& 0xFFFF = w := BitVec.and_allOnes

/-! ### Settling without effect, of more blocks -/

/-- A step that changes mirrors, causes, routes or the arbiter settles without effect. -/
theorem Part.settle_of_trouble {bs : List Block} {p q : Part} (h : p.keepsBut bs q) (hcur : p.troubleCurrent)
    (hreload : q.mirrors.reload.isSome = p.mirrors.reload.isSome) (htrouble : q.notice.trouble = p.notice.trouble)
    (hmains : q.time.mainsActive = p.time.mainsActive)
    (hm : .mode ∉ bs := by decide) (hq : .queue ∉ bs := by decide) (hl : .lines ∉ bs := by decide)
    (hh : .heartbeat ∉ bs := by decide) (hp : .points ∉ bs := by decide) : Part.settle p q = q := by
  have hdue : q.troubleDue = p.troubleDue := Part.troubleDue_of_keeps h hm hq hl hh hp
  refine Part.settle_of_current ?_ (Part.statusWord_congr (h.mode hm) htrouble hreload hmains
    (by rw [h.points hp]) (by rw [h.queue hq]))
  rw [hdue, htrouble]
  exact hcur

/-! ### The cause word and the cause enable -/

/-- The Notice Unit after the panel has written the cause word (R7). -/
def Part.causesCleared (w : Word) (p : Part) : Part :=
  { p with notice := { p.notice with causes := p.notice.causes &&& ~~~ (w.setWidth 10) } }

theorem windowWord_causeWord : windowWord 0x013 = .config 0x13 := by decide

theorem Part.actsOn_causeWord {p : Part} (hm : p.mode.live = true) : p.actsOn 0x013 = true :=
  Part.actsOn_of_config hm (n := 0x13) (by decide) fun h => absurd h (by decide)

theorem Part.clearByWrite_causeWord {p : Part} (hm : p.mode.live = true) (w : Word) :
    p.clearByWrite 0x013 w = p.causesCleared w := by
  simp [Part.clearByWrite, Part.actsOn_causeWord hm, windowWord_causeWord, Part.causesCleared]

theorem Part.downstream_causeWord {p : Part} (hm : p.mode.live = true) (w : Word) :
    p.downstream 0x013 w = p.notice.causes.setWidth 16 := by
  simp [Part.downstream, Part.actsOn_causeWord hm, windowWord_causeWord, Part.ownedWord]

/-- The cause word has no mirror: taking it changes at most what is kept of it, which is nothing. -/
theorem Part.takeWrite_causeWord {p : Part} (hm : p.mode.live = true) (w : Word) :
    p.takeWrite 0x013 w = p.setMirror 0x013 w ∨ p.takeWrite 0x013 w = p := by
  have hrank : loadRank 0x013 = none := by decide
  cases hmode : p.mode with
  | off | xrst | bypass => simp [hmode, Mode.live] at hm
  | loading =>
    refine .inr ?_
    have hread : p.loadHasRead 0x013 = false := by
      unfold Part.loadHasRead
      rw [hrank]
      cases p.mirrors.load <;> rfl
    simp [Part.takeWrite, hmode, Part.takeLoading, hread]
  | unconfigured => exact .inr (by simp [Part.takeWrite, hmode, Part.takeUnconfigured])
  | stopped | running => exact .inl (by simp [Part.takeWrite, hmode, windowWord_causeWord, Part.takeServing])

theorem State.causeWordWrite_spec {s : State} (hm : s.part.mode.live = true) (hw : s.writable) (hcur : s.part.troubleCurrent)
    (w : Word) : ∃ t, s.panelWriteAt 0x013 w = t ∧
      s.stores 0x013 ((s.part.notice.causes &&& ~~~ (w.setWidth 10)).setWidth 16) t ∧
      t.part.notice = (s.part.causesCleared w).notice ∧ s.part.keepsBut [.mirrors, .notice] t.part ∧
      ∀ a, a ≠ 0x013 → t.part.mirror a = s.part.mirror a := by
  obtain ⟨hmem, hb, hwords⟩ := hw
  have hcaptures : s.part.captures 0x013 w = false :=
    Part.captures_of_not_point (fun i => by simp [windowWord_causeWord]) w
  have hwritten := State.panelWriteAt_eq (w := w) (by decide) hm hb (Part.stalls_eq_false rfl (by decide) hcaptures)
  rw [Part.clearByWrite_causeWord hm, Part.downstream_causeWord (p := s.part.causesCleared w) hm] at hwritten
  have hcleared : s.part.keepsBut [.mirrors, .notice] (s.part.causesCleared w) := fun b hb => by
    cases b <;> simp [Block.same, Part.causesCleared] at hb ⊢
  have htaken : s.part.keepsBut [.mirrors, .notice] ((s.part.causesCleared w).takeWrite 0x013 w) ∧
      ((s.part.causesCleared w).takeWrite 0x013 w).notice = (s.part.causesCleared w).notice ∧
      ((s.part.causesCleared w).takeWrite 0x013 w).mirrors.reload = s.part.mirrors.reload ∧
      ∀ a, a ≠ 0x013 → ((s.part.causesCleared w).takeWrite 0x013 w).mirror a = s.part.mirror a := by
    rcases Part.takeWrite_causeWord (p := s.part.causesCleared w) hm w with h | h <;> rw [h]
    · refine ⟨Part.keepsBut_trans hcleared (Part.keepsBut_mono (Part.setMirror_keeps _ _ _) (by simp)), rfl, rfl,
        fun a ha => ?_⟩
      rw [Part.mirror_setMirror (p := s.part.causesCleared w) hwords, if_neg ha]
      rfl
    · exact ⟨hcleared, rfl, rfl, fun a _ => rfl⟩
  obtain ⟨hkeeps, hnotice, hreload, hmirror⟩ := htaken
  have hsettle := Part.settle_of_trouble hkeeps hcur (by rw [hreload]) (by rw [hnotice]; rfl) (by rw [hkeeps.time])
  rw [hsettle] at hwritten
  exact ⟨_, hwritten, State.stores_write hmem _ _ _, hnotice, hkeeps, hmirror⟩

/-- The cause enable, written in any state in which the part works (R174). -/
theorem State.causeEnableWrite_spec {s : State} (hm : s.part.mode.live = true) (hw : s.writable) (hcur : s.part.troubleCurrent)
    (w : Word) : ∃ t, s.panelWriteAt 0x014 w = t ∧ s.stores 0x014 w t ∧ s.part.keepsBut [.mirrors] t.part ∧
      s.part.keepsMirrorsBut [0x014] t.part ∧ t.part.mirror 0x014 = w := by
  obtain ⟨hmem, hb, hwords⟩ := hw
  have hwritten := State.causeEnableWrite_eq hm hb w
  rw [Part.settle_of_mirrors (Part.setMirror_keeps _ _ _) hcur rfl] at hwritten
  exact ⟨_, hwritten, State.stores_write hmem _ _ _, Part.setMirror_keeps _ _ _, Part.keepsMirrorsBut_setMirror hwords _ _,
    Part.mirror_setMirror_causeEnable hwords w⟩

/-! ### Changes of a field -/

/-- Two words differ under a mask of their lowest bits when the fields of those bits differ. -/
theorem masked_ne_iff {k : Nat} {mask : Word} (hmask : ∀ i, mask.getLsbD i = decide (i < k)) (a b : Word) :
    (a ^^^ b) &&& mask ≠ 0 ↔ a.extractLsb' 0 k ≠ b.extractLsb' 0 k := by
  refine not_congr ⟨fun h => BitVec.eq_of_getLsbD_eq fun i hi => ?_, fun h => BitVec.eq_of_getLsbD_eq fun i hi => ?_⟩
  · have hbit : ((a.getLsbD i ^^ b.getLsbD i) && mask.getLsbD i) = false := by
      rw [← BitVec.getLsbD_xor, ← BitVec.getLsbD_and, h]
      exact BitVec.getLsbD_zero
    rw [hmask, decide_eq_true hi, Bool.and_true, bne_eq_false_iff_eq] at hbit
    rw [BitVec.getLsbD_extractLsb', BitVec.getLsbD_extractLsb', Nat.zero_add, hbit]
  · have hzero : (0 : Word).getLsbD i = false := BitVec.getLsbD_zero
    rw [BitVec.getLsbD_and, BitVec.getLsbD_xor, hmask, hzero]
    by_cases hik : i < k
    · have hbit := congrArg (BitVec.getLsbD · i) h
      simp only [BitVec.getLsbD_extractLsb', hik, decide_true, Bool.true_and, Nat.zero_add] at hbit
      rw [hbit, Bool.xor_self, Bool.false_and]
    · rw [decide_eq_false hik, Bool.and_false]

/-- A write differs from its mirror in a field of the lowest `k` bits (R27). -/
theorem Part.changes_iff {p : Part} {off : Nat} {w : Word} {k : Nat} (hk : k ≤ 16)
    (hmask : fieldMask off = BitVec.ofNat 16 (2 ^ k - 1)) :
    p.changes off w = decide ((p.mirror off).extractLsb' 0 k ≠ w.extractLsb' 0 k) := by
  have hbits : ∀ i, (fieldMask off).getLsbD i = decide (i < k) := fun i => by
    rw [hmask, BitVec.getLsbD_ofNat, Nat.testBit_two_pow_sub_one]
    by_cases h : i < k
    · rw [decide_eq_true h, decide_eq_true (by omega), Bool.and_true]
    · rw [decide_eq_false h, Bool.and_false]
  unfold Part.changes
  exact decide_eq_decide.mpr (masked_ne_iff hbits _ _)

theorem Part.withArbiter_keeps (a : Arbiter) (p : Part) : p.keepsBut [.arbiter] { p with arbiter := a } := by
  intro b hb
  cases b <;> simp [Block.same] at hb ⊢

theorem Part.occasion_ite_keeps (c : Prop) [Decidable c] (p : Part) : p.keepsBut [.arbiter] (if c then p.occasion else p) := by
  split
  · exact p.occasion_keeps
  · exact Part.keepsBut_refl _ p

theorem Part.occasion_ite_arbiter (c : Bool) (p : Part) : (if c then p.occasion else p).arbiter =
    { p.arbiter with decisionPending := p.arbiter.decisionPending || c } := by
  cases c
  · simp
  · simp [Part.occasion]

theorem Part.takeServing_battery (w : Word) (p : Part) : p.takeServing 0x005 w =
    if p.changes 0x005 w then (p.setMirror 0x005 w).occasion else p.setMirror 0x005 w := by
  have hword : windowWord 0x005 = .config 0x05 := by decide
  simp [Part.takeServing, hword]

/-- The offset of a schedule word. -/
def scheduleOffset : ScheduleWord → Nat
  | .minute => 0x006
  | .interval => 0x007

theorem Part.takeServing_schedule (k : ScheduleWord) (w : Word) (p : Part) : p.takeServing (scheduleOffset k) w =
    if p.changes (scheduleOffset k) w then (p.setMirror (scheduleOffset k) w).setNextTest else p.setMirror (scheduleOffset k) w := by
  have hminute : windowWord 0x006 = .config 0x06 := by decide
  have hinterval : windowWord 0x007 = .config 0x07 := by decide
  cases k <;> simp [Part.takeServing, scheduleOffset, hminute, hinterval]

theorem Part.setNextTest_ite_keeps (c : Prop) [Decidable c] (p : Part) :
    p.keepsBut [.time] (if c then p.setNextTest else p) ∧ p.time.kept (if c then p.setNextTest else p).time := by
  split
  · exact ⟨fun b hb => by cases b <;> simp [Block.same, Part.setNextTest] at hb ⊢, rfl, rfl, rfl, rfl, rfl, rfl, rfl⟩
  · exact ⟨Part.keepsBut_refl _ p, rfl, rfl, rfl, rfl, rfl, rfl, rfl⟩

/-- A write that changes no condition of trouble and nothing the status word shows. -/
theorem State.servingWrite_settled {s : State} {off : Nat} (hoff : off < 4096) (hm : s.part.mode.serving = true)
    (hw : s.writable) (hcur : s.part.troubleCurrent) (howned : partOwned off = false)
    (hpoint : ∀ i, windowWord off ≠ .point i 0) {w : Word} {q : Part} {bs : List Block}
    (htaken : s.part.takeServing off w = q) (hkeeps : (s.part.setMirror off w).keepsBut bs q)
    (hmains : q.time.mainsActive = s.part.time.mainsActive)
    (hmode : .mode ∉ .mirrors :: bs := by decide) (hqueue : .queue ∉ .mirrors :: bs := by decide)
    (hlines : .lines ∉ .mirrors :: bs := by decide) (hheartbeat : .heartbeat ∉ .mirrors :: bs := by decide)
    (hpoints : .points ∉ .mirrors :: bs := by decide) (hnotice : .notice ∉ .mirrors :: bs := by decide)
    (hbs : .mirrors ∉ bs := by decide) :
    ∃ t, s.panelWriteAt off w = t ∧ t.part = q ∧ s.stores off w t ∧
      (∀ a, t.part.mirror a = if a = off then w &&& mirrorMask off else s.part.mirror a) ∧
      s.part.keepsBut (.mirrors :: bs) t.part := by
  obtain ⟨hmem, hb, hwords⟩ := hw
  have hmirrors : q.mirrors = (s.part.setMirror off w).mirrors := hkeeps.mirrors hbs
  have hall : s.part.keepsBut (.mirrors :: bs) q :=
    Part.keepsBut_trans (Part.keepsBut_mono (Part.setMirror_keeps off w s.part) (by simp))
      (Part.keepsBut_mono hkeeps (List.subset_cons_self _ _))
  have hsettle : Part.settle s.part q = q :=
    Part.settle_of_trouble hall hcur (by rw [hmirrors]; rfl) (by rw [hall.notice hnotice]) hmains hmode hqueue hlines
      hheartbeat hpoints
  have hwritten := State.servingWrite_eq hoff hm hb (Part.actsOn_of_not_owned howned) hpoint w
  rw [htaken, hsettle] at hwritten
  exact ⟨_, hwritten, rfl, State.stores_write hmem _ _ _,
    fun a => (Part.mirror_of_mirrors hmirrors a).trans (Part.mirror_setMirror hwords off w a), hall⟩

/-- The next test day after a write of a schedule word (R156). -/
theorem Part.setNextTest_ite_nextTest (c : Bool) (p : Part) : (if c then p.setNextTest else p).time.nextTest =
    if c then
      if testInterval (p.mirror 0x007) = 0 then none
      else if p.time.minute < testMinute (p.mirror 0x006) then some p.time.day
      else some (p.time.day + 1)
    else p.time.nextTest := by
  cases c <;> rfl

theorem State.scheduleWrite_spec {s : State} (hm : s.part.mode.serving = true) (hw : s.writable) (hcur : s.part.troubleCurrent)
    (k : ScheduleWord) (w : Word) : ∃ t, s.panelWriteAt (scheduleOffset k) w = t ∧ s.stores (scheduleOffset k) w t ∧
      s.part.keepsBut [.mirrors, .time] t.part ∧
      (∀ a, t.part.mirror a = if a = scheduleOffset k then w else s.part.mirror a) ∧ s.part.time.kept t.part.time ∧
      t.part.time.nextTest =
        if s.part.changes (scheduleOffset k) w then
          if testInterval (t.part.mirror 0x007) = 0 then none
          else if s.part.time.minute < testMinute (t.part.mirror 0x006) then some s.part.time.day
          else some (s.part.time.day + 1)
        else s.part.time.nextTest := by
  have hword : scheduleOffset k < 4096 ∧ partOwned (scheduleOffset k) = false ∧
      (∀ i, windowWord (scheduleOffset k) ≠ .point i 0) ∧ mirrorMask (scheduleOffset k) = 0xFFFF := by
    cases k
    · exact config_written (n := 0x06) (by decide)
    · exact config_written (n := 0x07) (by decide)
  obtain ⟨hoff, howned, hpoint, hmask⟩ := hword
  obtain ⟨hblocks, hkept⟩ := Part.setNextTest_ite_keeps (s.part.changes (scheduleOffset k) w = true)
    (s.part.setMirror (scheduleOffset k) w)
  obtain ⟨t, ht, hpart, hstores, hmirror, hkeeps⟩ := State.servingWrite_settled hoff hm hw hcur howned hpoint
    (s.part.takeServing_schedule k w) hblocks hkept.2.2.2.2.2.1
  have hmirrors : ∀ a, t.part.mirror a = (s.part.setMirror (scheduleOffset k) w).mirror a := by
    rw [hpart]
    exact Part.mirror_of_mirrors hblocks.mirrors
  rw [hmask, and_mask] at hmirror
  refine ⟨t, ht, hstores, hkeeps, hmirror, by rw [hpart]; exact hkept, ?_⟩
  rw [hmirrors, hmirrors, hpart]
  exact Part.setNextTest_ite_nextTest _ _

theorem Part.changes_schedule (k : ScheduleWord) (w : Word) (p : Part) : p.changes (scheduleOffset k) w = match k with
    | .minute => decide ((p.mirror 0x006).extractLsb' 0 11 ≠ w.extractLsb' 0 11)
    | .interval => decide ((p.mirror 0x007).extractLsb' 0 4 ≠ w.extractLsb' 0 4) := by
  cases k
  · exact Part.changes_iff (off := 0x006) (k := 11) (by decide) (by decide)
  · exact Part.changes_iff (off := 0x007) (k := 4) (by decide) (by decide)

theorem Part.logTail_of_mirror {p : Part} {w : Word} (h : p.mirror 0x016 = w) :
    p.logTail = if field w 0 8 < 32 then field w 0 8 else 0 := by
  rw [Part.logTail, h]

/-- Settles O35: the cause word reaches the Notice Unit, each setting its mirror and the owner that reads it. -/
theorem causeAndSettingWritesTakeEffectAtOnce : Obligations.CauseAndSettingWritesTakeEffectAtOnce := by
  refine ⟨fun w s hm hw hcur => ⟨?_, ?_⟩, fun w s hm hw hcur => ⟨?_, fun k => ?_, ?_⟩⟩
  · obtain ⟨t, ht, hstores, hnotice, hkeeps, hmirror⟩ := State.causeWordWrite_spec hm hw hcur w
    refine ⟨t, congrArg Host.Outcome.next ht, hstores, hnotice, ?_, hkeeps, hmirror⟩
    have henable : t.part.causeEnable = s.part.causeEnable := by rw [Part.causeEnable, hmirror _ (by decide), Part.causeEnable]
    rw [Part.irq_of_live (by rw [hkeeps.mode]; exact hm), henable]
  · obtain ⟨t, ht, hstores, hkeeps, hmirrors, hmirror⟩ := State.causeEnableWrite_spec hm hw hcur w
    refine ⟨t, congrArg Host.Outcome.next ht, hstores, hmirror, ?_, hkeeps, fun a ha => hmirrors.2 a (by simpa using ha)⟩
    rw [Part.irq_of_live (by rw [hkeeps.mode]; exact hm), Part.causeEnable, hmirror, hkeeps.notice]
  · obtain ⟨hoff, howned, hpoint, hmask⟩ := config_written (n := 0x05) (by decide)
    obtain ⟨t, ht, hpart, hstores, hmirror, hkeeps⟩ := State.servingWrite_settled hoff hm hw hcur howned hpoint
      (s.part.takeServing_battery w) (Part.occasion_ite_keeps _ _)
      (by rw [(Part.occasion_ite_keeps _ _).time, (Part.setMirror_keeps _ _ _).time])
    have harbiter := congrArg Part.arbiter hpart
    rw [Part.occasion_ite_arbiter, Part.changes_iff (k := 3) (by decide) (by decide)] at harbiter
    rw [hmask, and_mask] at hmirror
    exact ⟨t, congrArg Host.Outcome.next ht, hstores, hkeeps, hmirror, by rw [harbiter]; rfl,
      by rw [harbiter]; rfl, by rw [harbiter]; rfl⟩
  · obtain ⟨t, ht, hstores, hkeeps, hmirror, hkept, hnext⟩ := State.scheduleWrite_spec hm hw hcur k w
    rw [Part.changes_schedule] at hnext
    cases k with
    | minute => exact ⟨t, congrArg Host.Outcome.next ht, hstores, hkeeps, hmirror, hkept, hnext⟩
    | interval => exact ⟨t, congrArg Host.Outcome.next ht, hstores, hkeeps, hmirror, hkept, hnext⟩
  · have hplain : (windowWord 0x016).isPlain := by
      rw [show windowWord 0x016 = .config 0x16 by decide]
      simp [WindowWord.isPlain]
    have hwritten := State.plainWrite_eq (by decide) hm hw.2.1 hcur hplain w
    have hmirror : ∀ a, (s.part.setMirror 0x016 w).mirror a = if a = 0x016 then w else s.part.mirror a := fun a => by
      rw [Part.mirror_setMirror hw.2.2, show mirrorMask 0x016 = 0xFFFF by decide, and_mask]
    exact ⟨_, congrArg Host.Outcome.next hwritten, State.stores_write hw.1 _ _ _, Part.setMirror_keeps _ _ _, hmirror,
      Part.logTail_of_mirror (by rw [hmirror, if_pos rfl])⟩

end Sys2Proof.Machine
end

section
/-! PROOFS. Heartbeat supervision, line enables, routes, directory and budgets (R25, R70, R87, R93, R101, R104, R160, R161). -/

namespace Sys2Proof.Machine

/-! ### Heartbeat supervision -/

theorem Part.setHeartbeat_keeps (timer : Option Nat) (silent : Bool) (p : Part) :
    p.keepsBut [.points, .heartbeat] (p.setHeartbeat timer silent) := by
  intro b hb
  unfold Part.setHeartbeat
  simp only
  split <;> cases b <;> simp [Block.same] at hb ⊢

theorem Part.setHeartbeat_heartbeat (timer : Option Nat) (silent : Bool) (p : Part) :
    (p.setHeartbeat timer silent).heartbeat = { timer, silent } := by
  unfold Part.setHeartbeat
  simp only
  split <;> rfl

/-- A change of the panel silent condition is told (R160). -/
theorem Part.setHeartbeat_points (timer : Option Nat) (silent : Bool) (p : Part) : (p.setHeartbeat timer silent).points =
    { p.points with work := p.points.work ++ if silent = p.heartbeat.silent then [] else [.condition 256 silent] } := by
  unfold Part.setHeartbeat
  simp only
  split
  · simp
  · rfl

theorem Part.takeServing_heartbeat (w : Word) (p : Part) : p.takeServing 0x003 w = (p.setMirror 0x003 w).beat := by
  have hword : windowWord 0x003 = .config 0x03 := by decide
  simp [Part.takeServing, hword]

theorem Part.takeServing_period (w : Word) (p : Part) : p.takeServing 0x004 w =
    if p.heartbeatPeriod = Machine.heartbeatPeriod w then p.setMirror 0x004 w else (p.setMirror 0x004 w).periodChanged := by
  have hword : windowWord 0x004 = .config 0x04 := by decide
  simp only [Part.takeServing, hword, Part.heartbeatPeriod]
  rfl

/-- What a change of the heartbeat period makes of the supervision (R161). -/
def Part.periodHeartbeat (period : Nat) (p : Part) : Heartbeat :=
  if period = 0 then { timer := none, silent := false }
  else if p.heartbeat.silent = true then p.heartbeat
  else { timer := some 0, silent := false }

theorem Part.periodChanged_spec (p : Part) :
    p.keepsBut [.points, .heartbeat] p.periodChanged ∧ p.periodChanged.heartbeat = p.periodHeartbeat p.heartbeatPeriod ∧
      p.periodChanged.points = { p.points with work := p.points.work ++
        if p.heartbeatPeriod = 0 ∧ p.heartbeat.silent = true then [.condition 256 false] else [] } := by
  unfold Part.periodChanged Part.periodHeartbeat
  by_cases hzero : p.heartbeatPeriod = 0
  · rw [if_pos hzero, if_pos hzero]
    refine ⟨Part.setHeartbeat_keeps _ _ p, Part.setHeartbeat_heartbeat _ _ p, ?_⟩
    rw [Part.setHeartbeat_points]
    cases p.heartbeat.silent <;> simp [hzero]
  · rw [if_neg hzero, if_neg hzero]
    by_cases hsilent : p.heartbeat.silent = true
    · rw [if_pos hsilent, if_pos hsilent]
      exact ⟨Part.keepsBut_refl _ p, rfl, by simp [hzero]⟩
    · rw [if_neg hsilent, if_neg hsilent]
      refine ⟨Part.setHeartbeat_keeps _ _ p, Part.setHeartbeat_heartbeat _ _ p, ?_⟩
      rw [Part.setHeartbeat_points]
      simp [hzero, hsilent]

/-- Settles O37: the supervision restarts with a heartbeat; a change of the period acts by the condition. -/
theorem heartbeatWritesRestartSupervision : Obligations.HeartbeatWritesRestartSupervision := by
  refine fun w s hm hw => ⟨?_, ?_⟩
  · obtain ⟨hoff, howned, hpoint, hmask⟩ : 0x003 < 4096 ∧ partOwned 0x003 = false ∧ (∀ i, windowWord 0x003 ≠ .point i 0) ∧
        mirrorMask 0x003 = 0xFFFF := config_written (n := 0x03) (by decide)
    have hkeeps := Part.setHeartbeat_keeps (s.part.setMirror 0x003 w).freshTimer false (s.part.setMirror 0x003 w)
    obtain ⟨t, ht, hpart, hstores, hmirror, -, hblocks, hentries, htrouble⟩ :=
      State.servingWrite_spec hoff hm hw howned hpoint (s.part.takeServing_heartbeat w) hkeeps (by decide)
    rw [hmask, and_mask] at hmirror
    have hperiod : (s.part.setMirror 0x003 w).heartbeatPeriod = s.part.heartbeatPeriod := by
      rw [Part.heartbeatPeriod, Part.mirror_setMirror hw.2.2, if_neg (by decide), Part.heartbeatPeriod]
    refine ⟨t, congrArg Host.Outcome.next ht, hstores, by rw [hmirror, if_pos rfl], Part.keepsBut_mono hblocks (by simp),
      hentries (by rw [Part.beat, hkeeps.bus]; exact Bus.keepsButEntries_refl _),
      htrouble (by rw [Part.beat, hkeeps.notice]; exact Notice.keepsButTrouble_refl _), ?_, ?_⟩
    · rw [hpart, Part.settle_heartbeat, Part.beat, Part.setHeartbeat_heartbeat, Part.freshTimer, hperiod]
    · rw [hpart, Part.settle_points, Part.beat, Part.setHeartbeat_points]
      have hsilent : (s.part.setMirror 0x003 w).heartbeat.silent = s.part.heartbeat.silent := rfl
      rw [hsilent]
      cases s.part.heartbeat.silent <;> rfl
  · obtain ⟨hoff, howned, hpoint, hmask⟩ : 0x004 < 4096 ∧ partOwned 0x004 = false ∧ (∀ i, windowWord 0x004 ≠ .point i 0) ∧
        mirrorMask 0x004 = 0xFFFF := config_written (n := 0x04) (by decide)
    obtain ⟨hkeeps, hheartbeat, hpoints⟩ := (s.part.setMirror 0x004 w).periodChanged_spec
    have hperiod : (s.part.setMirror 0x004 w).heartbeatPeriod = Machine.heartbeatPeriod w := by
      rw [Part.heartbeatPeriod, Part.mirror_setMirror hw.2.2, if_pos rfl, hmask, and_mask]
    have htaken := s.part.takeServing_period w
    by_cases hsame : s.part.heartbeatPeriod = Machine.heartbeatPeriod w
    · rw [if_pos hsame] at htaken
      obtain ⟨t, ht, hpart, hstores, hmirror, -, hblocks, hentries, htrouble⟩ := State.servingWrite_spec hoff hm hw howned
        hpoint htaken (Part.keepsBut_refl [.points, .heartbeat] _) (by decide)
      rw [hmask, and_mask] at hmirror
      refine ⟨t, congrArg Host.Outcome.next ht, hstores, by rw [hmirror, if_pos rfl], Part.keepsBut_mono hblocks (by simp),
        hentries (Bus.keepsButEntries_refl _), htrouble (Notice.keepsButTrouble_refl _), ?_⟩
      rw [if_pos hsame.symm, hpart, Part.settle_heartbeat, Part.settle_points]
      exact ⟨rfl, rfl⟩
    · rw [if_neg hsame] at htaken
      obtain ⟨t, ht, hpart, hstores, hmirror, -, hblocks, hentries, htrouble⟩ := State.servingWrite_spec hoff hm hw howned
        hpoint htaken hkeeps (by decide)
      rw [hmask, and_mask] at hmirror
      refine ⟨t, congrArg Host.Outcome.next ht, hstores, by rw [hmirror, if_pos rfl], Part.keepsBut_mono hblocks (by simp),
        hentries (by rw [hkeeps.bus]; exact Bus.keepsButEntries_refl _),
        htrouble (by rw [hkeeps.notice]; exact Notice.keepsButTrouble_refl _), ?_⟩
      rw [if_neg (Ne.symm hsame), hpart, Part.settle_heartbeat, Part.settle_points, hheartbeat, hpoints, hperiod,
        Part.periodHeartbeat]
      have hkept : (s.part.setMirror 0x004 w).heartbeat = s.part.heartbeat := rfl
      rw [hkept]
      by_cases hzero : Machine.heartbeatPeriod w = 0
      · rw [if_pos hzero, if_pos hzero]
        exact ⟨rfl, by simp [hzero]⟩
      · rw [if_neg hzero, if_neg hzero]
        by_cases hsilent : s.part.heartbeat.silent = true
        · rw [if_pos hsilent, if_pos hsilent]
          exact ⟨rfl, by simp [hzero]⟩
        · rw [if_neg hsilent, if_neg hsilent]
          exact ⟨rfl, by simp [hzero]⟩

end Sys2Proof.Machine
end

section
/-! PROOFS. Line enables, routes, directory and budgets (R25, R70, R87, R93, R101, R104). -/

namespace Sys2Proof.Machine

/-! ### Moving a line -/

theorem Part.moveLine_keeps (n : LineNo) (f : Line → Line) (p : Part) :
    p.keepsBut [.bus, .lines, .arbiter] (p.moveLine n f) := by
  intro b hb
  cases b <;> simp [Block.same] at hb ⊢

theorem Part.moveLine_arbiter (n : LineNo) (f : Line → Line) (p : Part) : (p.moveLine n f).arbiter =
    { p.arbiter with decisionPending := p.arbiter.decisionPending || decide ((f (p.line n)).state ≠ (p.line n).state) } := by
  unfold Part.moveLine
  simp only
  split <;> rename_i h
  · simp [h]
  · simp [h, Part.occasion]

theorem Part.moveLine_entries (n : LineNo) (f : Line → Line) (p : Part) :
    p.bus.keepsButEntries (p.moveLine n f).bus := by
  unfold Part.moveLine
  simp only
  split
  · exact Bus.keepsButEntries_refl _
  · rw [Part.occasion_bus]
    exact Part.enter_entries _ _ _

/-- What a move makes of a line is what counts. -/
theorem Part.moveLine_congr {n : LineNo} {f g : Line → Line} {p : Part} (h : f (p.line n) = g (p.line n)) :
    p.moveLine n f = p.moveLine n g := by
  simp only [Part.moveLine, h]

/-! ### The line enabled field -/

/-- What a change of its enabled field makes of a line (R104). -/
def Line.withEnable (on : Bool) (l : Line) : Line :=
  if on = true then
    if l.state = .disabled then { l with takenEnable := true, disablePending := false }.become .idle none
    else { l with takenEnable := true, disablePending := false }
  else
    match l.state with
    | .idle | .office | .fault => { l with takenEnable := false }.disable
    | .breaking | .dialtone | .dialing | .ringback | .linked | .release =>
      { l with takenEnable := false, disablePending := true }
    | .disabled => { l with takenEnable := false }

/-- What disabling a line in FAULT leaves to the Point Engine (R104). -/
def Part.enableWork (n : LineNo) (on : Bool) (p : Part) : List Work :=
  if (p.line n).takenEnable ≠ on ∧ on = false ∧ (p.line n).state = .fault then [.condition (faultPoint n) false] else []

theorem Part.takeLineEnable_spec (n : LineNo) (on : Bool) (p : Part) (hm : p.mode.serving = true) :
    p.keepsBut [.bus, .points, .lines, .arbiter] (p.takeLineEnable n on) ∧
      p.bus.keepsButEntries (p.takeLineEnable n on).bus ∧
      (p.takeLineEnable n on).points = { p.points with work := p.points.work ++ p.enableWork n on } ∧
      p.keepsOtherLines n (p.takeLineEnable n on) ∧
      (p.takeLineEnable n on).arbiter.offers = p.arbiter.offers ∧
      (p.takeLineEnable n on).line n = if (p.line n).takenEnable = on then p.line n else (p.line n).withEnable on := by
  by_cases hsame : (p.line n).takenEnable = on
  · have heq : p.takeLineEnable n on = p := by simp [Part.takeLineEnable, hsame]
    rw [heq, if_pos hsame]
    exact ⟨Part.keepsBut_refl _ p, Bus.keepsButEntries_refl _, by simp [Part.enableWork, hsame], fun _ _ => rfl, rfl, rfl⟩
  have hmoved : p.takeLineEnable n on = { p.moveLine n (Line.withEnable on) with
      points := { p.points with work := p.points.work ++ p.enableWork n on } } := by
    have hnone {f : Line → Line} (hf : f (p.line n) = (p.line n).withEnable on) (hwork : p.enableWork n on = []) :
        p.moveLine n f = { p.moveLine n (Line.withEnable on) with
          points := { p.points with work := p.points.work ++ p.enableWork n on } } := by
      rw [Part.moveLine_congr hf, hwork, List.append_nil, ← Part.moveLine_points n (Line.withEnable on)]
    unfold Part.takeLineEnable
    simp only [if_neg hsame]
    cases on with
    | true =>
      rw [if_pos rfl]
      exact hnone (by simp [Line.withEnable]) (by simp [Part.enableWork])
    | false =>
      rw [if_neg (by decide)]
      split <;> rename_i hstate
      case h_3 =>
        have hf : { p.line n with takenEnable := false }.disable = (p.line n).withEnable false := by
          simp [Line.withEnable, hstate]
        rw [if_pos (by rw [Part.moveLine_mode]; exact hm), Part.moveLine_congr (g := Line.withEnable false) hf,
          Part.enableWork, if_pos ⟨hsame, rfl, hstate⟩, Part.tell, Part.moveLine_points]
      all_goals exact hnone (by simp [Line.withEnable, hstate]) (by simp [Part.enableWork, hstate])
  rw [hmoved, if_neg hsame]
  refine ⟨fun b hb => ?_, Part.moveLine_entries _ _ _, rfl, fun m hmn => Part.line_moveLine_ne hmn _ _, ?_,
    Part.line_moveLine _ _ _⟩
  · cases b <;> simp [Block.same] at hb ⊢
  · simp only [Part.moveLine_arbiter]

/-- A write of a line configuration word is taken (R27, R104). -/
theorem Part.takeServing_line (n : LineNo) (w : Word) (p : Part) : p.takeServing (0x008 + n.val) w =
    (p.setMirror (0x008 + n.val) w).takeLineConfig n (p.changes (0x008 + n.val) w) w := by
  have h₀ : windowWord 0x008 = .config 0x08 := by decide
  have h₁ : windowWord 0x009 = .config 0x09 := by decide
  have h₂ : windowWord 0x00A = .config 0x0A := by decide
  have h₃ : windowWord 0x00B = .config 0x0B := by decide
  match n with
  | 0 | 1 | 2 | 3 => simp [Part.takeServing, h₀, h₁, h₂, h₃]

theorem line_config_written (n : LineNo) : 0x008 + n.val < 4096 ∧ partOwned (0x008 + n.val) = false ∧
    (∀ i, windowWord (0x008 + n.val) ≠ .point i 0) ∧ mirrorMask (0x008 + n.val) = 0xFFFF ∧
    fieldMask (0x008 + n.val) = 0x003F := by
  have hword : 0x008 + n.val ∉ ownedConfig ∧ fieldMask (0x008 + n.val) = 0x003F := by
    revert n
    decide
  obtain ⟨hoff, howned, hpoint, hmask⟩ := config_written (n := ⟨0x008 + n.val, by omega⟩) hword.1
  exact ⟨hoff, howned, hpoint, hmask, hword.2⟩

/-- Settles O38: a line acts on its enabled field by its state. -/
theorem lineEnableActsByLineState : Obligations.LineEnableActsByLineState := by
  refine fun n w s hm hw => ?_
  obtain ⟨hoff, howned, hpoint, hmask, hfield⟩ := line_config_written n
  obtain ⟨hkeeps, hentries, hpoints, hothers, hoffers, hline⟩ :=
    (s.part.setMirror (0x008 + n.val) w).takeLineEnable_spec n (bit w 0) hm
  have hchanges := Part.changes_iff (p := s.part) (w := w) (k := 6) (by decide) hfield
  have hocc := Part.occasion_ite_keeps (s.part.changes (0x008 + n.val) w = true)
    ((s.part.setMirror (0x008 + n.val) w).takeLineEnable n (bit w 0))
  have harb := Part.occasion_ite_arbiter (s.part.changes (0x008 + n.val) w)
    ((s.part.setMirror (0x008 + n.val) w).takeLineEnable n (bit w 0))
  have hblocks := Part.keepsBut_trans hkeeps (Part.keepsBut_mono hocc (by simp))
  obtain ⟨t, ht, hpart, hstores, hmirror, -, hall, hent, htrouble⟩ :=
    State.servingWrite_spec hoff hm hw howned hpoint (s.part.takeServing_line n w) hblocks (by decide)
  rw [hmask, and_mask] at hmirror
  have hlines : ∀ m, t.part.line m = ((s.part.setMirror (0x008 + n.val) w).takeLineEnable n (bit w 0)).line m := fun m =>
    Part.line_of_lines (by rw [hpart, Part.settle_lines]; exact hocc.lines) m
  have htpoints : t.part.points =
      { s.part.points with work := s.part.points.work ++ (s.part.setMirror (0x008 + n.val) w).enableWork n (bit w 0) } := by
    rw [hpart, Part.settle_points]
    exact hocc.points.trans hpoints
  have htarb : t.part.arbiter = { ((s.part.setMirror (0x008 + n.val) w).takeLineEnable n (bit w 0)).arbiter with
      decisionPending := ((s.part.setMirror (0x008 + n.val) w).takeLineEnable n (bit w 0)).arbiter.decisionPending ||
        s.part.changes (0x008 + n.val) w } := by
    rw [hpart, Part.settle_arbiter]
    exact harb
  have hl : (s.part.setMirror (0x008 + n.val) w).line n = s.part.line n := rfl
  rw [hl] at hline
  rw [Part.enableWork, hl] at htpoints
  refine ⟨t, congrArg Host.Outcome.next ht, hstores, hmirror, Part.keepsBut_mono hall (by simp),
    fun m hmn => (hlines m).trans (hothers m hmn), hent (hocc.bus.symm ▸ hentries),
    htrouble (hblocks.notice.symm ▸ Notice.keepsButTrouble_refl _), ?_, ?_, ?_, ?_⟩
  · rw [htarb]
    exact hoffers
  · intro hne
    rw [htarb, hchanges]
    simp [hne]
  · rw [hlines, hline]
    split
    · assumption
    · unfold Line.withEnable
      cases bit w 0 <;> cases (s.part.line n).state <;> rfl
  · rw [hlines, hline]
    by_cases hsame : (s.part.line n).takenEnable = bit w 0
    · rw [if_pos hsame, if_pos hsame, htpoints]
      simp [hsame]
    · rw [if_neg hsame, if_neg hsame, htpoints]
      cases hon : bit w 0 with
      | true =>
        rw [if_pos rfl]
        cases hstate : (s.part.line n).state <;> simp [Line.withEnable, hstate, Line.become]
      | false =>
        have htaken : (s.part.line n).takenEnable = true := by simpa [hon] using hsame
        rw [if_neg (by decide)]
        cases hstate : (s.part.line n).state <;> simp [Line.withEnable, hstate, htaken, Line.disable, Line.become]

end Sys2Proof.Machine
end

section
/-! PROOFS. Writes of routes, the directory and budgets (R8, R25, R70, R87, R93, R101). -/

namespace Sys2Proof.Machine

/-! ### Unrouted marks -/

/-- The queue with every unrouted mark cleared (R70). -/
def Queue.routed (q : Queue) : Queue := { q with records := q.records.map fun x => { x with unrouted := false } }

theorem Queue.routed_of_none {q : Queue} (h : q.unroutedExist = false) : q.routed = q := by
  have hnone : ∀ x ∈ q.records, { x with unrouted := false } = x := fun x hx => by
    have hx' : x.unrouted = false := by simpa using List.any_eq_false.mp h x hx
    rw [← hx']
  have hmap : q.records.map (fun x => { x with unrouted := false }) = q.records :=
    (List.map_congr_left hnone).trans (List.map_id' q.records)
  rw [Queue.routed, hmap]

/-- What judging the unrouted marks does (R70). -/
theorem Part.judgeUnrouted_spec (p : Part) : p.keepsBut [.bus, .queue, .arbiter] p.judgeUnrouted ∧
    p.bus.keepsButEntries p.judgeUnrouted.bus ∧
    p.judgeUnrouted.queue = (if p.inForce 0 = true then p.queue.routed else p.queue) ∧
    p.judgeUnrouted.arbiter.offers = p.arbiter.offers := by
  unfold Part.judgeUnrouted
  by_cases hforce : p.inForce 0 = true
  · cases hmarked : p.queue.unroutedExist with
    | true =>
      rw [if_pos (by simp [hforce]), if_pos hforce]
      have hentries : p.bus.keepsButEntries (p.setRecords (p.queue.records.map fun x => { x with unrouted := false })).bus := by
        unfold Part.setRecords
        simp only
        split
        · exact Bus.keepsButEntries_refl _
        · exact Part.enter_entries _ _ _
      exact ⟨Part.keepsBut_trans (Part.keepsBut_mono (Part.setRecords_keeps _ _) (by simp))
        (Part.keepsBut_mono (Part.occasion_keeps _) (by simp)), hentries, Part.setRecords_queue _ _,
        by rw [Part.occasion_offers, Part.setRecords_arbiter]⟩
    | false =>
      rw [if_neg (by simp), if_pos hforce, Queue.routed_of_none hmarked]
      exact ⟨Part.keepsBut_refl _ p, Bus.keepsButEntries_refl _, rfl, rfl⟩
  · rw [if_neg (by simp [hforce]), if_neg hforce]
    exact ⟨Part.keepsBut_refl _ p, Bus.keepsButEntries_refl _, rfl, rfl⟩

/-- The marks are judged where a condition says so, and the arbiter is told (R70, R101). -/
theorem Part.judged_spec (c : Prop) [Decidable c] (p : Part) :
    let q := Part.occasion (if c then p.judgeUnrouted else p)
    p.keepsBut [.bus, .queue, .arbiter] q ∧ p.bus.keepsButEntries q.bus ∧
      q.queue = (if c ∧ p.inForce 0 = true then p.queue.routed else p.queue) ∧
      q.arbiter.offers = p.arbiter.offers ∧ q.arbiter.decisionPending = true := by
  by_cases hc : c
  · obtain ⟨hkeeps, hentries, hqueue, hoffers⟩ := p.judgeUnrouted_spec
    simp only [hc, if_true, true_and]
    exact ⟨Part.keepsBut_trans hkeeps (Part.keepsBut_mono (Part.occasion_keeps _) (by simp)), hentries, hqueue, hoffers, rfl⟩
  · simp only [hc, if_false, false_and]
    exact ⟨Part.keepsBut_mono p.occasion_keeps (by simp), Bus.keepsButEntries_refl _, rfl, rfl, rfl⟩

/-! ### Writes that pass -/

/-- What a write of a word that the part does not clear stores and does in STOPPED and RUNNING (R5, R27). -/
theorem State.servingWrite_passed {s : State} {off : Nat} (hoff : off < 4096) (hm : s.part.mode.serving = true)
    (hw : s.writable) {w : Word} (hpassed : s.part.clearByWrite off w = s.part ∧ s.part.downstream off w = w)
    (hpoint : ∀ i, windowWord off ≠ .point i 0) {q : Part} (htaken : s.part.takeServing off w = q) :
    ∃ t, s.panelWriteAt off w = t ∧ t.part = Part.settle s.part q ∧ s.stores off w t := by
  have hstall := Part.stalls_eq_false (p := s.part) rfl hoff (Part.captures_of_not_point hpoint w)
  have hwritten := State.panelWriteAt_eq hoff (Mode.live_of_serving hm) hw.2.1 hstall
  rw [hpassed.1, hpassed.2, Part.takeWrite_serving hm hpoint, htaken] at hwritten
  exact ⟨_, hwritten, rfl, State.stores_write hw.1 _ _ _⟩

/-! ### Routes and the directory -/

theorem route_written (r : RouteNo) {k : Nat} (hk : k ≤ 1) :
    routeOffset r.val k < 4096 ∧ partOwned (routeOffset r.val k) = false ∧
      (∀ i, windowWord (routeOffset r.val k) ≠ .point i 0) ∧ mirrorMask (routeOffset r.val k) = 0xFFFF ∧
      fieldMask (routeOffset r.val k) = 0xFFFF := by
  have hword : windowWord (routeOffset r.val k) = .route r ⟨k, by omega⟩ := windowWord_route r ⟨k, by omega⟩
  have hlt : ¬ 2 ≤ k := by omega
  refine ⟨by unfold routeOffset; omega, ?_, fun i => ?_, ?_, ?_⟩
  · simp [partOwned, hword, hlt]
  · simp [hword]
  · simp [mirrorMask, hword, hk]
  · simp [fieldMask, hword]

theorem directory_written (d : DestNo) (k : Fin 9) :
    directoryOffset d.val k.val < 4096 ∧ partOwned (directoryOffset d.val k.val) = false ∧
      (∀ i, windowWord (directoryOffset d.val k.val) ≠ .point i 0) ∧ mirrorMask (directoryOffset d.val k.val) = 0xFFFF := by
  refine ⟨by unfold directoryOffset; omega, ?_, fun i => ?_, ?_⟩
  · simp [partOwned, windowWord_directory]
  · simp [windowWord_directory]
  · simp [mirrorMask, windowWord_directory]

theorem Part.changes_all {p : Part} {off : Nat} (h : fieldMask off = 0xFFFF) (w : Word) :
    p.changes off w = decide (p.mirror off ≠ w) := by
  unfold Part.changes
  rw [h, and_mask]
  exact decide_eq_decide.mpr (not_congr BitVec.xor_eq_zero_iff)

theorem Part.takeServing_routeEntry (r : RouteNo) (w : Word) (p : Part) : p.takeServing (routeOffset r.val 0) w =
    if p.changes (routeOffset r.val 0) w then (p.setMirror (routeOffset r.val 0) w).routeChanged r
    else p.setMirror (routeOffset r.val 0) w := by
  have hword : windowWord (routeOffset r.val 0) = .route r 0 := windowWord_route r 0
  simp [Part.takeServing, hword]

theorem Part.takeServing_routeRest (r : RouteNo) (w : Word) (p : Part) :
    p.takeServing (routeOffset r.val 1) w = p.setMirror (routeOffset r.val 1) w := by
  have hword : windowWord (routeOffset r.val 1) = .route r 1 := windowWord_route r 1
  simp [Part.takeServing, hword]

theorem Part.takeServing_directory (d : DestNo) (k : Fin 9) (w : Word) (p : Part) :
    p.takeServing (directoryOffset d.val k.val) w = if p.changes (directoryOffset d.val k.val) w then
      (p.setMirror (directoryOffset d.val k.val) w).directoryChanged d else p.setMirror (directoryOffset d.val k.val) w := by
  simp [Part.takeServing, windowWord_directory]

theorem Part.judgeValid_keeps (d : DestNo) (p : Part) : p.keepsBut [.mirrors] (p.judgeValid d) := by
  intro b hb
  cases b <;> simp [Block.same, Part.judgeValid] at hb ⊢

theorem Part.judgeValid_valid (d e : DestNo) (p : Part) :
    (p.judgeValid d).mirrors.valid[e] = if e = d then p.entryValid d else p.mirrors.valid[e] := by
  by_cases hed : e = d
  · subst hed
    rw [if_pos rfl]
    exact Vector.getElem_set_self _
  · rw [if_neg hed]
    exact Vector.getElem_set_ne d.isLt e.isLt fun h => hed (Fin.ext h.symm)

theorem Part.inForce_of_mirrors {p q : Part} (h : q.mirrors = p.mirrors) (r : RouteNo) : q.inForce r = p.inForce r := by
  simp only [Part.inForce, Part.routeEnabled, Part.destEnabled, Part.primaryDest, Part.mirror, h]

/-- What a directory entry holds is judged where its word differs (R25, R27). -/
theorem Part.directoryTaken_spec (d : DestNo) (c : Bool) (p : Part) :
    let q := if c then p.directoryChanged d else p
    p.keepsBut [.bus, .mirrors, .queue, .arbiter] q ∧ p.bus.keepsButEntries q.bus ∧ q.mirrors.words = p.mirrors.words ∧
      (∀ e : DestNo, q.mirrors.valid[e] = if c = true ∧ e = d then p.entryValid d else p.mirrors.valid[e]) ∧
      q.queue = (if c = true ∧ p.primaryDest 0 = d ∧ q.inForce 0 = true then p.queue.routed else p.queue) ∧
      q.arbiter.offers = p.arbiter.offers ∧ (c = true → q.arbiter.decisionPending = true) ∧
      (c = false → q.arbiter = p.arbiter ∧ q.mirrors.valid = p.mirrors.valid) := by
  cases c with
  | false =>
    exact ⟨Part.keepsBut_refl _ p, Bus.keepsButEntries_refl _, rfl, by simp, by simp, rfl, by simp, by simp⟩
  | true =>
    obtain ⟨hkeeps, hentries, hqueue, hoffers, hpending⟩ := Part.judged_spec ((p.judgeValid d).primaryDest 0 = d) (p.judgeValid d)
    simp only [if_true, Part.directoryChanged, true_and, reduceCtorEq, false_implies, and_true, true_implies]
    have hmirrors := hkeeps.mirrors
    refine ⟨Part.keepsBut_trans (Part.keepsBut_mono (Part.judgeValid_keeps d p) (by simp))
      (Part.keepsBut_mono hkeeps (by simp)), hentries, by rw [hmirrors]; rfl, fun e => ?_, ?_, hoffers, hpending⟩
    · refine Eq.trans ?_ (Part.judgeValid_valid d e p)
      exact congrArg (fun m : Mirrors => m.valid[e]) hmirrors
    · rw [hqueue, Part.inForce_of_mirrors hmirrors]
      rfl

/-- A write of w0 of a route descriptor (R70, R87). -/
theorem State.routeWrite_spec {s : State} (hm : s.part.mode.serving = true) (hw : s.writable) (r : RouteNo) (w : Word) :
    ∃ t, s.panelWriteAt (routeOffset r.val 0) w = t ∧ s.stores (routeOffset r.val 0) w t ∧
      (∀ a, t.part.mirror a = if a = routeOffset r.val 0 then w else s.part.mirror a) ∧
      s.part.keepsBut [.bus, .notice, .mirrors, .queue, .arbiter] t.part ∧
      s.part.bus.keepsButEntries t.part.bus ∧ s.part.notice.keepsButTrouble t.part.notice ∧
      t.part.arbiter.offers = s.part.arbiter.offers ∧ t.part.mirrors.valid = s.part.mirrors.valid ∧
      (s.part.mirror (routeOffset r.val 0) ≠ w → t.part.arbiter.decisionPending = true) ∧
      (s.part.mirror (routeOffset r.val 0) = w → t.part.arbiter = s.part.arbiter) ∧
      t.part.queue = if s.part.mirror (routeOffset r.val 0) ≠ w ∧ r = 0 ∧ t.part.inForce 0 = true then s.part.queue.routed
        else s.part.queue := by
  obtain ⟨hoff, howned, hpoint, hmask, hfield⟩ := route_written r (k := 0) (by decide)
  have htaken := s.part.takeServing_routeEntry r w
  rw [Part.changes_all hfield] at htaken
  by_cases hsame : s.part.mirror (routeOffset r.val 0) = w
  · rw [if_neg (by simp [hsame])] at htaken
    obtain ⟨t, ht, hpart, hstores, hmirror, hvalid, hblocks, hentries, htrouble⟩ := State.servingWrite_spec hoff hm hw howned
      hpoint htaken (Part.keepsBut_refl [.queue, .arbiter] _) (by decide)
    rw [hmask, and_mask] at hmirror
    exact ⟨t, ht, hstores, hmirror, hblocks, hentries (Bus.keepsButEntries_refl _), htrouble (Notice.keepsButTrouble_refl _),
      by rw [hpart, Part.settle_arbiter]; rfl, hvalid, fun h => absurd hsame h, fun _ => by rw [hpart, Part.settle_arbiter]; rfl,
      by rw [if_neg fun h => h.1 hsame, hpart, Part.settle_queue]; rfl⟩
  · rw [if_pos (by simp [hsame])] at htaken
    obtain ⟨hkeeps, hent, hqueue, hoffers, hpending⟩ := Part.judged_spec (r = 0) (s.part.setMirror (routeOffset r.val 0) w)
    obtain ⟨t, ht, hpart, hstores, hmirror, hvalid, hblocks, hentries, htrouble⟩ := State.servingWrite_spec hoff hm hw howned
      hpoint htaken (Part.keepsBut_mono hkeeps (cs := [.bus, .queue, .arbiter]) (by simp)) (by decide)
    rw [hmask, and_mask] at hmirror
    have hforce : t.part.inForce 0 = (s.part.setMirror (routeOffset r.val 0) w).inForce 0 :=
      Part.inForce_of_mirrors (by rw [hpart, Part.settle_mirrors]; exact hkeeps.mirrors) 0
    refine ⟨t, ht, hstores, hmirror, Part.keepsBut_mono hblocks (by simp), hentries hent,
      htrouble (hkeeps.notice.symm ▸ Notice.keepsButTrouble_refl _), by rw [hpart, Part.settle_arbiter]; exact hoffers, hvalid,
      fun _ => by rw [hpart, Part.settle_arbiter]; exact hpending, fun h => absurd h hsame, ?_⟩
    rw [hforce, hpart, Part.settle_queue]
    refine Eq.trans hqueue ?_
    simp only [ne_eq, hsame, not_false_eq_true, true_and]
    rfl

/-- A write of w1 of a route descriptor fills its mirror. -/
theorem State.routeRest_spec {s : State} (hm : s.part.mode.serving = true) (hw : s.writable) (r : RouteNo) (w : Word) :
    ∃ t, s.panelWriteAt (routeOffset r.val 1) w = t ∧ s.stores (routeOffset r.val 1) w t ∧
      (∀ a, t.part.mirror a = if a = routeOffset r.val 1 then w else s.part.mirror a) ∧
      s.part.keepsBut [.bus, .notice, .mirrors] t.part ∧
      s.part.bus.keepsButEntries t.part.bus ∧ s.part.notice.keepsButTrouble t.part.notice ∧
      t.part.mirrors.valid = s.part.mirrors.valid := by
  obtain ⟨hoff, howned, hpoint, hmask, -⟩ := route_written r (k := 1) (by decide)
  obtain ⟨t, ht, -, hstores, hmirror, hvalid, hblocks, hentries, htrouble⟩ := State.servingWrite_spec hoff hm hw howned
    hpoint (s.part.takeServing_routeRest r w) (Part.keepsBut_refl [] _) (by decide)
  rw [hmask, and_mask] at hmirror
  exact ⟨t, ht, hstores, hmirror, hblocks, hentries (Bus.keepsButEntries_refl _), htrouble (Notice.keepsButTrouble_refl _), hvalid⟩

/-- A write of a word of a directory entry (R25, R27). -/
theorem State.directoryWrite_spec {s : State} (hm : s.part.mode.serving = true) (hw : s.writable) (d : DestNo) (k : Fin 9)
    (w : Word) : ∃ t q, s.panelWriteAt (directoryOffset d.val k.val) w = t ∧ s.stores (directoryOffset d.val k.val) w t ∧
      t.part = Part.settle s.part q ∧ q = (if s.part.changes (directoryOffset d.val k.val) w then
        (s.part.setMirror (directoryOffset d.val k.val) w).directoryChanged d
        else s.part.setMirror (directoryOffset d.val k.val) w) ∧
      ∀ a, (s.part.setMirror (directoryOffset d.val k.val) w).mirror a =
        if a = directoryOffset d.val k.val then w else s.part.mirror a := by
  obtain ⟨hoff, howned, hpoint, hmask⟩ := directory_written d k
  have hacts := Part.actsOn_of_not_owned (p := s.part) howned
  obtain ⟨t, ht, hpart, hstores⟩ := State.servingWrite_passed hoff hm hw (w := w)
    ⟨Part.clearByWrite_of_not_acting hacts w, Part.downstream_of_not_acting hacts w⟩ hpoint rfl
  refine ⟨t, _, ht, hstores, hpart, s.part.takeServing_directory d k w, fun a => ?_⟩
  rw [Part.mirror_setMirror hw.2.2, hmask, and_mask]

/-- Settles O39: a route or a directory entry in which a field differs is judged anew, and the arbiter is told. -/
theorem routeAndDirectoryWritesReachTheArbiter : Obligations.RouteAndDirectoryWritesReachTheArbiter := by
  refine ⟨fun r k w s hm hw => ?_, fun d k w s hm hw => ?_⟩
  · cases k with
    | w0 =>
      obtain ⟨t, ht, hstores, hmirror, hblocks, hentries, htrouble, hoffers, hvalid, hpending, hkept, hqueue⟩ :=
        State.routeWrite_spec hm hw r w
      exact ⟨t, congrArg Host.Outcome.next ht, hstores, hmirror, hblocks, hentries, htrouble, hoffers, hvalid,
        fun _ => hpending, fun h => hkept (h.resolve_left nofun), by rw [hqueue]; simp [Queue.routed]⟩
    | w1 =>
      obtain ⟨t, ht, hstores, hmirror, hblocks, hentries, htrouble, hvalid⟩ := State.routeRest_spec hm hw r w
      exact ⟨t, congrArg Host.Outcome.next ht, hstores, hmirror, Part.keepsBut_mono hblocks (by simp), hentries, htrouble,
        by rw [hblocks.arbiter], hvalid, nofun, fun _ => hblocks.arbiter, by rw [hblocks.queue]; simp⟩
  · obtain ⟨t, q, ht, hstores, hpart, hq, hmirror⟩ := State.directoryWrite_spec hm hw d k w
    obtain ⟨hkeeps, hentries, hwords, hvalid, hqueue, hoffers, hpending, hkept⟩ := Part.directoryTaken_spec d
      (s.part.changes (directoryOffset d.val k.val) w) (s.part.setMirror (directoryOffset d.val k.val) w)
    rw [← hq] at hkeeps hentries hwords hvalid hqueue hoffers hpending hkept
    have hmirrors : t.part.mirrors = q.mirrors := by rw [hpart, Part.settle_mirrors]
    have htmirror : ∀ a, t.part.mirror a = if a = directoryOffset d.val k.val then w else s.part.mirror a := fun a =>
      (Part.mirror_of_words (by rw [hmirrors, hwords]) a).trans (hmirror a)
    have hprimary : (s.part.setMirror (directoryOffset d.val k.val) w).primaryDest 0 = s.part.primaryDest 0 := by
      rw [Part.primaryDest, hmirror, if_neg (by unfold directoryOffset routeOffset; simp; omega), Part.primaryDest]
    have hentry : (s.part.setMirror (directoryOffset d.val k.val) w).entryValid d = t.part.entryValid d :=
      (Part.entryValid_of_words (by rw [hmirrors, hwords]) d).symm
    have hforce : q.inForce 0 = t.part.inForce 0 := (Part.inForce_of_mirrors hmirrors 0).symm
    have hblocks := Part.keepsBut_trans (Part.keepsBut_mono (Part.setMirror_keeps (directoryOffset d.val k.val) w s.part)
      (cs := [.bus, .notice, .mirrors, .queue, .arbiter]) (by simp)) (Part.keepsBut_mono hkeeps (by simp))
    refine ⟨t, congrArg Host.Outcome.next ht, hstores, htmirror, ?_, ?_, ?_, ?_, fun e he => ?_, fun hc => ⟨?_, ?_⟩,
      fun hc => ⟨?_, ?_⟩, ?_⟩
    · rw [hpart]
      exact Part.keepsBut_trans hblocks (Part.keepsBut_mono (Part.settle_keeps _ _) (by simp))
    · rw [hpart]
      exact Bus.keepsButEntries_trans hentries (Part.settle_entries _ _)
    · rw [hpart]
      exact Notice.keepsButTrouble_trans (hkeeps.notice.symm ▸ Notice.keepsButTrouble_refl _) (Part.settle_trouble _ _)
    · rw [hpart, Part.settle_arbiter]
      exact hoffers
    · simp only [hmirrors, hvalid e, he, and_false, if_false]
      rfl
    · rw [hpart, Part.settle_arbiter]
      exact hpending hc
    · simp only [hmirrors, hvalid d, hc, and_self, if_true, hentry]
    · rw [hpart, Part.settle_arbiter]
      exact (hkept hc).1
    · rw [hmirrors]
      exact (hkept hc).2
    · rw [hprimary, hforce] at hqueue
      rw [hpart, Part.settle_queue, ← hpart]
      exact hqueue

/-! ### Budgets and accessed flags -/

/-- What a budget write does in STOPPED and RUNNING (R93). -/
theorem Part.takeBudget_spec (r : RouteNo) (w : Word) (p : Part) (hm : p.mode.live = true) :
    p.keepsBut [.bus, .routes, .arbiter] (p.takeBudget r w) ∧ p.bus.keepsButEntries (p.takeBudget r w).bus ∧
      (∀ k, k ≠ r → (p.takeBudget r w).route k = p.route k) ∧ (p.takeBudget r w).arbiter.offers = p.arbiter.offers ∧
      if budgetField w = (p.route r).budget then p.takeBudget r w = p
      else (p.takeBudget r w).route r = { p.route r with budget := budgetField w, spent := false } ∧
        (p.takeBudget r w).arbiter.decisionPending = true ∧
        ((p.route r).spent = true → p.bus.wbWait = [] → p.bus.wbq.length < Config.writeBackPlaces →
          routeOffset r.val 3 ∈ (p.takeBudget r w).bus.wbq) := by
  unfold Part.takeBudget
  simp only
  by_cases hsame : budgetField w = (p.route r).budget
  · simp only [if_pos hsame]
    exact ⟨Part.keepsBut_refl _ p, Bus.keepsButEntries_refl _, fun _ _ => trivial, trivial, trivial⟩
  simp only [if_neg hsame]
  generalize hq : p.setRoute r { p.route r with budget := budgetField w, spent := false } = q
  have hset : p.keepsBut [.routes] q := hq ▸ Part.setRoute_keeps _ _ p
  have hroute : ∀ k, q.route k = if k = r then { p.route r with budget := budgetField w, spent := false } else p.route k :=
    fun k => by
      by_cases hk : k = r
      · rw [if_pos hk, hk, ← hq, Part.route_setRoute]
      · rw [if_neg hk, ← hq, Part.route_setRoute_ne hk]
  have henter : q.keepsBut [.bus] (if (p.route r).spent = true then q.enter .routeBlock (routeOffset r.val 3) else q) ∧
      q.bus.keepsButEntries (if (p.route r).spent = true then q.enter .routeBlock (routeOffset r.val 3) else q).bus := by
    split
    · exact ⟨Part.enter_keeps _ _ _, Part.enter_entries _ _ _⟩
    · exact ⟨Part.keepsBut_refl _ q, Bus.keepsButEntries_refl _⟩
  have hroutes : ∀ k, (if (p.route r).spent = true then q.enter .routeBlock (routeOffset r.val 3) else q).occasion.route k =
      q.route k := fun k => by
    rw [Part.route, Part.occasion_routes, henter.1.routes, Part.route]
  refine ⟨Part.keepsBut_trans (Part.keepsBut_trans (Part.keepsBut_mono hset (by simp)) (Part.keepsBut_mono henter.1 (by simp)))
    (Part.keepsBut_mono (Part.occasion_keeps _) (by simp)), ?_, fun k hk => ?_, ?_, ?_, rfl, fun hspent hwait hplace => ?_⟩
  · rw [Part.occasion_bus, ← hset.bus]
    exact henter.2
  · rw [hroutes, hroute, if_neg hk]
  · rw [Part.occasion_offers, henter.1.arbiter, hset.arbiter]
  · rw [hroutes, hroute, if_pos rfl]
  · rw [Part.occasion_bus, if_pos hspent]
    by_cases hthere : routeOffset r.val 3 ∈ q.bus.wbq
    · rw [Part.enter_present hthere]
      exact hthere
    · rw [Part.enter_wbq (by rw [hset.mode]; exact hm) hthere (by rw [hset.bus]; exact hwait) (by rw [hset.bus]; exact hplace)]
      exact List.mem_append_right _ (List.mem_singleton_self _)

theorem Part.takeServing_budget (r : RouteNo) (w : Word) (p : Part) :
    p.takeServing (routeOffset r.val 2) w = (p.setMirror (routeOffset r.val 2) w).takeBudget r w := by
  simp [Part.takeServing, windowWord_budget]

theorem Part.takeServing_routeState (r : RouteNo) (w : Word) (p : Part) :
    p.takeServing (routeOffset r.val 3) w = p.setMirror (routeOffset r.val 3) w := by
  simp [Part.takeServing, windowWord_routeState]

/-- Settles O40: a budget write by `Part.takeBudget_spec`, a clear of the accessed flag by what the part clears of w3. -/
theorem budgetAndAccessedWritesActOnTheRoute : Obligations.BudgetAndAccessedWritesActOnTheRoute := by
  refine fun r w s hm hw hcur => ⟨?_, ?_⟩
  · have hoff : routeOffset r.val 2 < 4096 := by unfold routeOffset; omega
    have hmask : mirrorMask (routeOffset r.val 2) = 0xC000 := by simp [mirrorMask, windowWord_budget]
    obtain ⟨t, ht, hpart, hstores⟩ := State.servingWrite_passed hoff hm hw (s.part.passed_budget r w)
      (fun i => by simp [windowWord_budget]) (s.part.takeServing_budget r w)
    obtain ⟨hkeeps, hentries, hothers, hoffers, hroute⟩ :=
      (s.part.setMirror (routeOffset r.val 2) w).takeBudget_spec r w (Mode.live_of_serving hm)
    have hblocks := Part.keepsBut_trans (Part.keepsBut_mono (Part.setMirror_keeps (routeOffset r.val 2) w s.part)
      (cs := [.bus, .mirrors, .routes, .arbiter]) (by simp)) (Part.keepsBut_mono hkeeps (by simp))
    rw [Part.settle_of_keeps hblocks hcur (by rw [hkeeps.mirrors]; rfl) (by rw [hblocks.points]) (by rw [hblocks.points])]
      at hpart
    rw [← hpart] at hkeeps hentries hothers hoffers hroute hblocks
    refine ⟨t, congrArg Host.Outcome.next ht, hstores, fun a => ?_, hblocks, hentries, hothers, hoffers, ?_⟩
    · rw [Part.mirror_of_mirrors hkeeps.mirrors, Part.mirror_setMirror hw.2.2, hmask]
    · by_cases hsame : budgetField w = (s.part.route r).budget
      · rw [if_pos hsame]
        rw [if_pos (show budgetField w = ((s.part.setMirror (routeOffset r.val 2) w).route r).budget from hsame)] at hroute
        rw [hroute]
        exact ⟨rfl, rfl, rfl⟩
      · rw [if_neg hsame]
        rw [if_neg (show ¬ budgetField w = ((s.part.setMirror (routeOffset r.val 2) w).route r).budget from hsame)] at hroute
        exact hroute
  · have hoff : routeOffset r.val 3 < 4096 := by unfold routeOffset; omega
    have hacts : s.part.actsOn (routeOffset r.val 3) = true :=
      Part.actsOn_of_table (partOwned_route r (w := 3) (by decide)) (routeOffset_ne _ _) (.inl hm)
    obtain ⟨hkeeps, hothers, hroute⟩ := Part.clearByWrite_routeState hacts w
    have hpoint : ∀ i, windowWord (routeOffset r.val 3) ≠ .point i 0 := fun i => by simp [windowWord_routeState]
    have hwritten := State.panelWriteAt_eq (w := w) hoff (Mode.live_of_serving hm) hw.2.1
      (Part.stalls_eq_false rfl hoff (Part.captures_of_not_point hpoint w))
    generalize s.part.clearByWrite (routeOffset r.val 3) w = q at hkeeps hothers hroute hwritten
    have hacts' : q.actsOn (routeOffset r.val 3) = true := by rw [Part.actsOn_of_keeps hkeeps, hacts]
    have hmq : q.mode.serving = true := by rw [hkeeps.mode]; exact hm
    have hblocks := Part.keepsBut_trans (Part.keepsBut_mono hkeeps (cs := [.mirrors, .routes]) (by simp))
      (Part.keepsBut_mono (Part.setMirror_keeps (routeOffset r.val 3) w q) (by simp))
    rw [Part.downstream_routeState hacts', Part.takeWrite_serving hmq hpoint, Part.takeServing_routeState,
      Part.settle_of_keeps hblocks hcur (by rw [← hkeeps.mirrors]; rfl) (by rw [hblocks.points]) (by rw [hblocks.points])]
      at hwritten
    refine ⟨_, congrArg Host.Outcome.next hwritten, hroute, State.stores_write hw.1 _ _ _, hothers, hblocks, fun a ha => ?_⟩
    rw [Part.mirror_setMirror (p := q) (by rw [hkeeps.mirrors]; exact hw.2.2), if_neg ha, Part.mirror, hkeeps.mirrors]
    rfl

end Sys2Proof.Machine
end

section
/-! PROOFS. What the Point Engine does to one shadow entry (R41, R44 to R46, R56), and a panel write of w0 of a point (R43). -/

namespace Sys2Proof.Machine

/-! ### Steps that touch one point -/

/-- A step changes at most one shadow entry and enters addresses. -/
def Part.touches (i : PointNo) (p q : Part) : Prop :=
  p.keepsBut [.bus, .points] q ∧ p.bus.keepsButEntries q.bus ∧ p.keepsOtherShadows i q ∧
    q.points = { p.points with shadows := q.points.shadows }

theorem Part.touches_refl (i : PointNo) (p : Part) : p.touches i p :=
  ⟨Part.keepsBut_refl _ p, Bus.keepsButEntries_refl _, fun _ _ => rfl, rfl⟩

theorem Part.touches.trans {i : PointNo} {p q r : Part} (h : p.touches i q) (k : q.touches i r) : p.touches i r := by
  obtain ⟨hkeeps, hentries, hothers, hpoints⟩ := h
  obtain ⟨kkeeps, kentries, kothers, kpoints⟩ := k
  refine ⟨Part.keepsBut_trans hkeeps kkeeps, Bus.keepsButEntries_trans hentries kentries,
    fun j hj => (kothers j hj).trans (hothers j hj), ?_⟩
  rw [kpoints, hpoints]

theorem Part.onShadow_touches (i : PointNo) (f : Shadow → Shadow) (p : Part) : p.touches i (p.onShadow i f) :=
  ⟨Part.keepsBut_mono (Part.onShadow_keeps i f p) (by simp), Bus.keepsButEntries_refl _,
    fun _ hj => Part.shadow_onShadow_ne hj f p, rfl⟩

theorem Part.enter_touches (i : PointNo) (o : Owner) (off : Nat) (p : Part) : p.touches i (p.enter o off) :=
  ⟨Part.keepsBut_mono (Part.enter_keeps o off p) (by simp), Part.enter_entries o off p,
    fun j _ => Part.shadow_of_points (Part.enter_points o off p) j, by rw [Part.enter_points]⟩

theorem Part.enterAll_touches (i : PointNo) (o : Owner) (offs : List Nat) (p : Part) : p.touches i (p.enterAll o offs) :=
  ⟨Part.keepsBut_mono (Part.enterAll_keeps o offs p) (by simp), Part.enterAll_entries o offs p,
    fun j _ => Part.shadow_of_points (Part.enterAll_points o offs p) j, by rw [Part.enterAll_points]⟩

theorem Part.restatus_touches (i : PointNo) (p : Part) : p.touches i (p.restatus i) := by
  unfold Part.restatus
  split
  · exact Part.touches_refl i p
  · exact (Part.onShadow_touches i _ p).trans (Part.enter_touches i _ _ _)

theorem Part.setOwed_touches (i : PointNo) (b : Bool) (p : Part) : p.touches i (p.setOwed i b) := Part.onShadow_touches i _ p

theorem Part.oweNow_touches (i : PointNo) (p : Part) : p.touches i (p.oweNow i) :=
  (Part.setOwed_touches i true p).trans (Part.restatus_touches i _)

theorem Part.setIsolated_touches (i : PointNo) (b : Bool) (p : Part) : p.touches i (p.setIsolated i b) :=
  (Part.onShadow_touches i _ p).trans (Part.enter_touches i _ _ _)

/-! ### The entry they leave -/

@[simp] theorem Part.shadow_restatus (i : PointNo) (p : Part) :
    (p.restatus i).shadow i = { p.shadow i with status := p.derivedStatus i } := by
  unfold Part.restatus
  split
  · rename_i h
    rw [← h]
  · rw [Part.shadow_of_points (Part.enter_points _ _ _), Part.shadow_onShadow]

@[simp] theorem Part.shadow_setOwed (i : PointNo) (b : Bool) (p : Part) :
    (p.setOwed i b).shadow i = { p.shadow i with owed := b && decide (i.val < 263) } := Part.shadow_onShadow i _ p

@[simp] theorem Part.shadow_oweNow (i : PointNo) (p : Part) : (p.oweNow i).shadow i =
    { p.shadow i with owed := decide (i.val < 263), status := (p.setOwed i true).derivedStatus i } := by
  rw [Part.oweNow, Part.shadow_restatus, Part.shadow_setOwed, Bool.true_and]

@[simp] theorem Part.shadow_setIsolated (i : PointNo) (b : Bool) (p : Part) :
    (p.setIsolated i b).shadow i = { p.shadow i with isolated := b } := by
  rw [Part.setIsolated, Part.shadow_of_points (Part.enter_points _ _ _), Part.shadow_onShadow]

/-- What the report status is derived from (R41). -/
theorem Part.derivedStatus_congr {p q : Part} {i : PointNo} (hrecords : q.queue.records = p.queue.records)
    (hmirrors : q.mirrors = p.mirrors) (howed : (q.shadow i).owed = (p.shadow i).owed) :
    q.derivedStatus i = p.derivedStatus i := by
  have henabled : q.pointEnabled i = p.pointEnabled i := by
    simp only [Part.pointEnabled, Part.virtualEnabled, Part.mirror, hmirrors]
  simp only [Part.derivedStatus, hrecords, henabled, howed]

/-- The report status of a point is its derived one again (R41). -/
theorem Part.restatus_current (i : PointNo) (p : Part) : ((p.restatus i).shadow i).status = (p.restatus i).derivedStatus i := by
  rw [Part.shadow_restatus, Part.derivedStatus_congr (p := p) (by rw [Part.restatus_queue]) (Part.restatus_mirrors i p)
    (by rw [Part.shadow_restatus])]

theorem Part.oweNow_current (i : PointNo) (p : Part) : ((p.oweNow i).shadow i).status = (p.oweNow i).derivedStatus i :=
  Part.restatus_current i _

/-! ### Log records -/

theorem Bus.keepsButEntries.logged {b c : Bus} (h : b.keepsButEntries c) : c.logged = b.logged := by
  obtain ⟨hstaging, -, hwait, -⟩ := h
  rw [Bus.logged, Bus.logged, hstaging, hwait]

theorem Part.logNow_keeps (r : LogRecord) (p : Part) : p.keepsBut [.bus, .notice] (p.logNow r) := by
  intro b hb
  cases b <;> simp [Block.same] at hb ⊢

theorem Part.logNow_logged {p : Part} (hm : p.mode.serving = true) (hh : p.notice.heads.isSome = true) (r : LogRecord) :
    (p.logNow r).bus.logged = p.bus.logged ++ [r.stamp p.now] := Part.makeLog_logged hm hh _

theorem Part.raise_keeps (c : Cause) (p : Part) : p.keepsBut [.bus, .notice] (p.raise c) := by
  intro b hb
  cases b <;> simp [Block.same] at hb ⊢

/-! ### The beginning of OVERRUN -/

/-- The log record of the beginning of OVERRUN (R172). -/
def overrunLog (i : PointNo) (code : BitVec 6) : LogRecord :=
  { kind := .overrun, point := BitVec.ofNat 9 i.val, code := code.setWidth 10 }

theorem Part.beginOverrun_spec (i : PointNo) (code : BitVec 6) (p : Part) :
    p.keepsBut [.bus, .notice, .points] (p.beginOverrun i code) ∧
      (p.beginOverrun i code).points = { (p.oweNow i).points with
        overrun := true, latch := true, work := p.points.work ++ [.condition 262 true] } ∧
      p.causeSet .overrun (p.beginOverrun i code) ∧
      (p.mode.serving = true → p.notice.heads.isSome = true →
        (p.beginOverrun i code).bus.logged = p.bus.logged ++ [(overrunLog i code).stamp p.now]) := by
  obtain ⟨hkeeps, hentries, -, hpoints⟩ := Part.oweNow_touches i p
  generalize howed : p.oweNow i = q at hkeeps hentries hpoints
  have hbegun : p.beginOverrun i code = Part.tell (.condition 262 true) (Part.raise .overrun
      (Part.logNow (overrunLog i code) { q with points := { q.points with overrun := true, latch := true } })) := by
    rw [← howed]
    rfl
  generalize hr : ({ q with points := { q.points with overrun := true, latch := true } } : Part) = r at hbegun
  have hqr : q.keepsBut [.points] r := hr ▸ Part.withPoints_keeps _ q
  have hlog := Part.logNow_keeps (overrunLog i code) r
  have hraise := Part.raise_keeps .overrun (r.logNow (overrunLog i code))
  have hall : p.keepsBut [.bus, .notice, .points] (p.beginOverrun i code) := by
    rw [hbegun]
    exact Part.keepsBut_trans (Part.keepsBut_trans (Part.keepsBut_trans (Part.keepsBut_trans
      (Part.keepsBut_mono hkeeps (by simp)) (Part.keepsBut_mono hqr (by simp))) (Part.keepsBut_mono hlog (by simp)))
      (Part.keepsBut_mono hraise (by simp))) (Part.keepsBut_mono (Part.tell_keeps _ _) (by simp))
  have hwork : q.points.work = p.points.work := by rw [hpoints]
  refine ⟨hall, ?_, fun hen => ?_, fun hm hh => ?_⟩
  · rw [hbegun, Part.tell, hraise.points, hlog.points, ← hr]
    simp only [hwork]
  · rw [hbegun, Part.tell_notice]
    refine Part.raise_causeSet .overrun _ ?_
    rw [Part.causeEnable, Part.mirror_of_mirrors (p := p) (by rw [hlog.mirrors, hqr.mirrors, hkeeps.mirrors])]
    exact hen
  · have hnow : r.now = p.now := by rw [Part.now, hqr.time, hkeeps.time, Part.now]
    rw [hbegun, Part.tell_bus, (Part.raise_entries _ _).logged, Part.logNow_logged (by rw [hqr.mode, hkeeps.mode]; exact hm)
      (by rw [hqr.notice, hkeeps.notice]; exact hh), hqr.bus, hentries.logged, hnow]

theorem Part.beginOverrun_others (i : PointNo) (code : BitVec 6) (p : Part) :
    p.keepsOtherShadows i (p.beginOverrun i code) ∧ (p.beginOverrun i code).shadow i = (p.oweNow i).shadow i := by
  obtain ⟨-, hpoints, -⟩ := p.beginOverrun_spec i code
  have hshadow : ∀ j, (p.beginOverrun i code).shadow j = (p.oweNow i).shadow j := fun j =>
    (congrArg (fun x : Points => x.shadows[j]) hpoints).trans rfl
  exact ⟨fun j hj => (hshadow j).trans ((Part.oweNow_touches i p).2.2.1 j hj), hshadow i⟩

/-! ### The statement -/

theorem Part.takeServing_point (i : Fin 256) (w : Word) (p : Part) : p.takeServing (pointOffset i.val 0) w =
    (p.setMirror (pointOffset i.val 0) w).takePoint i (p.mirror (pointOffset i.val 0)) w := by
  simp [Part.takeServing, windowWord_pointEntry]

theorem Part.capture_keeps (i : PointNo) (code : BitVec 6) (p : Part) :
    p.keepsBut [.bus, .notice, .points] (p.capture i code) ∧ p.keepsOtherShadows i (p.capture i code) := by
  unfold Part.capture
  split
  · exact ⟨Part.keepsBut_mono (Part.oweNow_touches i p).1 (by simp), (Part.oweNow_touches i p).2.2.1⟩
  split
  · exact ⟨Part.keepsBut_mono (Part.withPoints_keeps _ p) (by simp), fun _ _ => rfl⟩
  · exact ⟨(Part.beginOverrun_spec i code p).1, (Part.beginOverrun_others i code p).1⟩

/-- What a capture does (R44, R45, R46). -/
theorem Part.capture_spec {i : PointNo} (hi : i.val < 263) (code : BitVec 6) (p : Part) :
    let q := p.capture i code
    if p.points.overrun = true then
      (q.shadow i).owed = true ∧ q.points.fifo = p.points.fifo ∧ q.points.work = p.points.work ∧ q.points.overrun = true
    else if p.points.fifo.length < Config.fifoPlaces then
      q.points = { p.points with fifo := p.points.fifo ++ [{ point := i, code }] }
    else
      (q.shadow i).owed = true ∧ q.points.fifo = p.points.fifo ∧ q.points.work = p.points.work ++ [.condition 262 true] ∧
      q.points.overrun = true ∧ q.points.latch = true ∧ p.causeSet .overrun q ∧
      (p.mode.serving = true → p.notice.heads.isSome = true →
        q.bus.logged = p.bus.logged ++ [(overrunLog i code).stamp p.now]) := by
  obtain ⟨-, -, -, howed⟩ := Part.oweNow_touches i p
  unfold Part.capture
  simp only
  by_cases hover : p.points.overrun = true
  · rw [if_pos hover, if_pos hover, howed]
    exact ⟨by simp [hi], rfl, rfl, hover⟩
  rw [if_neg hover, if_neg hover]
  by_cases hplace : p.points.fifo.length < Config.fifoPlaces
  · rw [if_pos hplace, if_pos hplace]
  · obtain ⟨-, hpoints, hcause, hlogged⟩ := p.beginOverrun_spec i code
    rw [if_neg hplace, if_neg hplace, (p.beginOverrun_others i code).2, hpoints, howed]
    exact ⟨by simp [hi], rfl, rfl, rfl, rfl, hcause, hlogged⟩

theorem Part.takePoint_keeps (i : Fin 256) (old w : Word) (p : Part) :
    p.keepsBut [.bus, .notice, .points] (p.takePoint i old w) ∧
      p.keepsOtherShadows (i.castLE (by omega)) (p.takePoint i old w) := by
  unfold Part.takePoint Part.takeEnabled
  simp only
  split
  · split
    · exact ⟨Part.keepsBut_refl _ p, fun _ _ => rfl⟩
    · exact Part.capture_keeps _ _ p
  · split
    · exact ⟨Part.keepsBut_refl _ p, fun _ _ => rfl⟩
    · exact ⟨Part.keepsBut_mono (Part.tell_keeps _ p) (by simp), fun _ _ => rfl⟩

/-- What a write of w0 of a point does while no write waits for a place in the FIFO (R43, R44). -/
theorem State.pointWrite_spec {s : State} (hm : s.part.mode.serving = true) (hw : s.writable) (hstall : s.part.straps.stall = false)
    (hwait : s.part.mirrors.waitsSince = none) (i : Fin 256) (w : Word) :
    ∃ t, s.panelWriteAt (pointOffset i.val 0) w = t ∧ s.stores (pointOffset i.val 0) w t ∧
      t.part = Part.settle s.part ((s.part.setMirror (pointOffset i.val 0) w).takePoint i
        (s.part.mirror (pointOffset i.val 0)) w) := by
  have hoff := pointOffset_lt i (w := 0) (by decide)
  have hacts := s.part.actsOn_pointEntry i
  have hstalls : s.part.stalls (.write (s.address (pointOffset i.val 0)) w) = false := by
    simp [Part.stalls, State.windowOffset_address s hoff, hstall]
  have hwritten := State.panelWriteAt_eq hoff (Mode.live_of_serving hm) hw.2.1 hstalls
  obtain ⟨hkeeps, -⟩ := Part.takePoint_keeps i (s.part.mirror (pointOffset i.val 0)) w (s.part.setMirror (pointOffset i.val 0) w)
  rw [Part.clearByWrite_of_not_acting hacts, Part.downstream_of_not_acting hacts, Part.takeWrite_point hm,
    Part.takeServing_point, Part.reloadResume_of (by rw [hkeeps.mirrors]; exact hwait)] at hwritten
  exact ⟨_, hwritten, State.stores_write hw.1 _ _ _, rfl⟩

/-- Settles O41: by the table of R43, and the capture by whether OVERRUN is in force and the FIFO has a place. -/
theorem pointWriteCapturesByTable : Obligations.PointWriteCapturesByTable := by
  intro i w s hm hw hstall hwait
  obtain ⟨t, ht, hstores, hpart⟩ := State.pointWrite_spec hm hw hstall hwait i w
  obtain ⟨hkeeps, hothers⟩ :=
    Part.takePoint_keeps i (s.part.mirror (pointOffset i.val 0)) w (s.part.setMirror (pointOffset i.val 0) w)
  have hset := Part.setMirror_keeps (pointOffset i.val 0) w s.part
  have hmirror : ∀ a, t.part.mirror a = if a = pointOffset i.val 0 then w else s.part.mirror a := fun a => by
    rw [hpart, Part.mirror_of_mirrors (Part.settle_mirrors _ _), Part.mirror_of_mirrors hkeeps.mirrors,
      Part.mirror_setMirror hw.2.2, mirrorMask_pointEntry, and_mask]
  generalize hp : s.part.setMirror (pointOffset i.val 0) w = p at hpart hkeeps hothers hset
  have hblocks : s.part.keepsBut [.bus, .notice, .mirrors, .points] t.part := by
    rw [hpart]
    exact Part.keepsBut_trans (Part.keepsBut_trans (Part.keepsBut_mono hset (by simp)) (Part.keepsBut_mono hkeeps (by simp)))
      (Part.keepsBut_mono (Part.settle_keeps _ _) (by simp))
  have htpoints : t.part.points = (p.takePoint i (s.part.mirror (pointOffset i.val 0)) w).points := by
    rw [hpart, Part.settle_points]
  have htshadow : ∀ j, t.part.shadow j = (p.takePoint i (s.part.mirror (pointOffset i.val 0)) w).shadow j :=
    Part.shadow_of_points htpoints
  refine ⟨t, congrArg Host.Outcome.next ht, hstores, hmirror, hblocks, fun j hj => ?_, ?_⟩
  · rw [htshadow, hothers j hj, Part.shadow_of_points hset.points]
  · have hpoints : p.points = s.part.points := hset.points
    simp only [Part.takePoint] at hpart htpoints htshadow ⊢
    by_cases hboth : enabledField (s.part.mirror (pointOffset i.val 0)) = true ∧ enabledField w = true
    · rw [if_pos hboth]
      rw [if_pos (by simpa using hboth)] at hpart htpoints htshadow
      by_cases hcode : stateCodeField (s.part.mirror (pointOffset i.val 0)) = stateCodeField w
      · rw [if_pos hcode]
        rw [if_pos hcode] at htpoints
        rw [htpoints, hpoints]
      rw [if_neg hcode]
      rw [if_neg hcode] at hpart htpoints htshadow
      have hspec := p.capture_spec (i := i.castLE (by omega)) (by simp; omega) (stateCodeField w)
      simp only [hpoints, ← htpoints, ← htshadow] at hspec
      by_cases hover : s.part.points.overrun = true
      · rw [if_pos hover] at hspec ⊢
        exact hspec
      rw [if_neg hover] at hspec ⊢
      by_cases hplace : s.part.points.fifo.length < Config.fifoPlaces
      · rw [if_pos hplace] at hspec ⊢
        exact hspec
      rw [if_neg hplace] at hspec ⊢
      obtain ⟨howed, hfifo, hwork, hoverrun, hlatch, hcause, hlogged⟩ := hspec
      have hcauses := (Part.settle_trouble s.part (p.capture (i.castLE (by omega)) (stateCodeField w))).2.1
      have hlog := (Part.settle_entries s.part (p.capture (i.castLE (by omega)) (stateCodeField w))).logged
      rw [← hpart] at hcauses hlog
      refine ⟨howed, hfifo, hwork, hoverrun, hlatch, fun hen => ?_, fun hh => ?_⟩
      · rw [hcauses]
        refine hcause ?_
        rw [Part.causeEnable, ← hp, Part.mirror_setMirror hw.2.2, if_neg (by unfold pointOffset; omega)]
        exact hen
      · rw [hlog, hlogged (by rw [hset.mode]; exact hm) (by rw [hset.notice]; exact hh), hset.bus, Part.now, hset.time]
        rfl
    · rw [if_neg hboth]
      rw [if_neg (by simpa using hboth)] at htpoints
      unfold Part.takeEnabled at htpoints
      rw [htpoints]
      cases hbefore : enabledField (s.part.mirror (pointOffset i.val 0)) <;> cases hafter : enabledField w <;>
        simp_all [Part.tell]

end Sys2Proof.Machine
end

section
/-! PROOFS. Steps of one line: the office sense, loop supervision and the guard (R102 to R110, R121). -/

namespace Sys2Proof.Machine

/-! ### Steps of one line -/

theorem Part.setLine_self (n : LineNo) (p : Part) : p.setLine n (p.line n) = p := by
  have hlines : p.lines.set n (p.line n) = p.lines := Vector.set_getElem_self n.isLt
  rw [Part.setLine, hlines]

/-- A step that does nothing changes nothing, the trouble pattern being current. -/
theorem State.work_idle {f : Part → Part} {s : State} (hcur : s.part.troubleCurrent) (hf : f s.part = s.part) :
    { s with part := s.part.work f } = s := by
  have hwork : s.part.work f = s.part := by
    by_cases hm : s.part.mode.live = true
    · rw [Part.work_of_live hm, hf, Part.settle_refl hcur]
    · rw [Part.work_of_not_live (by simpa using hm)]
  rw [hwork]

/-- A step whose effect is in some blocks and in addresses entered. -/
theorem State.quietBut_work {f : Part → Part} {s : State} {bs : List Block} (hm : s.part.mode.live = true)
    (hkeeps : s.part.keepsBut (.bus :: bs) (f s.part)) (hentries : s.part.bus.keepsButEntries (f s.part).bus)
    (hb : .notice ∉ bs) : s.quietBut bs { s with part := s.part.work f } := by
  have hnotice := hkeeps.notice (by simpa using hb)
  refine ⟨⟨rfl, rfl, rfl, ?_⟩, ?_, ?_⟩ <;> simp only [Part.work_of_live hm]
  · exact Part.keepsBut_trans (Part.keepsBut_mono hkeeps (by intro b hb; simp at hb; rcases hb with h | h <;> simp [h]))
      (Part.keepsBut_mono (Part.settle_keeps _ _) (by simp))
  · exact Bus.keepsButEntries_trans hentries (Part.settle_entries _ _)
  · exact Notice.keepsButTrouble_trans (hnotice ▸ Notice.keepsButTrouble_refl _) (Part.settle_trouble _ _)

/-- What a step that works keeps. -/
theorem State.keepsBut_work {f : Part → Part} {s : State} {bs : List Block} (hm : s.part.mode.live = true)
    (hkeeps : s.part.keepsBut (.bus :: .notice :: bs) (f s.part)) :
    s.keepsBut (.bus :: .notice :: bs) { s with part := s.part.work f } := by
  refine ⟨rfl, rfl, rfl, ?_⟩
  rw [Part.work_of_live hm]
  exact Part.keepsBut_trans hkeeps (Part.keepsBut_mono (Part.settle_keeps _ _) (by simp))

theorem Part.line_settle (old p : Part) (n : LineNo) : (Part.settle old p).line n = p.line n :=
  Part.line_of_lines (Part.settle_lines old p) n

/-- A step that moves one line (R102, R127). -/
theorem State.lineStep_moves {f : Part → Part} {s : State} {n : LineNo} {g : Line → Line} (hm : s.part.mode.live = true)
    (hf : f s.part = s.part.moveLine n g) :
    let t := { s with part := s.part.work f }
    s.lineStep n t ∧ t.part.line n = g (s.part.line n) ∧
      ((g (s.part.line n)).state ≠ (s.part.line n).state → t.part.arbiter.decisionPending = true) ∧
      t.part.queue = s.part.queue := by
  have hquiet := State.quietBut_work (f := f) (bs := [.lines, .arbiter]) hm
    (by rw [hf]; exact Part.moveLine_keeps n g s.part) (by rw [hf]; exact Part.moveLine_entries n g s.part) (by decide)
  simp only [Part.work_of_live hm, hf] at hquiet ⊢
  refine ⟨⟨hquiet, fun m hmn => ?_⟩, ?_, fun hne => ?_, ?_⟩
  · rw [Part.line_settle, Part.line_moveLine_ne hmn]
  · rw [Part.line_settle, Part.line_moveLine]
  · rw [Part.settle_arbiter, Part.moveLine_arbiter]
    simp [hne]
  · rw [Part.settle_queue, Part.moveLine_queue]

/-- A step that changes one line and not its state. -/
theorem State.lineStep_sets {f : Part → Part} {s : State} {n : LineNo} {l : Line} (hm : s.part.mode.live = true)
    (hf : f s.part = s.part.setLine n l) :
    let t := { s with part := s.part.work f }
    s.lineStep n t ∧ t.part.line n = l := by
  have hquiet := State.quietBut_work (f := f) (bs := [.lines, .arbiter]) hm
    (by rw [hf]; exact Part.keepsBut_mono (Part.setLine_keeps n l s.part) (by simp))
    (by rw [hf]; exact Bus.keepsButEntries_refl _) (by decide)
  simp only [Part.work_of_live hm, hf] at hquiet ⊢
  exact ⟨⟨hquiet, fun m hmn => by rw [Part.line_settle, Part.line_setLine_ne hmn]⟩, by rw [Part.line_settle, Part.line_setLine]⟩

/-! ### FAULT -/

/-- A line enters or leaves FAULT: its change of state, the cause, the log record and the condition (R108, R109). -/
def Part.faultChanges (n : LineNo) (g : Line → Line) (kind : LogKind) (sense : BitVec 2) (active : Bool) (p : Part) : Part :=
  let p := (p.moveLine n g).raise .line
  if p.mode.serving then
    Part.logNow { kind, line := BitVec.ofNat 2 n.val, sense, point := BitVec.ofNat 9 (faultPoint n).val }
      (p.tell (.condition (faultPoint n) active))
  else p

theorem Part.enterFault_eq (n : LineNo) (p : Part) :
    p.enterFault n = p.faultChanges n (Line.become .fault none) .lineFault 1 true := rfl

theorem Part.leaveFault_eq (n : LineNo) (p : Part) :
    p.leaveFault n = p.faultChanges n (fun l => l.become l.bySense none) .lineRestored 2 false := rfl

theorem Part.faultChanges_spec {n : LineNo} {g : Line → Line} {kind : LogKind} {sense : BitVec 2} {active : Bool} {p : Part}
    (hm : p.mode.serving = true) :
    let q := p.faultChanges n g kind sense active
    p.keepsBut [.bus, .notice, .points, .lines, .arbiter] q ∧ p.keepsOtherLines n q ∧ q.line n = g (p.line n) ∧
      q.arbiter = (p.moveLine n g).arbiter ∧
      q.points = { p.points with work := p.points.work ++ [.condition (faultPoint n) active] } ∧ p.causeSet .line q ∧
      (p.notice.heads.isSome = true → q.bus.logged = p.bus.logged ++ [p.lineLog n kind sense]) := by
  have hmove := Part.moveLine_keeps n g p
  have hraise := Part.raise_keeps .line (p.moveLine n g)
  have hcause := Part.raise_causeSet .line (p.moveLine n g)
  have hentries := Bus.keepsButEntries_trans (Part.moveLine_entries n g p) (Part.raise_entries .line (p.moveLine n g))
  have hheads : ((p.moveLine n g).raise .line).notice.heads = p.notice.heads := by
    rw [Part.raise_notice, Part.moveLine_notice]
  have hlines : ∀ m, ((p.moveLine n g).raise .line).line m = (p.moveLine n g).line m :=
    Part.line_of_lines hraise.lines
  generalize hq : (p.moveLine n g).raise .line = q at hraise hcause hentries hheads hlines
  have hserving : q.mode.serving = true := by rw [hraise.mode, hmove.mode]; exact hm
  have heq : p.faultChanges n g kind sense active = Part.logNow
      { kind, line := BitVec.ofNat 2 n.val, sense, point := BitVec.ofNat 9 (faultPoint n).val }
      (q.tell (.condition (faultPoint n) active)) := by
    unfold Part.faultChanges
    simp only [hq, hserving, if_true]
  simp only [heq]
  have hlog := Part.logNow_keeps { kind, line := BitVec.ofNat 2 n.val, sense, point := BitVec.ofNat 9 (faultPoint n).val }
    (q.tell (.condition (faultPoint n) active))
  refine ⟨?_, fun m hmn => ?_, ?_, ?_, ?_, fun hen => ?_, fun hh => ?_⟩
  · exact Part.keepsBut_trans (Part.keepsBut_trans (Part.keepsBut_trans (Part.keepsBut_mono hmove (by simp))
      (Part.keepsBut_mono hraise (by simp))) (Part.keepsBut_mono (Part.tell_keeps _ q) (by simp))) (Part.keepsBut_mono hlog (by simp))
  · rw [Part.line_of_lines hlog.lines, Part.line_of_lines (Part.tell_lines _ _), hlines, Part.line_moveLine_ne hmn]
  · rw [Part.line_of_lines hlog.lines, Part.line_of_lines (Part.tell_lines _ _), hlines, Part.line_moveLine]
  · rw [hlog.arbiter, Part.tell_arbiter, hraise.arbiter]
  · rw [hlog.points, Part.tell, hraise.points, hmove.points]
  · have hset := hcause (by rw [Part.causeEnable, Part.mirror_of_mirrors hmove.mirrors]; exact hen)
    rw [Part.logNow, Part.makeLog_notice]
    exact hset
  · have hnow : (q.tell (.condition (faultPoint n) active)).now = p.now := by
      rw [Part.now, Part.tell_time, hraise.time, hmove.time, Part.now]
    rw [Part.logNow_logged (p := q.tell (.condition (faultPoint n) active)) hserving (by rw [Part.tell_notice, hheads]; exact hh), hnow, Part.tell_bus, hentries.logged]
    rfl

/-- A line in FAULT puts the part in trouble (R166). -/
theorem Part.trouble_of_fault {old p : Part} {n : LineNo} (h : (p.line n).state = .fault) :
    (Part.settle old p).notice.trouble ≠ .off := by
  have hcur : (Part.settle old p).troubleDue = (Part.settle old p).notice.trouble := Part.settle_current old p
  have hfault : (Part.settle old p).lines.toList.any (·.state = .fault) = true :=
    (Part.anyFault_iff _).mpr ⟨n, by rw [Part.line_settle]; exact h⟩
  rw [← hcur, Part.troubleDue]
  simp only [hfault, if_true]
  repeat' apply ite_ne_of_ne
  all_goals exact nofun

/-! ### The office sense and the guard -/

theorem reached_some {k len : Nat} : reached (some k) len = decide (len ≤ k) := rfl

/-- The office sense of a line (R105). -/
theorem Line.setOffice_of_ne {l : Line} {judged asserted : Bool} (h : l.officeSense ≠ asserted) :
    l.setOffice judged asserted = { l with
      officeSense := asserted
      debounce := if judged = true ∧ ((l.state = .idle ∧ asserted = true) ∨ (l.state = .office ∧ asserted = false))
        then some 0 else none } := by
  simp [Line.setOffice, h]

theorem Line.setOffice_of_eq {l : Line} {judged asserted : Bool} (h : l.officeSense = asserted) :
    l.setOffice judged asserted = l := by
  simp [Line.setOffice, h]

/-- The end of the guard of a line (R121). -/
theorem State.guardEnds_spec {s : State} {n : LineNo} (hstate : (s.part.line n).state = .release)
    (htimer : (s.part.line n).timer = some 0) : Part.guardEnds n s.part =
      if (s.part.line n).disablePending then s.part.moveLine n Line.disable
      else if (s.part.line n).lossExpired then s.part.enterFault n
      else s.part.moveLine n fun l => l.become l.bySense none := by
  simp [Part.guardEnds, hstate, Line.timeUp, htimer]

theorem Line.bySense_not_release (l : Line) : l.bySense ≠ .release := by
  unfold Line.bySense
  split <;> exact nofun

theorem Line.bySense_seized (l : Line) : l.bySense.seized = false := by
  unfold Line.bySense
  split <;> rfl

/-- Settles O54: by the state of the line, and by whether its time has come. -/
theorem officeSenseAndGuardSetTheLineState : Obligations.OfficeSenseAndGuardSetTheLineState := by
  refine ⟨fun n asserted s => ⟨_, rfl, ⟨rfl, rfl, rfl, Part.setLine_keeps _ _ _⟩, fun m hmn => Part.line_setLine_ne hmn _ _,
    ?_, fun hsame => ?_, fun hne hm => ?_⟩, fun n k s hm hk => ⟨fun hstate hsense hlen => ?_, fun hstate hsense hlen => ?_,
    fun hlen hcur => ?_, fun hlen hcur => ?_⟩, fun n s hm hstate htimer => ⟨fun hdisable => ?_, fun hdisable hloss => ?_,
    fun hdisable hloss => ?_⟩⟩
  · rw [Part.line_setLine]
    by_cases hsame : (s.part.line n).officeSense = asserted
    · rw [Line.setOffice_of_eq hsame, ← hsame]
    · rw [Line.setOffice_of_ne hsame]
  · rw [Line.setOffice_of_eq hsame, Part.setLine_self]
  · rw [Part.line_setLine, Line.setOffice_of_ne hne]
    simp only [hm, true_and]
  · obtain ⟨hstep, hline, hpending, -⟩ := State.lineStep_moves (g := Line.become .office none) (f := fun p =>
      if (p.line n).state = .idle ∧ (p.line n).officeSense ∧ reached (p.line n).debounce Config.officeOnMs then
        p.moveLine n (Line.become .office none) else p) hm (if_pos ⟨hstate, hsense, by simpa [hk, reached_some] using hlen⟩)
    refine ⟨_, rfl, hstep, by rw [hline]; rfl, ?_, hpending (by rw [hstate]; exact nofun)⟩
    rw [hline]
    simp [Line.become, hsense]
  · obtain ⟨hstep, hline, hpending, -⟩ := State.lineStep_moves (g := Line.become .idle none) (f := fun p =>
      if (p.line n).state = .office ∧ !(p.line n).officeSense ∧ reached (p.line n).debounce Config.officeOffMs then
        p.moveLine n (Line.become .idle none) else p) hm
      (if_pos ⟨hstate, by simpa using hsense, by simpa [hk, reached_some] using hlen⟩)
    refine ⟨_, rfl, hstep, by rw [hline]; rfl, ?_, hpending (by rw [hstate]; exact nofun)⟩
    rw [hline]
    simp [Line.become, hsense]
  · refine ⟨_, rfl, State.work_idle hcur (if_neg ?_)⟩
    simp [hk, reached_some, hlen]
  · refine ⟨_, rfl, State.work_idle hcur (if_neg ?_)⟩
    simp [hk, reached_some, hlen]
  · obtain ⟨hstep, hline, -⟩ := State.lineStep_moves (Mode.live_of_serving hm)
      ((State.guardEnds_spec hstate htimer).trans (if_pos hdisable))
    exact ⟨_, rfl, hstep, by rw [hline]; rfl, by rw [hline]; rfl⟩
  · have hfault : Part.guardEnds n s.part = s.part.enterFault n := by
      rw [State.guardEnds_spec hstate htimer, if_neg (by simp [hdisable]), if_pos hloss]
    obtain ⟨hkeeps, hothers, hline, -, hpoints, -⟩ := Part.faultChanges_spec (n := n) (g := Line.become .fault none)
      (kind := .lineFault) (sense := 1) (active := true) hm
    rw [← Part.enterFault_eq, ← hfault] at hkeeps hothers hline hpoints
    refine ⟨_, rfl, State.keepsBut_work (Mode.live_of_serving hm) hkeeps, fun m hmn => ?_, ?_, ?_, ?_⟩ <;>
      simp only [Part.work_of_live (Mode.live_of_serving hm), Part.line_settle, Part.settle_points]
    · exact hothers m hmn
    · rw [hline]
      rfl
    · rw [hline]
      rfl
    · rw [hpoints]
  · have hguard : Part.guardEnds n s.part = s.part.moveLine n fun l => l.become l.bySense none := by
      rw [State.guardEnds_spec hstate htimer, if_neg (by simp [hdisable]), if_neg (by simp [hloss])]
    obtain ⟨hstep, hline, -⟩ := State.lineStep_moves (Mode.live_of_serving hm) hguard
    refine ⟨_, rfl, hstep, ?_, by rw [hline]; rfl⟩
    rw [Part.seize, hline]
    exact Line.bySense_seized _

end Sys2Proof.Machine
end

section
/-! PROOFS. Dialling up to the handshake, and intervals that have not ended (R115 to R118, R143). -/

namespace Sys2Proof.Machine

/-! ### Dialling -/

theorem Line.dialAt_dialsFrom {l : Line} {c : Call} (hc : l.call = some c) (pos : Nat) : (l.dialAt pos).dialsFrom c pos := by
  simp only [Line.dialAt, Line.dialsFrom, hc, true_and]
  cases c.dial[pos]? with
  | none => exact ⟨rfl, rfl⟩
  | some d => cases d <;> exact ⟨rfl, rfl⟩

theorem Line.dialNext_eq {l : Line} {c : Call} (hc : l.call = some c) : l.dialNext = l.dialAt (c.dialPos + 1) := by
  simp [Line.dialNext, hc]

theorem Line.symbol_of {l : Line} {c : Call} (hc : l.call = some c) : l.call.bind Call.symbol = c.dial[c.dialPos]? := by
  simp [hc, Call.symbol]

theorem Line.inWait_of {l : Line} {c : Call} (hstate : l.state = .dialing) (hc : l.call = some c) :
    l.inWait = decide (c.dial[c.dialPos]? = some .wait) := by
  simp only [Line.inWait, hstate, Line.symbol_of hc, decide_true, Bool.true_and]
  exact beq_eq_decide _ _

/-- READY puts the line in LINKED, in HANDSHAKE or, where its tone has stopped, in TURNAROUND (R143). -/
theorem Line.link_spec {l : Line} {c : Call} (hc : l.call = some c) :
    l.link.state = .linked ∧
      if l.detector.readySilence < 50 then
        l.link.timer = some 2000 ∧ l.link.call = some { c with phase := .handshake }
      else l.link.timer = some 100 ∧ l.link.call = some { c with phase := .turnaround } := by
  unfold Line.link Line.readyStopped
  by_cases hready : l.detector.readySilence < 50
  · rw [if_neg (by simpa using hready), if_pos hready]
    exact ⟨rfl, rfl, by simp [Line.toPhase, Line.onCall, Line.become, LineState.inCall, hc]⟩
  · rw [if_pos (by simpa using hready), if_neg hready]
    exact ⟨rfl, rfl, by simp [Line.turnaround, Line.toPhase, Line.onCall, Line.become, LineState.inCall, hc]⟩

/-! ### Intervals that have not ended -/

theorem Line.timeUp_of {l : Line} (h : l.timer = some 0) : l.timeUp = true := by simp [Line.timeUp, h]

theorem Line.not_timeUp_of {l : Line} (h : l.timer ≠ some 0) : l.timeUp = false := by simp [Line.timeUp, h]

theorem Part.afterPhaseDo_of_not_timeUp {n : LineNo} {ph : Phase} {f : Part → Part} {p : Part}
    (h : (p.line n).timeUp = false) : p.afterPhaseDo n ph f = p := by
  simp [Part.afterPhaseDo, h]

/-- Settles O56: the steps of dialling by the state of the line; an interval that has not ended by its timer. -/
theorem callsAreDialledToTheHandshake : Obligations.CallsAreDialledToTheHandshake := by
  refine ⟨fun n c s hm hc => ⟨fun hstate => ?_, fun hstate hsymbol => ?_, fun hstate => ?_,
    fun htimer => ⟨fun hstate => ?_, fun hstate hblind => ?_, fun d hstate hsymbol hwait => ?_⟩⟩,
    fun n s hcur htimer e he => ?_⟩
  · obtain ⟨hstep, hline, -⟩ := State.lineStep_moves (g := Line.dialAt 0) (f := fun p =>
      if (p.line n).state = .dialtone then p.moveLine n (Line.dialAt 0)
      else if (p.line n).inWait then p.moveLine n Line.dialNext else p) hm (if_pos hstate)
    exact ⟨_, rfl, hstep, by rw [hline]; exact Line.dialAt_dialsFrom hc 0⟩
  · have hinWait : (s.part.line n).inWait = true := by rw [Line.inWait_of hstate hc, hsymbol]; rfl
    obtain ⟨hstep, hline, -⟩ := State.lineStep_moves (g := Line.dialNext) (f := fun p =>
      if (p.line n).state = .dialtone then p.moveLine n (Line.dialAt 0)
      else if (p.line n).inWait then p.moveLine n Line.dialNext else p) hm
      ((if_neg (by rw [hstate]; exact nofun)).trans (if_pos hinWait))
    exact ⟨_, rfl, hstep, by rw [hline, Line.dialNext_eq hc]; exact Line.dialAt_dialsFrom hc _⟩
  · obtain ⟨hstep, hline, hpending, -⟩ := State.lineStep_moves (g := Line.link) (f := fun p =>
      if (p.line n).state = .ringback then p.moveLine n Line.link else p) hm (if_pos hstate)
    obtain ⟨hlinked, hphase⟩ := Line.link_spec hc
    rw [← hline] at hlinked hphase
    exact ⟨_, rfl, hstep, hlinked, hpending (by rw [← hline, hlinked, hstate]; exact nofun), hphase⟩
  · obtain ⟨hstep, hline, -⟩ := State.lineStep_moves (g := Line.become .dialtone (some Config.dialToneWaitMs)) (f := fun p =>
      if (p.line n).state = .breaking ∧ (p.line n).timeUp then p.moveLine n (Line.become .dialtone (some Config.dialToneWaitMs))
      else p) hm (if_pos ⟨hstate, Line.timeUp_of htimer⟩)
    exact ⟨_, rfl, hstep, by rw [hline]; rfl, by rw [hline]; rfl, by rw [hline]; exact hc, by rw [Part.hook, hline]; rfl⟩
  · obtain ⟨hstep, hline, -⟩ := State.lineStep_moves (g := Line.dialAt 0) (f := fun p =>
      if (p.line n).state = .dialtone ∧ (p.line n).timeUp then
        if p.blindDial n then p.moveLine n (Line.dialAt 0) else p.failLine n .noDialTone
      else p) hm ((if_pos ⟨hstate, Line.timeUp_of htimer⟩).trans (if_pos hblind))
    exact ⟨_, rfl, hstep, by rw [hline]; exact Line.dialAt_dialsFrom hc 0⟩
  · have hinSymbol : (s.part.line n).inSymbol = true := by
      simp [Line.inSymbol, hstate, Line.symbol_of hc, hsymbol, hwait]
    obtain ⟨hstep, hline, -⟩ := State.lineStep_moves (g := Line.dialNext) (f := fun p =>
      if (p.line n).inSymbol && (p.line n).timeUp then p.moveLine n Line.dialNext else p) hm
      (if_pos (by rw [hinSymbol, Line.timeUp_of htimer]; rfl))
    exact ⟨_, rfl, hstep, by rw [hline, Line.dialNext_eq hc]; exact Line.dialAt_dialsFrom hc _⟩
  · have hnot := Line.not_timeUp_of htimer
    have hphase : ∀ ph f, s.part.afterPhaseDo n ph f = s.part := fun ph f => Part.afterPhaseDo_of_not_timeUp hnot
    simp only [List.mem_cons, List.not_mem_nil, or_false] at he
    rcases he with rfl | rfl | rfl | rfl | rfl | rfl | rfl | rfl | rfl | rfl | rfl
    case inr.inr.inr.inr.inr.inr.inr.inr.inr.inr =>
      exact ⟨_, rfl, State.work_idle hcur (if_pos (.inr (by rw [hnot]; rfl)))⟩
    all_goals exact ⟨_, rfl, State.work_idle hcur (by simp [hnot, hphase])⟩

end Sys2Proof.Machine
end

section
/-! PROOFS. Entries in the write-back queue (R12), the clock, heartbeat and mains supervision, the pulse of TROUBLE (09). -/

namespace Sys2Proof.Machine

/-! ### Entries -/

/-- An address entered is in the queue or waits for a place in it (R12). -/
theorem Part.enter_hasEntry {p : Part} (hm : p.mode.live = true) (o : Owner) (off : Nat) : (p.enter o off).bus.hasEntry off := by
  unfold Part.enter
  split
  · rename_i h
    exact .inl (by simpa [hm] using h)
  split
  · rename_i hwait
    obtain ⟨w, hw, ho⟩ := List.any_eq_true.mp hwait
    refine .inr ⟨_, List.mem_map_of_mem hw, ?_⟩
    by_cases hthere : w.owner = o ∧ w.first ≠ off ∧ off ∉ w.later
    · rw [if_pos hthere]
      exact .inr (by simp)
    · rw [if_neg hthere]
      by_cases hfirst : w.first = off
      · exact .inl hfirst
      · exact .inr (by simpa [of_decide_eq_true ho, hfirst] using hthere)
  split
  · exact .inl (by simp)
  · exact .inr ⟨_, List.mem_append_right _ (List.mem_singleton_self _), .inl rfl⟩

/-- Entering an address loses no other (R12). -/
theorem Part.enter_keepsEntry {p : Part} {a : Nat} (h : p.bus.hasEntry a) (o : Owner) (off : Nat) :
    (p.enter o off).bus.hasEntry a := by
  unfold Part.enter
  split
  · exact h
  split
  · rcases h with h | ⟨w, hw, ha⟩
    · exact .inl h
    · refine .inr ⟨_, List.mem_map_of_mem hw, ?_⟩
      split
      · exact ha.imp id fun hl => List.mem_append_left _ hl
      · exact ha
  split
  · exact h.imp (fun h => List.mem_append_left _ h) id
  · exact h.imp id fun ⟨w, hw, ha⟩ => ⟨w, List.mem_append_left _ hw, ha⟩

theorem Part.enterAll_keepsEntry {p : Part} {a : Nat} (h : p.bus.hasEntry a) (o : Owner) (offs : List Nat) :
    (p.enterAll o offs).bus.hasEntry a := by
  induction offs generalizing p with
  | nil => exact h
  | cons b bs ih => exact ih (Part.enter_keepsEntry h o b)

theorem Part.enterAll_hasEntry {p : Part} (hm : p.mode.live = true) (o : Owner) (offs : List Nat) :
    ∀ a ∈ offs, (p.enterAll o offs).bus.hasEntry a := by
  induction offs generalizing p with
  | nil => simp
  | cons b bs ih =>
    intro a ha
    rcases List.mem_cons.mp ha with rfl | ha
    · exact Part.enterAll_keepsEntry (Part.enter_hasEntry hm o a) o bs
    · exact ih (p := p.enter o b) (by rw [Part.enter_mode]; exact hm) a ha

/-- The queue has a place: the address is in it afterwards, and no owner waits (R12). -/
theorem Part.enter_room {p : Part} (hm : p.mode.live = true) (hwait : p.bus.wbWait = [])
    (hroom : p.bus.wbq.length < Config.writeBackPlaces) (o : Owner) (off : Nat) :
    off ∈ (p.enter o off).bus.wbq ∧ (p.enter o off).bus.wbWait = [] ∧ p.bus.wbq ⊆ (p.enter o off).bus.wbq ∧
      (p.enter o off).bus.wbq.length ≤ p.bus.wbq.length + 1 := by
  by_cases hthere : off ∈ p.bus.wbq
  · rw [Part.enter_present hthere]
    exact ⟨hthere, hwait, List.Subset.refl _, Nat.le_succ _⟩
  · have hwbq := Part.enter_wbq (o := o) hm hthere hwait hroom
    rw [hwbq]
    refine ⟨by simp, ?_, List.subset_append_left _ _, by simp⟩
    simp [Part.enter, hm, hthere, hwait, hroom]

theorem Part.enterAll_room {p : Part} (hm : p.mode.live = true) (hwait : p.bus.wbWait = []) (o : Owner) {offs : List Nat}
    (hroom : p.bus.wbq.length + offs.length ≤ Config.writeBackPlaces) :
    (∀ a ∈ offs, a ∈ (p.enterAll o offs).bus.wbq) ∧ (p.enterAll o offs).bus.wbWait = [] ∧
      p.bus.wbq ⊆ (p.enterAll o offs).bus.wbq ∧ (p.enterAll o offs).bus.wbq.length ≤ p.bus.wbq.length + offs.length := by
  induction offs generalizing p with
  | nil => exact ⟨by simp, hwait, List.Subset.refl _, Nat.le_refl _⟩
  | cons b bs ih =>
    rw [List.length_cons] at hroom
    obtain ⟨hmem, hwait', hsub, hlen⟩ := Part.enter_room hm hwait (by omega) o b
    obtain ⟨ihmem, ihwait, ihsub, ihlen⟩ := ih (p := p.enter o b) (by rw [Part.enter_mode]; exact hm) hwait' (by omega)
    refine ⟨fun a ha => ?_, ihwait, fun a ha => ihsub (hsub ha), by rw [List.length_cons]; exact ihlen.trans (by omega)⟩
    rcases List.mem_cons.mp ha with rfl | ha
    · exact ihsub hmem
    · exact ihmem a ha

theorem Part.settle_keepsEntry {p : Part} {a : Nat} (h : p.bus.hasEntry a) (old : Part) :
    (Part.settle old p).bus.hasEntry a := by
  unfold Part.settle
  simp only
  have hq : p.retrouble.bus.hasEntry a := by rw [Part.retrouble_bus]; exact h
  split
  · exact hq
  · exact Part.enter_keepsEntry hq _ _

theorem Part.settle_wbq {p : Part} {a : Nat} (h : a ∈ p.bus.wbq) (old : Part) : a ∈ (Part.settle old p).bus.wbq :=
  (Part.settle_entries old p).2.2.2.2.2.subset h

/-! ### The clock -/

theorem Part.enterTime_spec (p : Part) : p.keepsBut [.bus] p.enterTime ∧ p.bus.keepsButEntries p.enterTime.bus ∧
    (p.mode.live = true → p.timeEntered 0 p.enterTime) ∧ (p.mode.live = false → p.enterTime = p) := by
  refine ⟨Part.enterAll_keeps _ _ p, Part.enterAll_entries _ _ p, fun hm a ha => ⟨Part.enterAll_hasEntry hm _ _ a ha,
    fun hwait hroom => (Part.enterAll_room hm hwait _ (by simpa using hroom)).1 a ha⟩, fun hm => ?_⟩
  have henter : ∀ off, p.enter .timeBase off = p := fun off => by simp [Part.enter, hm]
  simp only [Part.enterTime, Part.enterAll, List.foldl, henter]

/-- What a fallen test does (R157). -/
theorem Part.testDue_eq (p : Part) : p.testDue =
    if p.mode.serving = true ∧ p.time.minute = testMinute (p.mirror 0x006) ∧ p.time.nextTest = some p.time.day then
      { p with
        points := { p.points with work := p.points.work ++ [.test (p.virtualRoute 7) false] }
        time := { p.time with nextTest := some (p.time.day + BitVec.ofNat 16 (testInterval (p.mirror 0x007))) } }
    else p := by
  unfold Part.testDue
  by_cases h : p.mode.serving = true ∧ p.time.minute = testMinute (p.mirror 0x006) ∧ p.time.nextTest = some p.time.day
  · rw [if_pos h, if_pos (by simpa using h)]
    rfl
  · rw [if_neg h, if_neg (by simpa using h)]

theorem TimeBase.advance_minute {t : TimeBase} (h : t.second = 59) : t.advance = { t with
    second := 0, minute := if t.minute < 1439 then t.minute + 1 else 0
    day := if t.minute < 1439 then t.day else t.day + 1, elapsedMs := 0 } := by
  unfold TimeBase.advance
  rw [if_neg (by omega)]
  split <;> rfl

/-- A change of minute (R154, R157). -/
theorem Part.secondPasses_minute {p : Part} (helapsed : 1000 ≤ p.time.elapsedMs) (hsecond : p.time.second = 59) :
    p.secondPasses = ({ p with time := p.time.advance } : Part).enterTime.testDue := by
  have hzero : p.time.advance.second = 0 := by rw [TimeBase.advance_minute hsecond]
  unfold Part.secondPasses
  rw [if_neg (by simpa using helapsed)]
  simp only [hzero, if_true]

theorem Part.powered_of_live {p : Part} (h : p.mode.live = true) (f : Part → Part) : p.powered f = Part.settle p (f p) := by
  unfold Part.powered
  cases hm : p.mode <;> simp [hm, Mode.live] at h ⊢

theorem Part.powered_of_not_live {p : Part} (h : p.mode.live = false) (hoff : p.mode ≠ .off) (f : Part → Part) :
    p.powered f = f p := by
  unfold Part.powered
  cases hm : p.mode <;> simp [hm, Mode.live] at h hoff ⊢

/-- A step that works whenever the part has power settles, or leaves what it left (R154, R162). -/
theorem Part.powered_cases {f : Part → Part} {p : Part} (hoff : p.mode ≠ .off) :
    (p.mode.live = true ∧ p.powered f = Part.settle p (f p)) ∨ (p.mode.live = false ∧ p.powered f = f p) := by
  by_cases hm : p.mode.live = true
  · exact .inl ⟨hm, Part.powered_of_live hm f⟩
  · exact .inr ⟨by simpa using hm, Part.powered_of_not_live (by simpa using hm) hoff f⟩

theorem State.quietBut_powered {f : Part → Part} {s : State} {bs : List Block} (hoff : s.part.mode ≠ .off)
    (hkeeps : s.part.keepsBut (.bus :: bs) (f s.part)) (hentries : s.part.bus.keepsButEntries (f s.part).bus)
    (hb : .notice ∉ bs) : s.quietBut bs { s with part := s.part.powered f } := by
  rcases Part.powered_cases (f := f) hoff with ⟨hm, h⟩ | ⟨-, h⟩
  · have hquiet := State.quietBut_work hm hkeeps hentries hb
    rw [Part.work_of_live hm] at hquiet
    rw [h]
    exact hquiet
  · rw [h]
    exact ⟨⟨rfl, rfl, rfl, Part.keepsBut_mono hkeeps (by intro b hb; simp at hb; rcases hb with h | h <;> simp [h])⟩, hentries,
      (hkeeps.notice (by simpa using hb)) ▸ Notice.keepsButTrouble_refl _⟩

theorem State.powered_idle {f : Part → Part} {s : State} (hcur : s.part.troubleCurrent) (hf : f s.part = s.part) :
    { s with part := s.part.powered f } = s := by
  have hwork : s.part.powered f = s.part := by
    by_cases hoff : s.part.mode = .off
    · simp [Part.powered, hoff]
    · rcases Part.powered_cases (f := f) hoff with ⟨-, h⟩ | ⟨-, h⟩
      · rw [h, hf, Part.settle_refl hcur]
      · rw [h, hf]
  rw [hwork]

/-- What a settled step shows of a block it does not touch. -/
theorem Part.powered_keeps {f : Part → Part} {p : Part} (hoff : p.mode ≠ .off) :
    (f p).keepsBut [.bus, .notice] (p.powered f) := by
  rcases Part.powered_cases (f := f) hoff with ⟨-, h⟩ | ⟨-, h⟩ <;> rw [h]
  · exact Part.settle_keeps _ _
  · exact Part.keepsBut_refl _ _

/-- The clock within a minute. -/
theorem Part.secondPasses_second {p : Part} (helapsed : 1000 ≤ p.time.elapsedMs) (hsecond : p.time.second < 59) :
    p.secondPasses = { p with time := { p.time with second := p.time.second + 1, elapsedMs := 0 } } := by
  have hadvance : p.time.advance = { p.time with second := p.time.second + 1, elapsedMs := 0 } := by
    rw [TimeBase.advance, if_pos hsecond]
  unfold Part.secondPasses
  rw [if_neg (by simpa using helapsed)]
  simp only [hadvance]
  rw [if_neg (by omega)]

/-- What a change of minute does (R154, R157). -/
theorem Part.minutePasses_spec {p : Part} (helapsed : 1000 ≤ p.time.elapsedMs) (hsecond : p.time.second = 59) :
    let q := p.secondPasses
    let day := if p.time.minute < 1439 then p.time.day else p.time.day + 1
    let minute := if p.time.minute < 1439 then p.time.minute + 1 else 0
    p.keepsBut [.bus, .points, .time] q ∧ p.bus.keepsButEntries q.bus ∧ q.time.day = day ∧ q.time.minute = minute ∧
      q.time.second = 0 ∧ q.time.elapsedMs = 0 ∧ (p.mode.live = true → p.timeEntered 0 q) ∧
      (p.mode.live = false → q.bus = p.bus) ∧
      if p.mode.serving = true ∧ minute = testMinute (p.mirror 0x006) ∧ p.time.nextTest = some day then
        q.points.work = p.points.work ++ [.test (p.virtualRoute 7) false] ∧
        q.time.nextTest = some (day + BitVec.ofNat 16 (testInterval (p.mirror 0x007)))
      else q.points = p.points ∧ q.time.nextTest = p.time.nextTest := by
  have hminute := TimeBase.advance_minute hsecond
  obtain ⟨hkeeps, hentries, hentered, hquiet⟩ := Part.enterTime_spec { p with time := p.time.advance }
  simp only [Part.secondPasses_minute helapsed hsecond]
  generalize hq : ({ p with time := p.time.advance } : Part).enterTime = q at hkeeps hentries hentered hquiet
  have htime : q.time = { p.time with
      second := 0, minute := if p.time.minute < 1439 then p.time.minute + 1 else 0
      day := if p.time.minute < 1439 then p.time.day else p.time.day + 1, elapsedMs := 0 } := hkeeps.time.trans hminute
  have hmode : q.mode = p.mode := hkeeps.mode
  have hpoints : q.points = p.points := hkeeps.points
  have hmirrors : q.mirrors = p.mirrors := hkeeps.mirrors
  have hmirror : ∀ a, q.mirror a = p.mirror a := Part.mirror_of_mirrors hmirrors
  have hroute : q.virtualRoute 7 = p.virtualRoute 7 := by simp only [Part.virtualRoute, hmirror]
  have hpq : p.keepsBut [.bus, .points, .time] q := fun b hb => by
    have h := hkeeps b (by simp at hb ⊢; exact hb.1)
    cases b <;> simp_all [Block.same]
  rw [Part.testDue_eq, hmode, hmirror, hmirror, hroute, htime, hpoints]
  generalize (if p.time.minute < 1439 then p.time.day else p.time.day + 1) = day at htime ⊢
  generalize (if p.time.minute < 1439 then p.time.minute + 1 else 0) = minute at htime ⊢
  by_cases hdue : p.mode.serving = true ∧ minute = testMinute (p.mirror 0x006) ∧ p.time.nextTest = some day
  · simp only [if_pos hdue]
    refine ⟨fun b hb => ?_, hentries, trivial, trivial, trivial, trivial, hentered, fun h => by rw [hquiet h], trivial, trivial⟩
    have h := hpq b hb
    cases b <;> simp_all [Block.same]
  · simp only [if_neg hdue]
    exact ⟨hpq, hentries, by rw [htime], by rw [htime], by rw [htime], by rw [htime], hentered, fun h => by rw [hquiet h],
      hpoints, by rw [htime]⟩

/-! ### The Heartbeat Monitor -/

theorem Part.heartbeatExpires_spec {p : Part} {k : Nat} (htimer : p.heartbeat.timer = some k)
    (hlen : 1000 * p.heartbeatPeriod ≤ k) :
    p.keepsBut [.bus, .notice, .points, .heartbeat] p.heartbeatExpires ∧
      p.heartbeatExpires.heartbeat = { timer := none, silent := true } ∧ p.causeSet .heartbeat p.heartbeatExpires ∧
      (p.heartbeat.silent = false → p.heartbeatExpires.points.work = p.points.work ++ [.condition 256 true]) := by
  have heq : p.heartbeatExpires = Part.setHeartbeat none true (p.raise .heartbeat) := by
    simp [Part.heartbeatExpires, htimer, reached_some, hlen]
  have hraise := Part.raise_keeps .heartbeat p
  have hset := Part.setHeartbeat_keeps none true (p.raise .heartbeat)
  rw [heq]
  refine ⟨Part.keepsBut_trans (Part.keepsBut_mono hraise (by simp)) (Part.keepsBut_mono hset (by simp)),
    Part.setHeartbeat_heartbeat _ _ _, ?_, fun hsilent => ?_⟩
  · intro hen
    rw [hset.notice]
    exact Part.raise_causeSet .heartbeat p hen
  · rw [Part.setHeartbeat_points, hraise.points, hraise.heartbeat, hsilent]
    rfl

/-- A silent panel puts the part in trouble (R166). -/
theorem Part.trouble_of_silent {old p : Part} (h : p.heartbeat.silent = true) : (Part.settle old p).notice.trouble ≠ .off := by
  have hcur : (Part.settle old p).troubleDue = (Part.settle old p).notice.trouble := Part.settle_current old p
  rw [← hcur, Part.troubleDue]
  simp only [Part.settle_heartbeat, h, if_true]
  repeat' apply ite_ne_of_ne
  all_goals exact nofun

/-! ### Mains supervision -/

/-- What the expiry of the mains timer does (R162, R163). -/
theorem Part.mainsExpires_spec {p : Part} {k : Nat} (htimer : p.time.mainsTimer = some k) (hlen : 60000 ≤ k) :
    let q := p.mainsExpires
    p.keepsBut [.bus, .points, .arbiter, .time] q ∧ p.bus.keepsButEntries q.bus ∧
      q.arbiter.offers = p.arbiter.offers ∧
      q.time = { p.time with
        mainsActive := !p.time.mainsActive
        mainsTimer := if p.time.mainsLost = !p.time.mainsActive then none else some 0 } ∧
      (p.mode.live = true → q.arbiter.decisionPending = true ∧
        (p.bus.wbWait = [] → p.bus.wbq.length < Config.writeBackPlaces → 0x017 ∈ q.bus.wbq)) ∧
      q.points = { p.points with work := p.points.work ++
        if p.mode.serving = true then [.condition 257 (!p.time.mainsActive)] else [] } := by
  generalize hr : ({ p with time := { p.time with mainsActive := !p.time.mainsActive }.restartMains } : Part) = r
  have hpr : p.keepsBut [.time] r := fun b hb => by
    cases b <;> simp [Block.same, ← hr] at hb ⊢
  have hrtime : r.time = { p.time with
      mainsActive := !p.time.mainsActive
      mainsTimer := if p.time.mainsLost = !p.time.mainsActive then none else some 0 } := by
    rw [← hr]
    rfl
  generalize hq : (if r.mode.live then Part.occasion (r.enter .windowMirrors 0x017) else r) = q
  have hrq : r.keepsBut [.bus, .arbiter] q ∧ r.bus.keepsButEntries q.bus ∧ q.arbiter.offers = r.arbiter.offers ∧
      (r.mode.live = true → q.arbiter.decisionPending = true ∧
        (r.bus.wbWait = [] → r.bus.wbq.length < Config.writeBackPlaces → 0x017 ∈ q.bus.wbq)) := by
    rw [← hq]
    split
    · rename_i hm
      exact ⟨Part.keepsBut_trans (Part.keepsBut_mono (Part.enter_keeps _ _ _) (by simp))
        (Part.keepsBut_mono (Part.occasion_keeps _) (by simp)), Part.enter_entries _ _ _,
        by rw [Part.occasion_offers, Part.enter_arbiter], fun _ => ⟨rfl, fun hwait hroom => (Part.enter_room hm hwait hroom _ _).1⟩⟩
    · rename_i hm
      exact ⟨Part.keepsBut_refl _ r, Bus.keepsButEntries_refl _, rfl, fun h => absurd h hm⟩
  obtain ⟨hkeeps, hentries, hoffers, hlive⟩ := hrq
  have heq : p.mainsExpires = if q.mode.serving then q.tell (.condition 257 q.time.mainsActive) else q := by
    unfold Part.mainsExpires
    rw [if_neg (by simp [htimer, reached_some, hlen]), hr]
    simp only [hq]
  have hall := Part.keepsBut_trans (Part.keepsBut_mono hpr (cs := [.bus, .points, .arbiter, .time]) (by simp))
    (Part.keepsBut_mono hkeeps (by simp))
  rw [hpr.bus, hpr.arbiter, hpr.mode] at *
  have hqtime : q.time = _ := hkeeps.time.trans hrtime
  have hqpoints : q.points = p.points := hkeeps.points.trans hpr.points
  simp only [heq, hall.mode, hqtime]
  by_cases hm : p.mode.serving = true
  · simp only [hm, if_true]
    exact ⟨Part.keepsBut_trans hall (Part.keepsBut_mono (Part.tell_keeps _ q) (by simp)), hentries, hoffers, hqtime, hlive,
      by rw [Part.tell, hqpoints]⟩
  · simp only [hm]
    exact ⟨hall, hentries, hoffers, hqtime, hlive, by simp [hqpoints]⟩

/-! ### The statement -/

/-- Settles O60: each expiry by whether its time has come. -/
theorem timePassesAndConditionsChange : Obligations.TimePassesAndConditionsChange := by
  refine ⟨fun s hoff hcur => ⟨fun hearly => ?_, fun helapsed hsecond => ?_, fun helapsed hsecond => ?_⟩,
    fun k s hm htimer => ⟨fun hlen => ?_, fun hlen hcur => ?_⟩, fun asserted s => ?_,
    fun k s hoff htimer => ⟨fun hlen hcur => ?_, fun hlen => ?_⟩, fun s hm => ⟨fun h => ?_, fun h => ?_, fun h hcur =>
      ⟨fun hearly => ?_, fun hlen => ?_⟩⟩⟩
  · exact ⟨_, rfl, State.powered_idle hcur (if_pos hearly)⟩
  · have hpass := Part.secondPasses_second helapsed hsecond
    have hkeeps : s.part.keepsBut [.time] s.part.secondPasses := fun b hb => by
      rw [hpass]
      cases b <;> simp [Block.same] at hb ⊢
    have hpart : s.part.powered Part.secondPasses = s.part.secondPasses := by
      rcases Part.powered_cases (f := Part.secondPasses) hoff with ⟨-, h⟩ | ⟨-, h⟩ <;> rw [h]
      exact Part.settle_of_trouble hkeeps hcur (by rw [hkeeps.mirrors]) (by rw [hkeeps.notice]) (by rw [hpass])
    exact ⟨_, rfl, ⟨rfl, rfl, rfl, by rw [hpart]; exact hkeeps⟩, by simp only [hpart, hpass]⟩
  · obtain ⟨hkeeps, hentries, hday, hminute, hzero, helapsed0, hentered, hbus, htest⟩ :=
      Part.minutePasses_spec helapsed hsecond
    have hquiet := State.quietBut_powered hoff hkeeps hentries (by decide)
    have hsame := Part.powered_keeps (f := Part.secondPasses) hoff
    refine ⟨_, rfl, hquiet, by rw [hsame.time]; exact hday, by rw [hsame.time]; exact hminute,
      by rw [hsame.time]; exact hzero, by rw [hsame.time]; exact helapsed0, fun hm a ha => ?_, fun hm => ?_, ?_⟩
    · simp only [Part.powered_of_live hm]
      exact ⟨Part.settle_keepsEntry (hentered hm a ha).1 _, fun hwait hroom => Part.settle_wbq ((hentered hm a ha).2 hwait hroom) _⟩
    · simp only [Part.powered_of_not_live hm hoff]
      exact hbus hm
    · rw [hsame.points, hsame.time]
      exact htest
  · obtain ⟨hkeeps, hheartbeat, hcause, hwork⟩ := Part.heartbeatExpires_spec htimer hlen
    refine ⟨_, rfl, ⟨rfl, rfl, rfl, ?_⟩, ?_, ?_, fun hen => ?_, fun hsilent => ?_⟩ <;> simp only [Part.serve_of_serving hm]
    · exact Part.keepsBut_trans hkeeps (Part.keepsBut_mono (Part.settle_keeps _ _) (by simp))
    · rw [Part.settle_heartbeat, hheartbeat]
    · exact Part.trouble_of_silent (by rw [hheartbeat])
    · rw [(Part.settle_trouble _ _).2.1]
      exact hcause hen
    · rw [Part.settle_points, hwork hsilent]
  · have hfix : s.part.heartbeatExpires = s.part := by
      simp [Part.heartbeatExpires, htimer, reached_some, hlen]
    refine ⟨_, rfl, ?_⟩
    rw [Part.serve_of_serving hm, hfix, Part.settle_refl hcur]
  · refine ⟨_, rfl, ⟨rfl, rfl, rfl, fun b hb => ?_⟩, ?_⟩
    · cases b <;> simp [Block.same] at hb ⊢
    · simp only [TimeBase.setMainsLost]
      split <;> rfl
  · exact ⟨_, rfl, State.powered_idle hcur (if_pos (by simp [htimer, reached_some, hlen]))⟩
  · obtain ⟨hkeeps, hentries, hoffers, htime, hlive, hpoints⟩ := Part.mainsExpires_spec htimer hlen
    have hsame := Part.powered_keeps (f := Part.mainsExpires) hoff
    refine ⟨_, rfl, State.quietBut_powered hoff hkeeps hentries (by decide), by rw [hsame.arbiter]; exact hoffers,
      by rw [hsame.time]; exact htime, fun hm => ⟨by rw [hsame.arbiter]; exact (hlive hm).1, fun hwait hroom => ?_⟩,
      by rw [hsame.points, hpoints], by rw [hsame.points, hpoints]⟩
    simp only [Part.powered_of_live hm]
    exact Part.settle_wbq ((hlive hm).2 hwait hroom) _
  · cases hmode : s.part.mode <;> simp [hmode, Mode.live] at hm <;> simp [Part.troubleOut, hmode, h]
  · cases hmode : s.part.mode <;> simp [hmode, Mode.live] at hm <;> simp [Part.troubleOut, hmode, h]
  · exact ⟨_, rfl, State.work_idle hcur (if_neg fun h => absurd h.2 (Nat.not_le.mpr hearly))⟩
  · have hpulse : s.part.pulseToggles =
        { s.part with notice := { s.part.notice with pulseOn := !s.part.notice.pulseOn, pulseMs := 0 } } := if_pos ⟨h, hlen⟩
    have hkeeps : s.part.keepsBut [.notice] s.part.pulseToggles := fun b hb => by
      rw [hpulse]
      cases b <;> simp [Block.same] at hb ⊢
    have hpart : s.part.work Part.pulseToggles = s.part.pulseToggles := by
      rw [Part.work_of_live hm]
      exact Part.settle_of_trouble hkeeps hcur (by rw [hkeeps.mirrors]) (by rw [hpulse]) (by rw [hkeeps.time])
    refine ⟨_, rfl, ⟨rfl, rfl, rfl, by rw [hpart]; exact hkeeps⟩, ?_, by simp only [hpart, hpulse]⟩
    simp only [hpart, hpulse]
    cases hmode : s.part.mode <;> simp [hmode, Mode.live] at hm <;> simp [Part.troubleOut, hmode, h]

end Sys2Proof.Machine
end

section
/-! PROOFS. The symbols of a burst, its check, and the tones a line puts out (R99, R139 to R141). -/

namespace Sys2Proof.Machine

/-! ### The burst -/

theorem exists_six {l : List Nat} (h : l.length = 6) : ∃ a b c d e f, l = [a, b, c, d, e, f] := by
  match l, h with
  | [a, b, c, d, e, f], _ => exact ⟨a, b, c, d, e, f, rfl⟩

/-- A number below 1000 is read back from its three digits (R140). -/
theorem threeDigits_value {n : Nat} (h : n ≤ 999) : 100 * (n / 100 % 10) + 10 * (n / 10 % 10) + n % 10 = n := by omega

/-- The check is read back from its two digits, each a digit (R141). -/
theorem check_value (n : Nat) : 10 * (n % 97 / 10) + n % 97 % 10 = n % 97 ∧ n % 97 / 10 ≤ 9 ∧ n % 97 % 10 ≤ 9 := by omega

theorem Sense.symbol_lt (k : Sense) : k.symbol < 16 := by cases k <;> decide

/-! ### The tone of a line -/

theorem Fin.ofNat_castLE {k : Nat} (hk : k ≤ 16) (v : Fin k) : Fin.ofNat 16 v.val = v.castLE hk :=
  Fin.ext (Nat.mod_eq_of_lt (by omega))

/-- The tone while dialling: the first 80 ms of the 160 ms of a symbol that has one (R99). -/
theorem Line.toneOut_dialing {l : Line} {c : Call} {left : Nat} (hc : l.call = some c) (hstate : l.state = .dialing)
    (htimer : l.timer = some left) (hleft : left ≤ 160) : l.toneOut =
      match c.symbol.bind DialSymbol.value with
      | some v => if 80 < left then some (symbolTones (Fin.ofNat 16 v)) else none
      | none => none := by
  have hnow : l.symbolNow = (c.symbol.bind DialSymbol.value).map fun v => (v, 160 - left) := by
    have hms : Config.toneSymbolMs = 160 := rfl
    simp [Line.symbolNow, htimer, hc, hstate, hms]
  rw [Line.toneOut, hnow, Line.toneMs, if_pos hstate]
  cases c.symbol.bind DialSymbol.value with
  | none => rfl
  | some v =>
    have hspent : 160 - left < 80 ↔ 80 < left := by omega
    simp only [Option.map_some, hspent]

/-- The tone in a sending: the first 50 ms of the 100 ms of a symbol (R139). -/
theorem Line.toneOut_sending {l : Line} {c : Call} {k j v : Nat} (hc : l.call = some c) (hstate : l.state = .linked)
    (hphase : c.phase = .sending ∨ c.phase = .ending) (hsymbol : c.symbols[k]? = some v) (hj : j < 100)
    (htimer : l.timer = some (100 * c.symbols.length - (100 * k + j))) :
    l.toneOut = if j < 50 then some (symbolTones (Fin.ofNat 16 v)) else none := by
  have hk : k < c.symbols.length := (List.getElem?_eq_some_iff.mp hsymbol).1
  have hspent : 100 * c.symbols.length - (100 * c.symbols.length - (100 * k + j)) = 100 * k + j := by omega
  have hdiv : (100 * k + j) / 100 = k := by omega
  have hmod : (100 * k + j) % 100 = j := by omega
  have hms : Config.burstSymbolMs = 100 := rfl
  have hnow : l.symbolNow = some (v, j) := by
    rcases hphase with hphase | hphase <;>
      simp [Line.symbolNow, htimer, hc, hstate, hphase, hms, hspent, hdiv, hmod, hsymbol]
  rw [Line.toneOut, hnow, Line.toneMs, if_neg (by rw [hstate]; exact nofun)]

/-- There is no tone where no symbol is sent (R99, R139). -/
theorem Line.toneOut_quiet {l : Line} (h : l.symbolNow = none) : l.toneOut = none := by
  rw [Line.toneOut, h]

theorem Line.symbolNow_quiet {l : Line} {c : Call} (hc : l.call = some c) (hstate : l.state ≠ .dialing)
    (hphase : l.state ≠ .linked ∨ (c.phase ≠ .sending ∧ c.phase ≠ .ending)) : l.symbolNow = none := by
  unfold Line.symbolNow
  rw [hc]
  cases l.timer with
  | none => rfl
  | some left =>
    cases hst : l.state <;> simp only [hst] at hstate hphase ⊢
    · exact absurd rfl hstate
    · cases hph : c.phase <;> simp [hph] at hphase ⊢

/-- Settles O59: the symbols by writing the burst out, the tones by the symbol of the moment. -/
theorem burstCarriesItsCheck : Obligations.BurstCarriesItsCheck := by
  refine ⟨fun account sequence r haccount hdigits hlow hhigh hfold hcode => ?_, by decide,
    fun l c hc => ⟨fun d v left hstate hsymbol htimer hleft => ?_, fun hstate hsymbol => ?_,
      fun k j v hstate hphase hsymbol _ hj htimer => Line.toneOut_sending hc hstate hphase hsymbol hj htimer,
      fun hstate hphase => Line.toneOut_quiet (Line.symbolNow_quiet hc hstate hphase)⟩⟩
  · obtain ⟨a, b, c, d, e, f, rfl⟩ := exists_six haccount
    have hsymbol := r.sense.symbol_lt
    have hpoint : r.point.val ≤ 999 := by omega
    obtain ⟨hcheck, htens, hunits⟩ := check_value (burstBody [a, b, c, d, e, f] sequence r).sum
    have hbody : ∀ x ∈ burstBody [a, b, c, d, e, f] sequence r, x < 16 := by
      intro x hx
      simp only [burstBody, threeDigits, List.mem_append, List.mem_cons, List.not_mem_nil, or_false] at hx
      have hdigit : x ∈ [a, b, c, d, e, f] → x < 16 := fun h => (hdigits x h).trans_lt (by decide)
      simp only [List.mem_cons, List.not_mem_nil, or_false] at hdigit
      omega
    refine ⟨rfl, rfl, rfl, rfl, ?_, threeDigits_value hcode, threeDigits_value hpoint, rfl, hcheck, fun x hx => ?_, htens, hunits⟩
    · cases hs : r.sense <;> simp [burst, burstBody, hs, Sense.symbol]
    · simp only [burst, List.cons_append, List.mem_cons, List.mem_append, List.not_mem_nil, or_false, burstCheck] at hx
      rcases hx with rfl | hx | rfl | rfl
      · decide
      · exact hbody x hx
      · omega
      · omega
  · rw [Line.toneOut_dialing hc hstate htimer hleft, Call.symbol, hsymbol]
    refine ⟨?_, ?_, ?_⟩ <;> rintro rfl <;> simp only [Option.bind_some, DialSymbol.value]
    · rw [Fin.ofNat_castLE]
    · rfl
    · rfl
  · refine Line.toneOut_quiet ?_
    unfold Line.symbolNow
    rw [hc]
    cases l.timer with
    | none => rfl
    | some left => rcases hsymbol with h | h <;> simp [hstate, Call.symbol, h, DialSymbol.value]

end Sys2Proof.Machine
end

section
/-! PROOFS. The records of a sound queue (R60, R62), and the retry and hold times (R82, R83). -/

namespace Sys2Proof.Machine

/-! ### Records of a sound queue -/

/-- The records of a queue are told apart by their admission numbers and by their slots. -/
def Queue.told (q : Queue) : Prop := (q.records.map (·.id)).Nodup ∧ (q.records.map (·.slot)).Nodup

theorem Queue.sound.told {q : Queue} (h : q.sound) : q.told :=
  ⟨h.2.1.imp Nat.ne_of_lt, h.2.2.2⟩

theorem Queue.told.records_nodup {q : Queue} (h : q.told) : q.records.Nodup := List.Nodup.of_map _ h.2

theorem Queue.told.eq_of_id_eq {q : Queue} (h : q.told) {a b : Record} (ha : a ∈ q.records) (hb : b ∈ q.records)
    (hid : a.id = b.id) : a = b := List.inj_on_of_nodup_map h.1 ha hb hid

theorem Queue.told.eq_of_slot_eq {q : Queue} (h : q.told) {a b : Record} (ha : a ∈ q.records) (hb : b ∈ q.records)
    (hslot : a.slot = b.slot) : a = b := List.inj_on_of_nodup_map h.2 ha hb hslot

theorem Queue.sound.records_nodup {q : Queue} (h : q.sound) : q.records.Nodup := h.told.records_nodup

theorem Queue.sound.eq_of_slot_eq {q : Queue} (h : q.sound) {a b : Record} (ha : a ∈ q.records) (hb : b ∈ q.records)
    (hslot : a.slot = b.slot) : a = b := h.told.eq_of_slot_eq ha hb hslot

/-- A record of the queue is found by what tells it from the others. -/
theorem find?_eq_of_unique {α : Type} {l : List α} {p : α → Bool} {a : α} (ha : a ∈ l) (hp : p a = true)
    (hunique : ∀ b ∈ l, p b = true → b = a) : l.find? p = some a := by
  cases hfind : l.find? p with
  | none => exact absurd hp (List.find?_eq_none.mp hfind a ha)
  | some b => rw [hunique b (List.mem_of_find?_eq_some hfind) (List.find?_some hfind)]

theorem Queue.told.inSlot_eq {q : Queue} (h : q.told) {r : Record} (hr : r ∈ q.records) : q.inSlot r.slot = some r :=
  find?_eq_of_unique hr (by simp) fun b hb hslot => h.eq_of_slot_eq hb hr (by simpa using hslot)

theorem Queue.sound.inSlot_eq {q : Queue} (h : q.sound) {r : Record} (hr : r ∈ q.records) : q.inSlot r.slot = some r :=
  h.told.inSlot_eq hr

theorem Queue.told.byId_eq {q : Queue} (h : q.told) {r : Record} (hr : r ∈ q.records) : q.byId r.id = some r :=
  find?_eq_of_unique hr (by simp) fun b hb hid => h.eq_of_id_eq hb hr (by simpa using hid)

theorem Queue.sound.byId_eq {q : Queue} (h : q.sound) {r : Record} (hr : r ∈ q.records) : q.byId r.id = some r :=
  h.told.byId_eq hr

/-- The records before and behind one of them. -/
theorem Queue.sound.split {q : Queue} (h : q.sound) {r : Record} (hr : r ∈ q.records) :
    ∃ pre post, q.records = pre ++ r :: post ∧ r ∉ pre ∧ r ∉ post := by
  obtain ⟨pre, post, hsplit⟩ := List.append_of_mem hr
  have hnodup := h.records_nodup
  rw [hsplit, List.nodup_middle, List.nodup_cons] at hnodup
  exact ⟨pre, post, hsplit, fun hp => hnodup.1 (List.mem_append_left _ hp), fun hp => hnodup.1 (List.mem_append_right _ hp)⟩

theorem map_if_eq_of_not_mem {α : Type} [DecidableEq α] {l : List α} {r x : α} (h : r ∉ l) :
    l.map (fun y => if y = r then x else y) = l :=
  (List.map_congr_left fun y hy => if_neg fun (heq : y = r) => h (heq ▸ hy)).trans (List.map_id' l)

/-- A change of one record, found by its admission number, is a change of that record. -/
theorem Queue.told.map_id_eq {q : Queue} (h : q.told) {r : Record} (hr : r ∈ q.records) (f : Record → Record) :
    q.records.map (fun y => if y.id = r.id then f y else y) = q.records.map fun y => if y = r then f r else y := by
  refine List.map_congr_left fun y hy => ?_
  by_cases hid : y.id = r.id
  · have heq := h.eq_of_id_eq hy hr hid
    rw [if_pos hid, if_pos heq, heq]
  · rw [if_neg hid, if_neg fun heq => hid (by rw [heq])]

theorem Part.changeRecord_keeps (id : Nat) (f : Record → Record) (p : Part) :
    p.keepsBut [.bus, .queue] (p.changeRecord id f) := Part.setRecords_keeps _ p

theorem Part.setRecords_entries (rs : List Record) (p : Part) : p.bus.keepsButEntries (p.setRecords rs).bus := by
  unfold Part.setRecords
  simp only
  split
  · exact Bus.keepsButEntries_refl _
  · exact Part.enter_entries _ _ _

theorem Part.changeRecord_entries (id : Nat) (f : Record → Record) (p : Part) :
    p.bus.keepsButEntries (p.changeRecord id f).bus := Part.setRecords_entries _ p

theorem Part.changeRecord_of_told {p : Part} (h : p.queue.told) {r : Record} (hr : r ∈ p.queue.records)
    (f : Record → Record) : (p.changeRecord r.id f).queue =
      { p.queue with records := p.queue.records.map fun y => if y = r then f r else y } := by
  rw [Part.changeRecord_queue, h.map_id_eq hr]

theorem Part.changeRecord_of_mem {p : Part} (h : p.queue.sound) {r : Record} (hr : r ∈ p.queue.records)
    (f : Record → Record) : (p.changeRecord r.id f).queue =
      { p.queue with records := p.queue.records.map fun y => if y = r then f r else y } :=
  Part.changeRecord_of_told h.told hr f

/-! ### Steps of the queue -/

/-- A step of the part in STOPPED and RUNNING whose effect is in some blocks and in addresses entered. -/
theorem State.quietBut_serve {f : Part → Part} {s : State} {bs : List Block} (hm : s.part.mode.serving = true)
    (hkeeps : s.part.keepsBut (.bus :: bs) (f s.part)) (hentries : s.part.bus.keepsButEntries (f s.part).bus)
    (hb : .notice ∉ bs) : s.quietBut bs { s with part := s.part.serve f } := by
  have hquiet := State.quietBut_work (Mode.live_of_serving hm) hkeeps hentries hb
  rwa [Part.work_of_live (Mode.live_of_serving hm), ← Part.serve_of_serving hm] at hquiet

theorem State.serve_idle {f : Part → Part} {s : State} (hcur : s.part.troubleCurrent) (hf : f s.part = s.part) :
    { s with part := s.part.serve f } = s := by
  have hserve : s.part.serve f = s.part := by
    by_cases hm : s.part.mode.serving = true
    · rw [Part.serve_of_serving hm, hf, Part.settle_refl hcur]
    · rw [Part.serve_of_not_serving (by simpa using hm)]
  rw [hserve]

/-- The HELD records are one fewer when one of them is released (R83). -/
theorem Queue.sound.held_release {q : Queue} (h : q.sound) {r x : Record} (hr : r ∈ q.records) (hheld : r.state = .held)
    (hx : x.state ≠ .held) :
    ({ q with records := q.records.map fun y => if y = r then x else y } : Queue).held + 1 = q.held := by
  obtain ⟨pre, post, hsplit, hpre, hpost⟩ := h.split hr
  simp only [Queue.held, hsplit, List.map_append, List.map_cons, map_if_eq_of_not_mem hpre, map_if_eq_of_not_mem hpost,
    List.filter_append, List.filter_cons, List.length_append, if_true, hheld, decide_true, hx, decide_false, Bool.false_eq_true,
    if_false, List.length_cons]
  omega

theorem Part.retryPassed_of {p : Part} (h : p.queue.sound) {r : Record} {x : Nat} (hr : r ∈ p.queue.records)
    (hstate : r.state = .waiting) (hretry : r.retry = some x) : p.retryPassed r.slot =
      if x ≤ p.queue.clock then Part.occasion (p.changeRecord r.id fun r => { r with retry := none }) else p := by
  simp only [Part.retryPassed, h.inSlot_eq hr, hstate, hretry]

theorem Part.holdExpires_of {p : Part} (h : p.queue.sound) {r : Record} {x : Nat} (hr : r ∈ p.queue.records)
    (hstate : r.state = .held) (hhold : r.holdUntil = some x) : p.holdExpires r.slot =
      if x ≤ p.queue.clock then p.releaseRecord r else p := by
  simp only [Part.holdExpires, h.inSlot_eq hr, hstate, hhold]

theorem Part.holdExpires_of_not_held {p : Part} (h : p.queue.sound) {r : Record} (hr : r ∈ p.queue.records)
    (hstate : r.state ≠ .held) : p.holdExpires r.slot = p := by
  simp only [Part.holdExpires, h.inSlot_eq hr]
  split
  · rename_i hheld _
    exact absurd hheld hstate
  · rfl

theorem Part.releaseRecord_entries (r : Record) (p : Part) : p.bus.keepsButEntries (p.releaseRecord r).bus :=
  Part.changeRecord_entries r.id Record.release p

/-- Settles O48: the record in the slot is changed where the queue clock has reached its time. -/
theorem retryAndHoldTimesFreeTheRecord : Obligations.RetryAndHoldTimesFreeTheRecord := by
  refine ⟨fun r x s hm hsound hr hstate hretry => ?_, fun r x s hm hsound hr hstate hhold => ?_,
    fun r s hm hsound hcur hr hstate => ⟨_, rfl, State.serve_idle hcur (Part.holdExpires_of_not_held hsound hr hstate)⟩⟩
  · have hpassed := Part.retryPassed_of hsound hr hstate hretry
    refine ⟨fun hlen => ?_, fun hlen hcur => ⟨_, rfl, State.serve_idle hcur (hpassed.trans (if_neg (by omega)))⟩⟩
    rw [if_pos hlen] at hpassed
    refine ⟨_, rfl, State.quietBut_serve hm ?_ ?_ (by decide), ?_, ?_, ?_⟩
    · rw [hpassed]
      exact Part.keepsBut_trans (Part.keepsBut_mono (Part.changeRecord_keeps _ _ _) (by simp))
        (Part.keepsBut_mono (Part.occasion_keeps _) (by simp))
    · rw [hpassed]
      exact Part.changeRecord_entries _ _ _
    all_goals simp only [Part.serve_of_serving hm, hpassed, Part.settle_arbiter, Part.settle_queue, Part.occasion_queue,
      Part.occasion_decisionPending, Part.occasion_offers]
    · rw [(Part.changeRecord_keeps _ _ _).arbiter]
    · exact Part.changeRecord_of_mem hsound hr _
  · have hexpires := Part.holdExpires_of hsound hr hstate hhold
    refine ⟨fun hlen => ?_, fun hlen hcur => ⟨_, rfl, State.serve_idle hcur (hexpires.trans (if_neg (by omega)))⟩⟩
    rw [if_pos hlen] at hexpires
    have hqueue : (s.part.releaseRecord r).queue = { s.part.queue with records := s.part.queue.records.map fun y =>
        if y = r then { r with state := .waiting, holdUntil := none, retry := none } else y } :=
      Part.changeRecord_of_mem hsound hr Record.release
    refine ⟨_, rfl, State.quietBut_serve hm ?_ ?_ (by decide), ?_, ?_, ?_, ?_, ?_⟩
    · rw [hexpires]
      exact Part.releaseRecord_keeps r s.part
    · rw [hexpires]
      exact Part.releaseRecord_entries r s.part
    all_goals simp only [Part.serve_of_serving hm, hexpires, Part.settle_arbiter, Part.settle_queue, Part.settle_points,
      Part.releaseRecord_points, Part.releaseRecord_arbiter]
    · exact hqueue
    · rw [hqueue]
      exact hsound.held_release hr hstate nofun

end Sys2Proof.Machine
end

section
/-! PROOFS. Accepted commands: START, STOP, RELOAD and SET TIME (R22, R29, R36, R37, R136, R155, R175, R176). -/

namespace Sys2Proof.Machine

/-! ### A command that is accepted -/

/-- A command written while it is accepted is handed to its owner in the same step (R4, R22, R175). -/
theorem State.commandAccepted {s : State} {code : BitVec 4} {tag : BitVec 8} {spare : BitVec 4} (hm : s.part.mode.live = true)
    (hw : s.writable) (hrefusal : s.part.refusal code = none) {q : Part}
    (heffect : Part.effect { code, tag } (s.part.mirror 0x011)
      (s.part.handing { code, tag } (commandWord code tag spare)) = q) :
    s.commandWrite code tag spare = { s with
      mem := s.mem.write (s.wordAddress 0x010) (commandWord code tag spare)
      part := Part.settle s.part q } := by
  have hcommand := commandOf_commandWord code tag spare
  have harg : (s.part.setMirror 0x010 (commandWord code tag spare)).mirror 0x011 = s.part.mirror 0x011 := by
    rw [Part.mirror_setMirror_command hw.2.2, if_neg (by decide)]
  have hwritten := State.commandWrite_eq hm hw.2.1 code tag spare
  rw [Part.takeCommand_accepted (by rw [hcommand]; exact hrefusal), hcommand, harg, heffect] at hwritten
  exact hwritten

/-- A command word taken, where the owner's effect may change what the Window Mirrors are doing but no mirror. -/
theorem State.commandTaken_mirrors {code : BitVec 4} {tag : BitVec 8} {spare : BitVec 4} {bs : List Block} {s : State}
    {q : Part} (hw : s.writable)
    (hq : (s.part.setMirror 0x010 (commandWord code tag spare)).keepsBut (.bus :: .mirrors :: .notice :: bs) q)
    (hmirrors : q.mirrors.words = (s.part.setMirror 0x010 (commandWord code tag spare)).mirrors.words)
    (hvalid : q.mirrors.valid = s.part.mirrors.valid) :
    s.commandTaken code tag spare bs { s with
      mem := s.mem.write (s.wordAddress 0x010) (commandWord code tag spare)
      part := Part.settle s.part q } := by
  obtain ⟨hmem, -, hwords⟩ := hw
  refine ⟨State.stores_write hmem _ _ _, ?_, fun a => ?_, by rw [Part.settle_mirrors]; exact hvalid⟩
  · exact Part.keepsBut_trans (Part.keepsBut_trans (Part.keepsBut_mono (Part.setMirror_keeps _ _ s.part) (by simp)) hq)
      (Part.keepsBut_mono (Part.settle_keeps s.part q) (by simp))
  · have hsettled : (Part.settle s.part q).mirrors.words = (s.part.setMirror 0x010 (commandWord code tag spare)).mirrors.words := by
      rw [Part.settle_mirrors, hmirrors]
    rw [Part.mirror_of_words hsettled, Part.mirror_setMirror_command hwords]

theorem Part.refusal_of_unconfigured {p : Part} {code : BitVec 4} (hm : p.mode = .unconfigured)
    (hp : p.notice.inProgress = none) (hc : code ∈ ([4, 7, 8, 10] : List (BitVec 4))) : p.refusal code = none := by
  simp only [List.mem_cons, List.not_mem_nil, or_false] at hc
  rcases hc with rfl | rfl | rfl | rfl <;> simp [Part.refusal, hm, hp, accepts, unknownCode]

/-- What a command handed to its owner has changed of the Notice Unit. -/
theorem Part.handing_notice (c : Command) (w : Word) (p : Part) : (p.handing c w).notice =
    { p.notice with inProgress := some c, resultTag := c.tag, resultStatus := .inProgress } := by
  rw [Part.handing, Part.setResult_notice]

/-- A command handed to its owner stays in progress until the owner says it is done (R176). -/
theorem Part.shows_settle {old q : Part} {c : Command} {w : Word} {p : Part}
    (h : p.notice.keepsButTrouble q.notice) (hp : p = old.handing c w) :
    (Part.settle old q).notice.inProgress = some c ∧ (Part.settle old q).shows c.tag .inProgress ∧
      (Part.settle old q).notice.causes = old.notice.causes ∧ (Part.settle old q).notice.heads = old.notice.heads := by
  obtain ⟨hheads, hcauses, hprogress, htag, hstatus⟩ := Notice.keepsButTrouble_trans h (Part.settle_trouble old q)
  rw [hp, Part.handing_notice] at hheads hcauses hprogress htag hstatus
  exact ⟨hprogress, ⟨htag, hstatus⟩, hcauses, hheads⟩

/-! ### What a result adds to the queue -/

/-- The write-back queue and the waiting owners have lost no address. -/
def Bus.holdsMore (b c : Bus) : Prop := (∀ a, b.hasEntry a → c.hasEntry a) ∧ b.wbq ⊆ c.wbq

theorem Bus.holdsMore_refl (b : Bus) : b.holdsMore b := ⟨fun _ => id, List.Subset.refl _⟩

theorem Bus.holdsMore.trans {b c d : Bus} (h : b.holdsMore c) (k : c.holdsMore d) : b.holdsMore d :=
  ⟨fun a ha => k.1 a (h.1 a ha), fun _ ha => k.2 (h.2 ha)⟩

theorem Part.enter_holdsMore (o : Owner) (off : Nat) (p : Part) : p.bus.holdsMore (p.enter o off).bus :=
  ⟨fun _ ha => Part.enter_keepsEntry ha o off, (Part.enter_entries o off p).2.2.2.2.2.subset⟩

theorem Part.settle_holdsMore (old p : Part) : p.bus.holdsMore (Part.settle old p).bus :=
  ⟨fun _ ha => Part.settle_keepsEntry ha old, fun _ ha => Part.settle_wbq ha old⟩

theorem Part.raise_holdsMore (c : Cause) (p : Part) : p.bus.holdsMore (p.raise c).bus := by
  unfold Part.raise
  split
  · exact Part.enter_holdsMore _ _ { p with notice := { p.notice with causes := p.notice.causes ||| c.bits } }
  · exact Bus.holdsMore_refl _

theorem Part.makeLog_holdsMore (r : LogRecord) (p : Part) : p.bus.holdsMore (p.makeLog r).bus := by
  unfold Part.makeLog Part.stage
  split
  · split <;> exact ⟨fun _ => id, List.Subset.refl _⟩
  · exact Bus.holdsMore_refl _

theorem Part.complete_holdsMore (st : ResultStatus) (p : Part) : p.bus.holdsMore (p.complete st).bus := by
  unfold Part.complete
  split
  · rename_i c _
    have hset : p.bus.holdsMore (Part.setResult c.tag st { p with notice := { p.notice with inProgress := none } }).bus :=
      Part.enter_holdsMore _ _ { p with notice := { p.notice with inProgress := none, resultTag := c.tag, resultStatus := st } }
    exact (hset.trans (Part.raise_holdsMore .command _)).trans (Part.makeLog_holdsMore _ _)
  · exact Bus.holdsMore_refl _

/-- A command handed to its owner has entered 012H at most. -/
theorem Part.handing_room {p : Part} (hm : p.mode.live = true) (hwait : p.bus.wbWait = []) (c : Command) (w : Word)
    (hroom : p.bus.wbq.length < Config.writeBackPlaces) : (p.handing c w).bus.wbWait = [] ∧
      (p.handing c w).bus.wbq.length ≤ p.bus.wbq.length + 1 ∧ 0x012 ∈ (p.handing c w).bus.wbq := by
  obtain ⟨hmem, hwait', -, hlen⟩ := Part.enter_room (p := { p.setMirror 0x010 w with
    notice := { p.notice with inProgress := some c, resultTag := c.tag, resultStatus := .inProgress } }) hm hwait hroom .noticeUnit 0x012
  exact ⟨hwait', hlen, hmem⟩

theorem Part.handing_keepsBut (c : Command) (w : Word) (p : Part) :
    p.keepsBut [.bus, .mirrors, .notice] (p.handing c w) :=
  Part.keepsBut_trans (Part.keepsBut_mono (Part.setMirror_keeps 0x010 w p) (by simp))
    (Part.keepsBut_mono (Part.handing_keeps c w p) (by simp))

/-- A command whose owner reports it complete in the same step (R176). -/
theorem State.commandDone {s : State} {code : BitVec 4} {tag : BitVec 8} {spare : BitVec 4} {bs : List Block} {st : ResultStatus}
    {q : Part} (hm : s.part.mode.live = true) (hw : s.writable) (hrefusal : s.part.refusal code = none)
    (heffect : Part.effect { code, tag } (s.part.mirror 0x011)
      (s.part.handing { code, tag } (commandWord code tag spare)) = q.complete st)
    (hkeeps : (s.part.handing { code, tag } (commandWord code tag spare)).keepsBut bs q)
    (hmode : s.part.mode.serving = true → q.mode.serving = true) (hmirrors : .mirrors ∉ bs := by decide)
    (hnotice : .notice ∉ bs := by decide) :
    ∃ t, s.commandWrite code tag spare = t ∧ s.commandTaken code tag spare bs t ∧ t.part.notice.inProgress = none ∧
      s.part.answered code tag st t.part ∧ q.keepsBut [.bus, .notice] t.part ∧ q.bus.holdsMore t.part.bus := by
  have hanswered := Part.answered_of_complete hw.2.2 (hkeeps.mirrors hmirrors) (hkeeps.notice hnotice) hmode st
  refine ⟨_, State.commandAccepted hm hw hrefusal heffect, State.commandTaken_of hw hmirrors ?_, hanswered.2, hanswered.1,
    Part.keepsBut_trans (Part.complete_keeps st q) (Part.settle_keeps _ _),
    (Part.complete_holdsMore st q).trans (Part.settle_holdsMore _ _)⟩
  exact Part.keepsBut_trans (Part.keepsBut_trans (Part.keepsBut_mono (Part.handing_keeps _ _ _) (by simp))
    (Part.keepsBut_mono hkeeps (by intro b hb; simp [hb]))) (Part.keepsBut_mono (Part.complete_keeps st _) (by simp))

/-! ### START, STOP and RELOAD -/

theorem Part.setMode_keeps (m : Mode) (p : Part) : p.keepsBut [.mode] (p.setMode m) := by
  intro b hb
  cases b <;> simp [Block.same, Part.setMode] at hb ⊢

/-- What START does before its result (R29, R136). -/
def Part.started (p : Part) : Part := if p.mode = .stopped then (p.setMode .running).occasion else p

theorem Part.started_spec {p : Part} (hm : p.mode.serving = true) : p.keepsBut [.mode, .arbiter] p.started ∧
    p.started.mode = .running ∧ p.started.arbiter.offers = p.arbiter.offers ∧
    p.started.arbiter.decisionPending = (p.arbiter.decisionPending || decide (p.mode = .stopped)) := by
  unfold Part.started
  split <;> rename_i hmode
  · exact ⟨Part.keepsBut_trans (Part.keepsBut_mono (Part.setMode_keeps _ _) (by simp))
      (Part.keepsBut_mono (Part.occasion_keeps _) (by simp)), rfl, rfl, by simp [hmode]⟩
  · refine ⟨Part.keepsBut_refl _ p, ?_, rfl, by simp [hmode]⟩
    cases h : p.mode <;> simp_all [Mode.serving]

/-- RELOAD in STOPPED and RUNNING begins its reads (R37). -/
def Part.reloadBegun (p : Part) : Part :=
  { p with mirrors := { p.mirrors with reload := some { next := 0, waiting := none } } }

theorem Part.reloadEffect_of_serving {p : Part} (h : p.mode.serving = true) : p.reloadEffect = p.reloadBegun :=
  if_neg fun hm => by simp [hm, Mode.serving] at h

theorem Part.reloadEffect_of_unconfigured {p : Part} (h : p.mode = .unconfigured) : p.reloadEffect = p.beginLoad .reload :=
  if_pos h

/-- Settles O27: the effect of each of the three, between the taking of the command word and its result. -/
theorem startStopAndReloadSetTheState : Obligations.StartStopAndReloadSetTheState := by
  refine fun tag spare s ⟨hw, hfree⟩ => ⟨fun hm => ⟨?_, ?_, ?_⟩, fun hm => ?_⟩
  · have hgiven := Part.handing_keepsBut { code := 1, tag } (commandWord 1 tag spare) s.part
    obtain ⟨hkeeps, hmode, hoffers, hpending⟩ := Part.started_spec
      (p := s.part.handing { code := 1, tag } (commandWord 1 tag spare)) (by rw [hgiven.mode]; exact hm)
    obtain ⟨t, ht, htaken, hended, hanswered, hsame, -⟩ := State.commandDone (spare := spare) (Mode.live_of_serving hm) hw
      (Part.refusal_of_serving (code := 1) hm hfree (by decide) (by decide)) rfl hkeeps (fun _ => by rw [hmode]; rfl)
    refine ⟨t, congrArg Host.Outcome.next ht, htaken, by rw [hsame.mode]; exact hmode, hended, hanswered, ?_, ?_⟩
    · rw [hsame.arbiter, hoffers, hgiven.arbiter]
    · rw [hsame.arbiter, hpending, hgiven.arbiter, hgiven.mode]
  · have hkeeps := Part.setMode_keeps .stopped (s.part.handing { code := 2, tag } (commandWord 2 tag spare))
    obtain ⟨t, ht, htaken, hended, hanswered, hsame, -⟩ := State.commandDone (spare := spare) (Mode.live_of_serving hm) hw
      (Part.refusal_of_serving (code := 2) hm hfree (by decide) (by decide)) rfl hkeeps fun _ => rfl
    exact ⟨t, congrArg Host.Outcome.next ht, htaken, hsame.mode, hended, hanswered⟩
  · have hgiven := Part.handing_keeps { code := 4, tag } (commandWord 4 tag spare) s.part
    have hmode : (s.part.handing { code := 4, tag } (commandWord 4 tag spare)).mode.serving = true := by
      rw [hgiven.mode]
      exact hm
    have hwritten := State.commandAccepted (tag := tag) (spare := spare) (Mode.live_of_serving hm) hw
      (Part.refusal_of_serving (code := 4) hm hfree (by decide) (by decide)) (Part.reloadEffect_of_serving hmode)
    obtain ⟨hprogress, hshows, hcauses, hheads⟩ := Part.shows_settle (old := s.part)
      (Notice.keepsButTrouble_refl (s.part.handing { code := 4, tag } (commandWord 4 tag spare)).notice) rfl
      (q := (s.part.handing { code := 4, tag } (commandWord 4 tag spare)).reloadBegun)
    refine ⟨_, congrArg Host.Outcome.next hwritten, State.commandTaken_mirrors hw (fun b hb => ?_) ?_ ?_, ?_, hprogress, hshows,
      hcauses, hheads⟩
    · have h := hgiven b (by simp at hb ⊢; tauto)
      cases b <;> simp_all [Block.same, Part.reloadBegun]
    · rw [Part.reloadBegun, hgiven.mirrors]
    · rw [Part.reloadBegun, hgiven.mirrors]
      rfl
    · rw [Part.settle_mirrors, Part.reloadBegun, hgiven.mirrors]
  · have hgiven := Part.handing_keeps { code := 4, tag } (commandWord 4 tag spare) s.part
    have hmode : (s.part.handing { code := 4, tag } (commandWord 4 tag spare)).mode = .unconfigured := by
      rw [hgiven.mode]
      exact hm
    have hwritten := State.commandAccepted (tag := tag) (spare := spare) (by rw [hm]; rfl) hw
      (Part.refusal_of_unconfigured (code := 4) hm hfree (by simp)) (Part.reloadEffect_of_unconfigured hmode)
    generalize hp : s.part.handing { code := 4, tag } (commandWord 4 tag spare) = p at hgiven hwritten
    obtain ⟨hheads, -, hprogress, htag, hstatus⟩ := Part.settle_trouble s.part (p.beginLoad .reload)
    have hnotice : (p.beginLoad .reload).notice = { p.notice with heads := none } := rfl
    rw [hnotice, ← hp, Part.handing_notice] at hheads hprogress htag hstatus
    rw [hp] at hheads hprogress htag hstatus
    refine ⟨_, congrArg Host.Outcome.next hwritten, State.commandTaken_mirrors hw (fun b hb => ?_) ?_ ?_, ?_, ?_, hheads,
      hprogress, htag, hstatus⟩
    · have h := hgiven b (by simp at hb ⊢; tauto)
      cases b <;> simp_all [Block.same, Part.beginLoad]
    · rw [Part.beginLoad, hgiven.mirrors]
    · rw [Part.beginLoad, hgiven.mirrors]
      rfl
    · rw [Part.settle_mode]
      rfl
    · rw [Part.settle_mirrors]
      rfl

/-! ### SET TIME -/

/-- The clock loaded from three words (R155). -/
def TimeBase.loaded (day minute second : Word) (t : TimeBase) : TimeBase :=
  { t with day, minute := field minute 0 11, second := field second 0 6, elapsedMs := 0 }

/-- What SET TIME does before its result DONE (R155). -/
def Part.clockSet (day minute second : Word) (p : Part) : Part :=
  let p := ({ p with time := p.time.loaded day minute second } : Part).enterTime
  if p.mode.serving then p.setNextTest else p

theorem Part.setClock_eq (day minute second : Word) (p : Part) : p.setClock day minute second =
    if 1439 < field minute 0 11 ∨ 59 < field second 0 6 then p.complete .badArgument
    else (p.clockSet day minute second).complete .done := rfl

theorem Part.clockSet_spec (day minute second : Word) (p : Part) :
    let q := p.clockSet day minute second
    p.keepsBut [.bus, .time] q ∧ (p.mode.live = true → p.timeEntered 0 q) ∧
      q.time = if p.mode.serving = true then { p.time.loaded day minute second with
          nextTest :=
            if testInterval (p.mirror 0x007) = 0 then none
            else if field minute 0 11 < testMinute (p.mirror 0x006) then some day
            else some (day + 1) }
        else p.time.loaded day minute second := by
  obtain ⟨hkeeps, -, hentered, -⟩ := Part.enterTime_spec { p with time := p.time.loaded day minute second }
  have hloaded : p.keepsBut [.bus, .time] ({ p with time := p.time.loaded day minute second } : Part).enterTime := fun b hb => by
    have h := hkeeps b (by simp at hb ⊢; exact hb.1)
    cases b <;> simp_all [Block.same]
  simp only [Part.clockSet]
  generalize ({ p with time := p.time.loaded day minute second } : Part).enterTime = q at hkeeps hentered hloaded ⊢
  have htime : q.time = p.time.loaded day minute second := hkeeps.time
  have hmirror : ∀ a, q.mirror a = p.mirror a := Part.mirror_of_mirrors hkeeps.mirrors
  have hmode : q.mode = p.mode := hkeeps.mode
  rw [hmode]
  by_cases hm : p.mode.serving = true
  · rw [if_pos hm, if_pos hm]
    refine ⟨fun b hb => ?_, hentered, ?_⟩
    · have h := hloaded b hb
      cases b <;> simp_all [Block.same, Part.setNextTest]
    · simp only [Part.setNextTest, htime, hmirror, TimeBase.loaded]
  · rw [if_neg hm, if_neg hm]
    exact ⟨hloaded, hentered, htime⟩

theorem Part.handing_entries (c : Command) (w : Word) (p : Part) : p.bus.keepsButEntries (p.handing c w).bus :=
  Part.enter_entries .noticeUnit 0x012 { p.setMirror 0x010 w with
    notice := { p.notice with inProgress := some c, resultTag := c.tag, resultStatus := .inProgress } }

theorem timeEntered_mono {p q r : Part} {k : Nat} (h : p.timeEntered k q) (hqr : q.bus.holdsMore r.bus) : p.timeEntered k r :=
  fun a ha => ⟨hqr.1 a (h a ha).1, fun hwait hroom => hqr.2 ((h a ha).2 hwait hroom)⟩

theorem Part.timeEntered_handing {p q : Part} (hm : p.mode.live = true) {c : Command} {w : Word}
    (h : (p.handing c w).timeEntered 0 q) : p.timeEntered 1 q := by
  refine fun a ha => ⟨(h a ha).1, fun hwait hroom => ?_⟩
  obtain ⟨hwait', hlen, -⟩ := Part.handing_room hm hwait c w (by omega)
  exact (h a ha).2 hwait' (by omega)

/-! ### SET TIME by inserted reads -/

/-- SET TIME in UNCONFIGURED begins its reads (R155). -/
def Part.timeBegun (p : Part) : Part := { p with mirrors := { p.mirrors with timeReads := some [] } }

theorem Part.setTimeEffect_of_unconfigured {p : Part} (h : p.mode = .unconfigured) : p.setTimeEffect = p.timeBegun := if_pos h

theorem State.timeRead_of {s : State} {l : List Word} (hm : s.part.mode = .unconfigured) (hread : s.part.bus.mayRead = true)
    (hreads : s.part.mirrors.timeReads = some l) :
    s.timeRead = { s with part := Part.settle s.part (Part.timeStep (s.windowMem (0x01D + l.length)) s.part) } := by
  simp [State.timeRead, hm, hread, hreads, Part.work, Mode.live]

/-- The words SET TIME has read (R155). -/
def Part.withTimeReads (l : Option (List Word)) (p : Part) : Part := { p with mirrors := { p.mirrors with timeReads := l } }

theorem Part.withTimeReads_keeps (l : Option (List Word)) (p : Part) : p.keepsBut [.mirrors] (p.withTimeReads l) := by
  intro b hb
  cases b <;> simp [Block.same, Part.withTimeReads] at hb ⊢

theorem Part.settle_withTimeReads {p : Part} (hcur : p.troubleCurrent) (l : Option (List Word)) :
    Part.settle p (p.withTimeReads l) = p.withTimeReads l := by
  have hreload : (p.withTimeReads l).mirrors.reload = p.mirrors.reload := rfl
  exact Part.settle_of_mirrors (Part.withTimeReads_keeps l p) hcur hreload

/-- What the result of the command in progress leaves, once the step has settled (R176). -/
theorem Part.settle_complete {old p : Part} {c : Command} (h : p.notice.inProgress = some c) (st : ResultStatus) :
    p.keepsBut [.bus, .notice] (Part.settle old (p.complete st)) ∧ (Part.settle old (p.complete st)).notice.inProgress = none ∧
      (Part.settle old (p.complete st)).shows c.tag st ∧ p.bus.holdsMore (Part.settle old (p.complete st)).bus := by
  obtain ⟨⟨⟨htag, hstatus⟩, -⟩, hended⟩ := Part.complete_answered h st
  obtain ⟨-, -, hprogress, htag', hstatus'⟩ := Part.settle_trouble old (p.complete st)
  exact ⟨Part.keepsBut_trans (Part.complete_keeps st p) (Part.settle_keeps _ _), hprogress.trans hended,
    ⟨htag'.trans htag, hstatus'.trans hstatus⟩, (Part.complete_holdsMore st p).trans (Part.settle_holdsMore _ _)⟩

theorem State.commandTaken_mono {code : BitVec 4} {tag : BitVec 8} {spare : BitVec 4} {bs cs : List Block} {s t : State}
    (h : s.commandTaken code tag spare bs t) (hs : bs ⊆ .bus :: .mirrors :: .notice :: cs) : s.commandTaken code tag spare cs t := by
  obtain ⟨hstores, hkeeps, hmirror, hvalid⟩ := h
  exact ⟨hstores, Part.keepsBut_mono hkeeps (by simpa using hs), hmirror, hvalid⟩

theorem Bus.mayRead_of {b : Bus} (hstaging : b.staging = []) (hwbq : b.wbq = []) : b.mayRead = true := by
  simp [Bus.mayRead, hstaging, hwbq]

/-- Settles O32: the words are judged by `Part.setClock_eq`; in UNCONFIGURED they are read one by one. -/
theorem setTimeLoadsTheClock : Obligations.SetTimeLoadsTheClock := by
  refine ⟨fun tag spare s hm ⟨hw, hfree⟩ => ?_, fun tag spare s hm ⟨hw, hfree⟩ => ?_,
    fun c s hm hstaging hwbq hprogress hcur => ⟨fun hreads => ?_, fun a hreads => ?_, fun a b hreads => ?_⟩⟩
  · have hlive := Mode.live_of_serving hm
    have hgiven := Part.handing_keepsBut { code := 7, tag } (commandWord 7 tag spare) s.part
    have hrefusal := Part.refusal_of_serving (code := 7) hm hfree (by decide) (by decide)
    have hmirror : ∀ a, a ≠ 0x010 → (s.part.handing { code := 7, tag } (commandWord 7 tag spare)).mirror a = s.part.mirror a :=
      fun a ha => by
        rw [Part.mirror_of_mirrors (Part.handing_keeps _ _ _).mirrors, Part.mirror_setMirror_command hw.2.2, if_neg ha]
    have hserving : (s.part.handing { code := 7, tag } (commandWord 7 tag spare)).mode.serving = true := by
      rw [hgiven.mode]
      exact hm
    have heffect : Part.effect { code := 7, tag } (s.part.mirror 0x011)
        (s.part.handing { code := 7, tag } (commandWord 7 tag spare)) =
        (s.part.handing { code := 7, tag } (commandWord 7 tag spare)).setClock (s.part.mirror 0x01D) (s.part.mirror 0x01E)
          (s.part.mirror 0x01F) := by
      have heff : Part.effect { code := 7, tag } (s.part.mirror 0x011)
        (s.part.handing { code := 7, tag } (commandWord 7 tag spare)) =
        (s.part.handing { code := 7, tag } (commandWord 7 tag spare)).setTimeEffect := rfl
      rw [heff, Part.setTimeEffect, if_neg fun h => by rw [h] at hserving; exact absurd hserving (by decide), hmirror _ (by decide),
        hmirror _ (by decide), hmirror _ (by decide)]
    rw [Part.setClock_eq] at heffect
    by_cases hbad : 1439 < field (s.part.mirror 0x01E) 0 11 ∨ 59 < field (s.part.mirror 0x01F) 0 6
    · rw [if_pos hbad] at heffect
      obtain ⟨t, ht, htaken, hended, hanswered, hsame, -⟩ := State.commandDone hlive hw hrefusal heffect
        (Part.keepsBut_refl [.time] _) fun _ => hserving
      refine ⟨t, congrArg Host.Outcome.next ht, htaken, hended, ?_⟩
      rw [if_pos hbad]
      exact ⟨by rw [hsame.time, hgiven.time], hanswered⟩
    · rw [if_neg hbad] at heffect
      obtain ⟨hkeeps, hentered, htime⟩ := Part.clockSet_spec (s.part.mirror 0x01D) (s.part.mirror 0x01E) (s.part.mirror 0x01F)
        (s.part.handing { code := 7, tag } (commandWord 7 tag spare))
      obtain ⟨t, ht, htaken, hended, hanswered, hsame, hmore⟩ := State.commandDone hlive hw hrefusal heffect hkeeps
        fun _ => by rw [hkeeps.mode]; exact hserving
      refine ⟨t, congrArg Host.Outcome.next ht, State.commandTaken_mono htaken (by simp), hended, ?_⟩
      rw [if_neg hbad]
      refine ⟨Part.timeEntered_handing hlive (timeEntered_mono (hentered (Mode.live_of_serving hserving)) hmore), ?_, hanswered⟩
      rw [hsame.time, htime, if_pos hserving, hmirror _ (by decide), hmirror _ (by decide), hgiven.time]
      rfl
  · have hgiven := Part.handing_keeps { code := 7, tag } (commandWord 7 tag spare) s.part
    have heffect : Part.effect { code := 7, tag } (s.part.mirror 0x011)
        (s.part.handing { code := 7, tag } (commandWord 7 tag spare)) =
        (s.part.handing { code := 7, tag } (commandWord 7 tag spare)).timeBegun :=
      Part.setTimeEffect_of_unconfigured (hgiven.mode.trans hm)
    have hwritten := State.commandAccepted (tag := tag) (spare := spare) (by rw [hm]; rfl) hw
      (Part.refusal_of_unconfigured (code := 7) hm hfree (by simp)) heffect
    obtain ⟨hprogress, hshows, -⟩ := Part.shows_settle (old := s.part)
      (Notice.keepsButTrouble_refl (s.part.handing { code := 7, tag } (commandWord 7 tag spare)).notice) rfl
      (q := (s.part.handing { code := 7, tag } (commandWord 7 tag spare)).timeBegun)
    refine ⟨_, congrArg Host.Outcome.next hwritten, State.commandTaken_mirrors hw (fun b hb => ?_) ?_ ?_, ?_, hprogress, hshows⟩
    · have h := hgiven b (by simp at hb ⊢; tauto)
      cases b <;> simp_all [Block.same, Part.timeBegun]
    · rw [Part.timeBegun, hgiven.mirrors]
    · rw [Part.timeBegun, hgiven.mirrors]
      rfl
    · rw [Part.settle_mirrors, Part.timeBegun]
  · refine ⟨_, congrArg Host.Outcome.next (State.timeRead_of hm (Bus.mayRead_of hstaging hwbq) hreads), ?_⟩
    have hstep : Part.timeStep (s.windowMem (0x01D + ([] : List Word).length)) s.part =
        s.part.withTimeReads (some [s.windowMem 0x01D]) := by
      simp [Part.timeStep, hreads, Part.withTimeReads]
    rw [hstep, Part.settle_withTimeReads hcur]
    exact ⟨⟨rfl, rfl, rfl, Part.withTimeReads_keeps _ _⟩, rfl⟩
  · refine ⟨_, congrArg Host.Outcome.next (State.timeRead_of hm (Bus.mayRead_of hstaging hwbq) hreads), ?_⟩
    have hstep : Part.timeStep (s.windowMem (0x01D + [a].length)) s.part =
        s.part.withTimeReads (some [a, s.windowMem 0x01E]) := by
      simp [Part.timeStep, hreads, Part.withTimeReads]
    rw [hstep, Part.settle_withTimeReads hcur]
    exact ⟨⟨rfl, rfl, rfl, Part.withTimeReads_keeps _ _⟩, rfl⟩
  · refine ⟨_, congrArg Host.Outcome.next (State.timeRead_of hm (Bus.mayRead_of hstaging hwbq) hreads), ?_⟩
    have hstep : Part.timeStep (s.windowMem (0x01D + [a, b].length)) s.part =
        (s.part.withTimeReads none).setClock a b (s.windowMem 0x01F) := by
      simp [Part.timeStep, hreads, Part.withTimeReads]
    rw [hstep, Part.setClock_eq]
    have hreading := s.part.withTimeReads_keeps none
    by_cases hbad : 1439 < field b 0 11 ∨ 59 < field (s.windowMem 0x01F) 0 6
    · obtain ⟨hsame, hended, hshows, -⟩ := Part.settle_complete (old := s.part) (p := s.part.withTimeReads none) hprogress .badArgument
      simp only [if_pos hbad]
      exact ⟨⟨rfl, rfl, rfl, Part.keepsBut_trans (Part.keepsBut_mono hreading (by simp)) (Part.keepsBut_mono hsame (by simp))⟩,
        hsame.mirrors, hended, hsame.time, hshows⟩
    · obtain ⟨hkeeps, hentered, htime⟩ := Part.clockSet_spec a b (s.windowMem 0x01F) (s.part.withTimeReads none)
      obtain ⟨hsame, hended, hshows, hmore⟩ := Part.settle_complete (old := s.part)
        (p := (s.part.withTimeReads none).clockSet a b (s.windowMem 0x01F)) (c := c) (by rw [hkeeps.notice]; exact hprogress) .done
      simp only [if_neg hbad]
      refine ⟨⟨rfl, rfl, rfl, Part.keepsBut_trans (Part.keepsBut_trans (Part.keepsBut_mono hreading (by simp))
        (Part.keepsBut_mono hkeeps (by simp))) (Part.keepsBut_mono hsame (by simp))⟩,
        by rw [hsame.mirrors, hkeeps.mirrors]; rfl, hended,
        timeEntered_mono (hentered (by rw [hreading.mode, hm]; rfl)) hmore, ?_, hshows⟩
      rw [hsame.time, htime, if_neg (by rw [hreading.mode, hm]; decide)]
      rfl

end Sys2Proof.Machine
end

section
/-! PROOFS. RESTART: its result and the drain (R20, R175, R176, R178). -/

namespace Sys2Proof.Machine

/-! ### The beginning of the drain -/

/-- The drain begins when nothing of the final result waits any more, and else goes on waiting (R20). -/
theorem Part.beginDrain_finishing {p : Part} {es : List Nat} {before : Nat} (h : p.bus.drain = some (.finishing es before [])) :
    p.beginDrain = { p with bus := { p.bus with
      drain := some (if (es.filter p.bus.awaits).isEmpty && p.bus.logWait.all (before ≤ ·.1) then
        .draining p.bus.staging.length p.bus.wbq false else .finishing (es.filter p.bus.awaits) before []) } } := by
  simp only [Part.beginDrain, h, List.foldl_nil]
  split <;> rfl

theorem Part.beginDrain_ready {p : Part} {es : List Nat} {before : Nat} (h : p.bus.drain = some (.finishing es before []))
    (hwait : p.bus.wbWait = []) (hlog : p.bus.logWait = []) :
    p.beginDrain = { p with bus := { p.bus with drain := some (.draining p.bus.staging.length p.bus.wbq false) } } := by
  have hnone : es.filter p.bus.awaits = [] := List.filter_eq_nil_iff.mpr fun a _ => by simp [Bus.awaits, hwait]
  rw [Part.beginDrain_finishing h, hnone, hlog]
  rfl

/-- The answer of RESTART, and the drain it asks for (R20). -/
def Part.restartAnswered (c : Command) (p : Part) : Part :=
  let p := p.finalResult c .done
  { p with bus := { p.bus with drain := some (.finishing [0x012, 0x013] p.bus.tickets []) } }

theorem Part.restartEffect_eq (c : Command) (p : Part) : p.restartEffect c = (p.restartAnswered c).beginDrain := rfl

theorem Part.restartEffect_spec (c : Command) (p : Part) : (p.finalResult c .done).keepsBut [.bus] (p.restartEffect c) ∧
    (p.restartEffect c).bus.logged = (p.finalResult c .done).bus.logged ∧
    (p.restartEffect c).bus.wbq = (p.finalResult c .done).bus.wbq ∧
    ((p.finalResult c .done).bus.wbWait = [] → (p.finalResult c .done).bus.logWait = [] →
      (p.restartEffect c).bus.logWait = [] ∧ (p.restartEffect c).bus.drain =
        some (.draining (p.restartEffect c).bus.staging.length (p.restartEffect c).bus.wbq false)) := by
  rw [Part.restartEffect_eq]
  have hfinishing : (p.restartAnswered c).bus.drain =
      some (.finishing [0x012, 0x013] (p.finalResult c .done).bus.tickets []) := rfl
  refine ⟨fun b hb => ?_, ?_, ?_, fun hwait hlog => ?_⟩
  · rw [Part.beginDrain_finishing hfinishing]
    cases b <;> simp [Block.same, Part.restartAnswered] at hb ⊢
  · rw [Part.beginDrain_finishing hfinishing]
    rfl
  · rw [Part.beginDrain_finishing hfinishing]
    rfl
  · rw [Part.beginDrain_ready hfinishing hwait hlog]
    exact ⟨hlog, rfl⟩

/-! ### Room for the result -/

theorem Part.setResult_keepsBus (tag : BitVec 8) (st : ResultStatus) (p : Part) :
    p.bus.keepsButEntries (p.setResult tag st).bus :=
  Part.enter_entries .noticeUnit 0x012 { p with notice := { p.notice with resultTag := tag, resultStatus := st } }

/-- A final result with room for its entries and its record leaves nothing waiting (R12, R14). -/
theorem Part.finalResult_room {p : Part} (hm : p.mode.live = true) (hwait : p.bus.wbWait = []) (hmem : 0x012 ∈ p.bus.wbq)
    (hroom : p.bus.wbq.length < Config.writeBackPlaces) (hlog : p.bus.logWait = [])
    (hstaging : p.bus.staging.length < Config.stagingPlaces) (c : Command) (st : ResultStatus) :
    (p.finalResult c st).bus.wbWait = [] ∧ (p.finalResult c st).bus.logWait = [] ∧ 0x012 ∈ (p.finalResult c st).bus.wbq := by
  have hset : (p.setResult c.tag st).bus = p.bus := by
    simp [Part.setResult, Part.enter, hmem]
  have hraised : ((p.setResult c.tag st).raise .command).bus.wbWait = [] := by
    unfold Part.raise
    split
    · exact (Part.enter_room (p := { p.setResult c.tag st with
        notice := { (p.setResult c.tag st).notice with causes := (p.setResult c.tag st).notice.causes ||| Cause.command.bits } })
        (by rw [Part.setResult_mode]; exact hm) (by rw [hset]; exact hwait) (by rw [hset]; exact hroom) _ _).2.1
    · rw [hset]
      exact hwait
  have hmore := (Part.raise_holdsMore .command (p.setResult c.tag st)).2 (hset ▸ hmem)
  obtain ⟨hstaging', -, hlog', -⟩ := Part.raise_entries .command (p.setResult c.tag st)
  rw [hset] at hstaging' hlog'
  rw [Part.finalResult, Part.logNow]
  refine ⟨?_, ?_, (Part.makeLog_holdsMore _ _).2 hmore⟩ <;> unfold Part.makeLog Part.stage <;> split
  · split <;> exact hraised
  · exact hraised
  · rw [if_pos]
    · exact hlog'.trans hlog
    · exact ⟨by simp [hlog', hlog], by simp only [hstaging']; exact hstaging⟩
  · exact hlog'.trans hlog

theorem Part.finalResult_wbq (c : Command) (st : ResultStatus) (p : Part) : p.bus.wbq <+: (p.finalResult c st).bus.wbq := by
  have hmake : ∀ q : Part, ∀ r, (q.makeLog r).bus.wbq = q.bus.wbq := fun q r => by
    unfold Part.makeLog Part.stage
    split
    · split <;> rfl
    · rfl
  rw [Part.finalResult, Part.logNow, hmake]
  exact (Part.setResult_keepsBus c.tag st p).2.2.2.2.2.trans (Part.raise_entries .command _).2.2.2.2.2

/-- Settles O29: the answer by `Part.restartEffect_spec`; what is admitted last lets the drain begin. -/
theorem restartAnswersAndDrains : Obligations.RestartAnswersAndDrains := by
  refine ⟨fun tag spare s ⟨hw, hfree⟩ hcur hmode => ?_, fun off before es o k s hm hdrain hes hlog hwait hoff hroom htodo hwork hcur => ?_,
    fun k before r s hm hdrain hlog hroom hcur => ?_, fun code tag spare es before later s hm hw hcur hprogress hknown hdrain => ?_⟩
  · have hlive : s.part.mode.live = true := by
      rcases hmode with h | h
      · exact Mode.live_of_serving h
      · rw [h]; rfl
    have hrefusal : s.part.refusal 10 = none := by
      rcases hmode with h | h
      · exact Part.refusal_of_serving h hfree (by decide) (by decide)
      · exact Part.refusal_of_unconfigured h hfree (by simp)
    have hwritten := State.commandAccepted (code := 10) (tag := tag) (spare := spare) hlive hw hrefusal rfl
    have hgiven := Part.handing_keeps { code := 10, tag } (commandWord 10 tag spare) s.part
    have hentries := Part.handing_entries { code := 10, tag } (commandWord 10 tag spare) s.part
    have hroomy := fun hwait hroom =>
      Part.handing_room hlive hwait { code := 10, tag } (commandWord 10 tag spare) (p := s.part) hroom
    have hnotice := Part.handing_notice { code := 10, tag } (commandWord 10 tag spare) s.part
    have henable := Part.causeEnable_handing hw.2.2 { code := 10, tag } (commandWord 10 tag spare)
    generalize s.part.handing { code := 10, tag } (commandWord 10 tag spare) = given
      at hwritten hgiven hentries hroomy hnotice henable
    have hfinal := Part.finalResult_notice { code := 10, tag } .done given
    have hanswered := Part.finalResult_answered { code := 10, tag } .done given
    have hlonger := Part.finalResult_wbq { code := 10, tag } .done given
    obtain ⟨hkeeps, hlogged, hwbq, hdrains⟩ := Part.restartEffect_spec { code := 10, tag } given
    have hsame := Part.keepsBut_trans (given.finalResult_keeps { code := 10, tag } .done)
      (Part.keepsBut_mono hkeeps (by simp))
    have hall : s.part.keepsBut [.bus, .notice, .mirrors] (given.restartEffect { code := 10, tag }) :=
      Part.keepsBut_trans (Part.keepsBut_trans (Part.keepsBut_mono (Part.setMirror_keeps _ _ s.part) (by simp))
        (Part.keepsBut_mono hgiven (by simp))) (Part.keepsBut_mono hsame (by simp))
    have heffect : Part.effect { code := 10, tag } (s.part.mirror 0x011) given = given.restartEffect { code := 10, tag } := rfl
    have hsettle : Part.settle s.part (given.restartEffect { code := 10, tag }) = given.restartEffect { code := 10, tag } :=
      Part.settle_of_trouble hall hcur (by rw [hsame.mirrors, hgiven.mirrors]; rfl)
        (by rw [hkeeps.notice, hfinal, hnotice]) (by rw [hall.time])
    have htaken := State.commandTaken_of (bs := []) hw (by simp) (Part.keepsBut_trans hgiven hsame)
    rw [heffect, hsettle] at hwritten
    rw [hsettle] at htaken
    refine ⟨_, congrArg Host.Outcome.next hwritten, htaken, ⟨?_, ?_, ?_⟩, ?_, ?_, fun hwait hroom hlog hstaging => ?_⟩
    · simp only [Part.shows, hkeeps.notice]
      exact hanswered.1
    · simp only [hkeeps.notice, ← henable]
      exact hanswered.2.1
    · intro hm hh
      have hlast := hanswered.2.2 (by rw [hgiven.mode]; exact hm) (by rw [hnotice]; exact hh)
      simp only [hlogged, hlast, commandLog, Part.now, hkeeps.time]
    · exact (congrArg (fun n => n.inProgress) (hkeeps.notice.trans hfinal)).trans (congrArg (fun n => n.inProgress) hnotice)
    · simp only [hwbq]
      exact hentries.2.2.2.2.2.trans hlonger
    · obtain ⟨hwait', hlen, hmem⟩ := hroomy hwait (by omega)
      obtain ⟨hwait'', hlog', hmem'⟩ := Part.finalResult_room (by rw [hgiven.mode]; exact hlive) hwait' hmem (by omega)
        (hentries.2.2.1.trans hlog) (by rw [hentries.1]; exact hstaging) { code := 10, tag } .done
      obtain ⟨hlog'', hdrain⟩ := hdrains hwait'' hlog'
      exact ⟨by simp only [hwbq]; exact hmem', hlog'', hdrain⟩
  · have hadmit : s.part.admitEntry = { s.part with bus := { s.part.bus with
        wbWait := [], wbq := s.part.bus.wbq ++ [off]
        drain := some (.draining s.part.bus.staging.length (s.part.bus.wbq ++ [off]) false) } } := by
      have hbegin := Part.beginDrain_ready (p := { s.part with bus := { s.part.bus with
        wbWait := [], wbq := s.part.bus.wbq ++ [off] } }) hdrain rfl hlog
      rw [Part.admitEntry, Part.admitWaiter_eq hwait hoff hroom]
      simp only [Part.enterAll, List.foldl_nil]
      rw [hbegin]
      exact Part.resume_of_commandFree ⟨htodo, by simp [hwork], by simp [hwork]⟩
    have hkeeps : s.part.keepsBut [.bus] s.part.admitEntry := hadmit ▸ Part.withBus_keeps _ _
    refine ⟨_, rfl, ⟨rfl, rfl, rfl, ?_⟩, ?_⟩ <;> simp only [Part.work_of_bus hm hcur hkeeps]
    · exact hkeeps
    · rw [hadmit]
  · have hadmit : s.part.admitLog.beginDrain = { s.part with bus := { s.part.bus with
        logWait := [], staging := s.part.bus.staging ++ [r]
        drain := some (.draining (s.part.bus.staging.length + 1) s.part.bus.wbq false) } } := by
      have hbegin := Part.beginDrain_finishing (p := { s.part with bus := { s.part.bus with
        staging := s.part.bus.staging ++ [r], logWait := [] } }) (es := []) (before := before) hdrain
      rw [Part.admitLog_eq hlog hroom, hbegin]
      simp
    have hkeeps : s.part.keepsBut [.bus] s.part.admitLog.beginDrain := hadmit ▸ Part.withBus_keeps _ _
    refine ⟨_, rfl, ⟨rfl, rfl, rfl, ?_⟩, ?_⟩ <;> simp only [Part.work_of_bus (f := fun p => p.admitLog.beginDrain) hm hcur hkeeps]
    · exact hkeeps
    · rw [hadmit]
  · have hcommand := commandOf_commandWord code tag spare
    have hrefusal : s.part.refusal (commandOf (commandWord code tag spare)).code = some .refusedBusy := by
      rw [hcommand]
      have hloading : s.part.mode ≠ .loading := fun h => by simp [h, Mode.serving] at hm
      simp [Part.refusal, hknown, hloading, hprogress]
    have htaken := Part.takeCommand_refused hrefusal
    rw [hcommand] at htaken
    have hanswer : (s.part.setMirror 0x010 (commandWord code tag spare)).answerRefused { code, tag } .refusedBusy =
        { s.part.setMirror 0x010 (commandWord code tag spare) with bus := { s.part.bus with
          drain := some (.finishing es before (later ++ [({ code, tag }, .refusedBusy)])) } } := by
      simp only [Part.answerRefused, Part.setMirror_bus, hdrain]
    have hwritten := State.commandWrite_eq (Mode.live_of_serving hm) hw.2.1 code tag spare
    have hkept : s.part.keepsBut [.bus, .mirrors] ({ s.part.setMirror 0x010 (commandWord code tag spare) with bus := { s.part.bus with
          drain := some (.finishing es before (later ++ [({ code, tag }, .refusedBusy)])) } } : Part) := fun b hb => by
      cases b <;> simp [Block.same] at hb ⊢
    rw [htaken, hanswer, Part.settle_of_trouble hkept hcur rfl rfl rfl] at hwritten
    have hsame : (s.part.setMirror 0x010 (commandWord code tag spare)).keepsBut [.bus, .notice]
        ({ s.part.setMirror 0x010 (commandWord code tag spare) with bus := { s.part.bus with
          drain := some (.finishing es before (later ++ [({ code, tag }, .refusedBusy)])) } } : Part) :=
      Part.keepsBut_mono (Part.withBus_keeps _ _) (by simp)
    have hcommandTaken := State.commandTaken_of (bs := []) hw (by simp) hsame
    rw [Part.settle_of_trouble hkept hcur rfl rfl rfl] at hcommandTaken
    exact ⟨_, (exec_commandRow code tag spare s).trans (congrArg Host.Outcome.next hwritten), hcommandTaken, rfl, rfl⟩

end Sys2Proof.Machine
end

section
/-! PROOFS. What an operation of the Report Queue makes, and calls that end (R78 to R80, R85, R120, R152). -/

namespace Sys2Proof.Machine

/-! ### What a chain of operations makes -/

/-- An operation of the Report Queue has made these log records and this work for the Point Engine. -/
structure Part.makes (logs : List LogRecord) (work : List Work) (p q : Part) : Prop where
  keeps : p.keepsBut [.bus, .notice, .points, .queue, .arbiter] q
  logged : p.logsMade logs q
  points : q.points = { p.points with work := p.points.work ++ work }
  notice : q.notice = { p.notice with heads := q.notice.heads, causes := q.notice.causes }
  heads : q.notice.heads.isSome = p.notice.heads.isSome
  causes : ∀ i, p.notice.causes.getLsbD i = true → q.notice.causes.getLsbD i = true

theorem Part.makes_of_keeps {bs : List Block} {p q : Part} (h : p.keepsBut bs q) (hentries : p.bus.keepsButEntries q.bus)
    (hs : bs ⊆ [.bus, .queue, .arbiter]) : p.makes [] [] q := by
  have hk : p.keepsBut [.bus, .queue, .arbiter] q := Part.keepsBut_mono h hs
  refine ⟨Part.keepsBut_mono hk (by simp), fun _ _ => by rw [hentries.logged, List.append_nil], ?_, ?_, ?_, fun i hi => ?_⟩
  · rw [hk.points, List.append_nil]
  · rw [hk.notice]
  · rw [hk.notice]
  · rw [hk.notice]
    exact hi

theorem Part.makes_refl (p : Part) : p.makes [] [] p :=
  Part.makes_of_keeps (Part.keepsBut_refl [] p) (Bus.keepsButEntries_refl _) (by simp)

theorem Part.makes.trans {logs logs' : List LogRecord} {work work' : List Work} {p q r : Part} (h : p.makes logs work q)
    (k : q.makes logs' work' r) : p.makes (logs ++ logs') (work ++ work') r := by
  refine ⟨Part.keepsBut_trans h.keeps k.keeps, fun hm hh => ?_, ?_, ?_, k.heads.trans h.heads, fun i hi => k.causes i (h.causes i hi)⟩
  · rw [k.logged (by rw [h.keeps.mode]; exact hm) (by rw [h.heads]; exact hh), h.logged hm hh, List.append_assoc]
  · rw [k.points, h.points, List.append_assoc]
  · exact k.notice.trans (by rw [h.notice])

theorem Part.makes.now {logs : List LogRecord} {work : List Work} {p q : Part} (h : p.makes logs work q) : q.now = p.now := by
  rw [Part.now, h.keeps.time, Part.now]

theorem Part.causeSet.trans_makes {logs : List LogRecord} {work : List Work} {p q r : Part} {c : Cause} (h : p.causeSet c q)
    (k : q.makes logs work r) : p.causeSet c r := fun hen => k.causes _ (h hen)

theorem Part.makes_foldl {α : Type} {f : Part → α → Part} {logs : α → List LogRecord} {work : α → List Work} {p : Part}
    {l : List α}
    (h : ∀ q, p.keepsBut [.bus, .notice, .points, .queue, .arbiter] q → ∀ a ∈ l, q.makes (logs a) (work a) (f q a)) :
    p.makes (l.flatMap logs) (l.flatMap work) (l.foldl f p) := by
  induction l generalizing p with
  | nil => exact p.makes_refl
  | cons a l ih =>
    have hfirst := h p (Part.keepsBut_refl _ p) a (List.mem_cons_self ..)
    have hrest := ih fun q hq b hb => h q (Part.keepsBut_trans hfirst.keeps hq) b (List.mem_cons_of_mem _ hb)
    simpa using hfirst.trans hrest

theorem Part.makeLog_makes (r : LogRecord) (p : Part) : p.makes [r] [] (p.makeLog r) := by
  refine ⟨fun b hb => ?_, fun hm hh => Part.makeLog_logged hm hh r, by rw [Part.makeLog_points, List.append_nil],
    (Part.makeLog_notice r p).trans (by rw [Part.makeLog_notice]), ?_, fun i hi => ?_⟩
  · cases b <;> simp [Block.same] at hb ⊢
  · unfold Part.makeLog
    split
    · rename_i hh
      simp [hh]
    · rfl
  · rw [Part.makeLog_notice]
    exact hi

theorem Part.logNow_makes (r : LogRecord) (p : Part) : p.makes [r.stamp p.now] [] (p.logNow r) := Part.makeLog_makes _ p

theorem Part.raise_makes (c : Cause) (p : Part) : p.makes [] [] (p.raise c) := by
  refine ⟨Part.keepsBut_mono (Part.raise_keeps c p) (by simp), fun _ _ => ?_, by rw [(Part.raise_keeps c p).points, List.append_nil],
    (Part.raise_notice c p).trans (by rw [Part.raise_notice]), by rw [Part.raise_notice], fun i hi => ?_⟩
  · rw [(Part.raise_entries c p).logged, List.append_nil]
  · unfold Part.raise
    split
    · simp [hi]
    · exact hi

theorem Part.tell_makes (w : Work) (p : Part) : p.makes [] [w] (p.tell w) :=
  ⟨Part.keepsBut_mono (Part.tell_keeps w p) (by simp), fun _ _ => (List.append_nil _).symm, rfl, rfl, rfl, fun _ => id⟩

theorem Part.setRecords_makes (rs : List Record) (p : Part) : p.makes [] [] (p.setRecords rs) :=
  Part.makes_of_keeps (Part.setRecords_keeps rs p) (Part.setRecords_entries rs p) (by simp)

theorem Part.occasion_makes (p : Part) : p.makes [] [] p.occasion :=
  Part.makes_of_keeps p.occasion_keeps (Bus.keepsButEntries_refl _) (by simp)

/-! ### The records of a call -/

theorem Queue.inSlots_eq {q : Queue} (h : q.told) {c : Call} {rs : List Record} (hc : q.carries c rs) :
    q.inSlots c.undelivered = rs := by
  obtain ⟨hslots, hmem⟩ := hc
  rw [← hslots, Queue.inSlots, List.filterMap_map]
  exact (List.filterMap_congr fun r hr => h.inSlot_eq (hmem r hr)).trans List.filterMap_some

/-- Changed records put in place of those of a call. -/
theorem Part.replaceRecords_map {p : Part} (h : p.queue.told) {rs : List Record} (hmem : ∀ r ∈ rs, r ∈ p.queue.records)
    {f : Record → Record} (hid : ∀ r, (f r).id = r.id) : (p.replaceRecords (rs.map f)).queue =
      { p.queue with records := p.queue.records.map fun z => if z ∈ rs then f z else z } := by
  rw [Part.replaceRecords, Part.setRecords_queue]
  refine congrArg (fun l => ({ p.queue with records := l } : Queue)) (List.map_congr_left fun z hz => ?_)
  by_cases hrs : z ∈ rs
  · have hfind : (rs.map f).find? (·.id = z.id) = some (f z) :=
      find?_eq_of_unique (List.mem_map_of_mem hrs) (by simp [hid]) fun b hb hbid => by
        obtain ⟨r, hr, rfl⟩ := List.mem_map.mp hb
        rw [h.eq_of_id_eq (hmem r hr) hz (by simpa [hid] using hbid)]
    rw [if_pos hrs, hfind, Option.getD_some]
  · have hfind : (rs.map f).find? (·.id = z.id) = none := List.find?_eq_none.mpr fun b hb hbid => by
      obtain ⟨r, hr, rfl⟩ := List.mem_map.mp hb
      exact hrs (h.eq_of_id_eq (hmem r hr) hz (by simpa [hid] using hbid) ▸ hr)
    rw [if_neg hrs, hfind, Option.getD_none]

/-- A chain of at most one record stays as it is (R81). -/
theorem Part.mergePoint_of_short {p : Part} {i : PointNo} (h : (p.queue.chain i).length ≤ 1) : p.mergePoint i = p := by
  unfold Part.mergePoint
  refine if_pos ?_
  cases hchain : p.queue.chain i with
  | nil => rfl
  | cons r l =>
    cases l with
    | nil => rfl
    | cons x l => simp [hchain] at h

theorem List.foldl_of_fixed {α β : Type} {f : α → β → α} {a : α} {l : List β} (h : ∀ b ∈ l, f a b = a) : l.foldl f a = a := by
  induction l with
  | nil => rfl
  | cons b l ih =>
    rw [List.foldl_cons, h b (List.mem_cons_self ..)]
    exact ih fun c hc => h c (List.mem_cons_of_mem _ hc)

/-- A list without repetition has at most one element of a property that only one element has. -/
theorem length_filter_le_one {α : Type} {l : List α} (hl : l.Nodup) {P : α → Bool} {a : α} (h : ∀ b ∈ l, P b = true → b = a) :
    (l.filter P).length ≤ 1 := by
  have hsub : l.filter P ⊆ [a] := fun b hb => by
    obtain ⟨hmem, hP⟩ := List.mem_filter.mp hb
    exact List.mem_singleton.mpr (h b hmem hP)
  exact ((List.subperm_of_subset (hl.filter P) hsub).length_le).trans (by simp)

/-- What a returned record is reported to the Point Engine as (R79, R80). -/
def Record.returnedWork (r : Record) : Work := .notice (if r.state = .held then .exhaustion else .returned) r.point

/-- Records that are the only ones of their points return without a merge (R79 to R81). -/
theorem Part.returned_alone {p : Part} {rs : List Record} (h : ∀ r ∈ rs, (p.queue.chain r.point).length ≤ 1) :
    p.makes [] (rs.map Record.returnedWork) (p.returned rs) ∧ (p.returned rs).queue = p.queue ∧
      (p.returned rs).arbiter = p.occasion.arbiter := by
  have htold : p.makes [] (rs.map Record.returnedWork) (rs.foldl (fun q r => q.tell r.returnedWork) p) := by
    have htells := Part.makes_foldl (f := fun q (r : Record) => q.tell r.returnedWork) (logs := fun _ => [])
      (work := fun r => [r.returnedWork]) (p := p) (l := rs) fun q _ a _ => Part.tell_makes _ q
    rwa [List.flatMap_eq_nil_iff.mpr fun _ _ => rfl, ← List.map_eq_flatMap] at htells
  have hqueue : (rs.foldl (fun q r => q.tell r.returnedWork) p).queue = p.queue :=
    List.foldlRecOn rs (motive := fun q : Part => q.queue = p.queue) (fun q r => q.tell r.returnedWork) rfl fun q hq r _ => hq
  have hmerged : (rs.map (·.point)).dedup.foldl (fun q i => q.mergePoint i) (rs.foldl (fun q r => q.tell r.returnedWork) p) =
      rs.foldl (fun q r => q.tell r.returnedWork) p := List.foldl_of_fixed fun i hi => by
    obtain ⟨r, hr, rfl⟩ := List.mem_map.mp (List.mem_dedup.mp hi)
    exact Part.mergePoint_of_short (by rw [hqueue]; exact h r hr)
  have heq : p.returned rs = (rs.foldl (fun q r => q.tell r.returnedWork) p).occasion := congrArg Part.occasion hmerged
  have harbiter : (rs.foldl (fun q r => q.tell r.returnedWork) p).arbiter = p.arbiter :=
    List.foldlRecOn rs (motive := fun q : Part => q.arbiter = p.arbiter) (fun q r => q.tell r.returnedWork) rfl fun q hq r _ => hq
  rw [heq]
  refine ⟨?_, hqueue, by rw [Part.occasion, harbiter, Part.occasion]⟩
  simpa using htold.trans (Part.occasion_makes _)

/-- The records of a call that are alone are alone when they have been changed. -/
theorem Queue.alone.short {q : Queue} (h : q.told) {rs : List Record} (halone : q.alone rs) {f : Record → Record}
    (hpoint : ∀ r, (f r).point = r.point) {i : PointNo} (hi : i ∈ rs.map (·.point)) :
    (({ q with records := q.records.map fun z => if z ∈ rs then f z else z } : Queue).chain i).length ≤ 1 := by
  obtain ⟨r, hr, rfl⟩ := List.mem_map.mp hi
  rw [Queue.chain, List.filter_map, List.length_map]
  refine length_filter_le_one h.records_nodup (a := r) fun z hz hchain => halone r hr z hz ?_
  have hpz : (if z ∈ rs then f z else z).point = r.point := by
    simp only [Function.comp_apply, decide_eq_true_eq] at hchain
    exact hchain.1
  split at hpz
  · rwa [hpoint] at hpz
  · exact hpz

/-! ### A counted failure -/

theorem Part.failLegs_id (p : Part) (r : Record) : (p.failLegs r).id = r.id ∧ (p.failLegs r).point = r.point := by
  unfold Part.failLegs
  simp only
  split
  · exact ⟨rfl, rfl⟩
  · split <;> exact ⟨rfl, rfl⟩

theorem Part.failed_id (p : Part) (r : Record) : (p.failed r).id = r.id ∧ (p.failed r).point = r.point := by
  unfold Part.failed
  simp only
  split <;> exact p.failLegs_id r

/-- Steps 1 and 2 of R78 give the record of R78 and R79. -/
theorem Part.failed_eq (p : Part) (r : Record) : p.failed r = p.afterFailure r := by
  unfold Part.failed Part.afterFailure Part.failLegs
  by_cases hlimit : r.attempts + 1 < p.legLimit r.route
  · have hn : ¬ p.legLimit r.route ≤ r.attempts + 1 := by omega
    simp [hlimit, hn]
  · have hn : p.legLimit r.route ≤ r.attempts + 1 := by omega
    simp only [hlimit, hn, if_false]
    cases hleg : r.leg <;> cases hbackup : p.backupDest r.route <;> simp

/-- What a call's failure does with one record that has become HELD (R79, R85). -/
def Part.exhausts (n : LineNo) (c : Call) (why : FailReason) (q : Part) (e : Record × Record) : Part :=
  if e.2.state = .held then Part.raise .exhausted (q.logNow (e.1.failureLog .exhausted n c.dest why)) else q

theorem Part.failLog_eq (p : Part) (n : LineNo) (c : Call) (why : FailReason) (kind : LogKind) (r : Record) :
    (r.failureLog kind n c.dest why).stamp p.now = p.failLog n c why kind r := rfl

theorem Part.mergePoint_keeps (i : PointNo) (p : Part) :
    p.keepsBut [.bus, .notice, .points, .queue, .arbiter] (p.mergePoint i) := by
  unfold Part.mergePoint
  simp only
  split
  · exact Part.keepsBut_refl _ p
  · refine Part.keepsBut_trans (Part.keepsBut_trans (Part.setRecords_makes _ p).keeps (Part.keepsBut_foldl (fun q l => ?_) _ _))
      (Part.tell_makes _ _).keeps
    exact ((Part.makeLog_makes l q).trans (Part.tell_makes _ _)).keeps

theorem Part.returned_keeps (rs : List Record) (p : Part) :
    p.keepsBut [.bus, .notice, .points, .queue, .arbiter] (p.returned rs) :=
  Part.keepsBut_trans (Part.keepsBut_trans (Part.keepsBut_foldl (fun q _ => (Part.tell_makes _ q).keeps) rs p)
    (Part.keepsBut_foldl (fun q i => Part.mergePoint_keeps i q) _ _)) (Part.occasion_makes _).keeps

theorem Part.returned_decisionPending (rs : List Record) (p : Part) : (p.returned rs).arbiter.decisionPending = true := rfl

/-- The record named in the CALL FAILED log record (R85). -/
def failureNames (rs : List Record) : List Record :=
  match rs.find? (·.state = .sending) with
  | some r => [r]
  | none => rs.take 1

/-- The log record of the record named. -/
def Part.logNamed (f : Record → LogRecord) (rs : List Record) (p : Part) : Part := rs.foldl (fun q r => q.logNow (f r)) p

theorem Part.logNamed_makes (f : Record → LogRecord) (rs : List Record) (p : Part) :
    p.makes (rs.map fun r => (f r).stamp p.now) [] (p.logNamed f rs) := by
  have hlogs := Part.makes_foldl (f := fun q (r : Record) => q.logNow (f r)) (logs := fun r => [(f r).stamp p.now])
    (work := fun _ => []) (p := p) (l := rs) fun q hq a _ => by
      have hnow : q.now = p.now := by rw [Part.now, hq.time, Part.now]
      exact hnow ▸ Part.logNow_makes (f a) q
  rwa [← List.map_eq_flatMap, List.flatMap_eq_nil_iff.mpr fun _ _ => rfl] at hlogs

/-- A counted failure, its parts in order (R78, R79, R85). -/
theorem Part.failCall_eq (n : LineNo) (c : Call) (why : FailReason) (p : Part) :
    p.failCall n c why =
      (((p.queue.inSlots c.undelivered).map fun r => (r, p.failed r)).foldl (Part.exhausts n c why)
        ((p.replaceRecords ((p.queue.inSlots c.undelivered).map p.failed)).logNamed
          (fun r => r.failureLog .callFailed n c.dest why) (failureNames (p.queue.inSlots c.undelivered)))).returned
        ((p.queue.inSlots c.undelivered).map p.failed) := by
  have hzip : (p.queue.inSlots c.undelivered).zip ((p.queue.inSlots c.undelivered).map p.failed) =
      (p.queue.inSlots c.undelivered).map fun r => (r, p.failed r) := by
    simpa using List.zip_map' (f := id) (g := p.failed) (l := p.queue.inSlots c.undelivered)
  unfold Part.failCall
  simp only [hzip]
  unfold failureNames Part.logNamed
  cases (p.queue.inSlots c.undelivered).find? (·.state = .sending) with
  | some r => rfl
  | none => cases p.queue.inSlots c.undelivered <;> rfl

theorem Part.exhausts_makes {n : LineNo} {c : Call} {why : FailReason} {p q : Part} {r : Record} (hnow : q.now = p.now) :
    q.makes (if (p.afterFailure r).state = .held then [p.failLog n c why .exhausted r] else []) []
      (q.exhausts n c why (r, p.afterFailure r)) := by
  unfold Part.exhausts
  split
  · have hlog := Part.logNow_makes (r.failureLog .exhausted n c.dest why) q
    rw [hnow, Part.failLog_eq] at hlog
    exact hlog.trans (Part.raise_makes _ _)
  · exact q.makes_refl

theorem Part.exhausts_causeSet {n : LineNo} {c : Call} {why : FailReason} {p q : Part} {r : Record}
    (hq : p.keepsBut [.bus, .notice, .points, .queue, .arbiter] q) (hheld : (p.afterFailure r).state = .held) :
    p.causeSet .exhausted (q.exhausts n c why (r, p.afterFailure r)) := by
  intro hen
  have hraised := Part.raise_causeSet .exhausted (q.logNow (r.failureLog .exhausted n c.dest why))
  rw [Part.exhausts, if_pos hheld]
  refine hraised ?_
  rw [Part.causeEnable, Part.mirror_of_mirrors (Part.logNow_keeps _ _).mirrors, Part.mirror_of_mirrors hq.mirrors]
  exact hen

/-- The records that are HELD after a counted failure. -/
def Part.exhausted (p : Part) (rs : List Record) : List Record := rs.filter fun r => decide ((p.afterFailure r).state = .held)

theorem Part.exhaustAll_makes {n : LineNo} {c : Call} {why : FailReason} {p q : Part} {rs : List Record}
    (hq : p.keepsBut [.bus, .notice, .points, .queue, .arbiter] q) :
    q.makes ((p.exhausted rs).map (p.failLog n c why .exhausted)) []
        ((rs.map fun r => (r, p.afterFailure r)).foldl (Part.exhausts n c why) q) ∧
      (p.exhausted rs ≠ [] → p.causeSet .exhausted ((rs.map fun r => (r, p.afterFailure r)).foldl (Part.exhausts n c why) q)) := by
  rw [List.foldl_map]
  induction rs generalizing q with
  | nil => exact ⟨q.makes_refl, fun h => absurd rfl h⟩
  | cons r rs ih =>
    have hfirst := Part.exhausts_makes (n := n) (c := c) (why := why) (p := p) (q := q) (r := r) (by rw [Part.now, hq.time, Part.now])
    have hkept := Part.keepsBut_trans hq hfirst.keeps
    obtain ⟨hrest, hcause⟩ := ih hkept
    rw [List.foldl_cons]
    by_cases hheld : (p.afterFailure r).state = .held
    · rw [if_pos hheld] at hfirst
      refine ⟨?_, fun _ => (Part.exhausts_causeSet hq hheld).trans_makes hrest⟩
      simpa [Part.exhausted, hheld] using hfirst.trans hrest
    · rw [if_neg hheld] at hfirst
      have hsame : p.exhausted (r :: rs) = p.exhausted rs := by simp [Part.exhausted, hheld]
      rw [hsame]
      exact ⟨by simpa using hfirst.trans hrest, hcause⟩

theorem Part.exhaustAll_queue (n : LineNo) (c : Call) (why : FailReason) (es : List (Record × Record)) (p : Part) :
    (es.foldl (Part.exhausts n c why) p).queue = p.queue :=
  List.foldlRecOn es (motive := fun q : Part => q.queue = p.queue) (Part.exhausts n c why) rfl fun q hq e _ => by
    unfold Part.exhausts
    split
    · rw [(Part.raise_keeps _ _).queue, (Part.logNow_keeps _ q).queue, hq]
    · exact hq

theorem Part.logNamed_queue (f : Record → LogRecord) (rs : List Record) (p : Part) : (p.logNamed f rs).queue = p.queue :=
  List.foldlRecOn rs (motive := fun q : Part => q.queue = p.queue) _ rfl fun q hq r _ => by
    rw [(Part.logNow_keeps _ q).queue, hq]

theorem Part.failCall_keeps (n : LineNo) (c : Call) (why : FailReason) (p : Part) :
    p.keepsBut [.bus, .notice, .points, .queue, .arbiter] (p.failCall n c why) := by
  have hfailed : p.failed = p.afterFailure := funext p.failed_eq
  rw [Part.failCall_eq, hfailed]
  have hnamed := ((p.setRecords_makes _).trans (Part.logNamed_makes (fun r => r.failureLog .callFailed n c.dest why)
    (failureNames (p.queue.inSlots c.undelivered))
    (p.replaceRecords ((p.queue.inSlots c.undelivered).map p.afterFailure)))).keeps
  exact Part.keepsBut_trans (Part.keepsBut_trans hnamed (Part.exhaustAll_makes hnamed).1.keeps) (Part.returned_keeps _ _)

/-- A counted failure of a call whose undelivered records are alone (R78, R79, R85). -/
theorem Part.failCall_spec {p : Part} {c : Call} {rs : List Record} (hs : p.queue.sound) (hc : p.queue.carries c rs)
    (halone : p.queue.alone rs) (n : LineNo) (why : FailReason) :
    p.makes ((failureNames rs).map (p.failLog n c why .callFailed) ++ (p.exhausted rs).map (p.failLog n c why .exhausted))
        (rs.map fun r => .notice (if r ∈ p.exhausted rs then .exhaustion else .returned) r.point) (p.failCall n c why) ∧
      (p.failCall n c why).queue = { p.queue with
        records := p.queue.records.map fun z => if z ∈ rs then p.afterFailure z else z } ∧
      (p.exhausted rs ≠ [] → p.causeSet .exhausted (p.failCall n c why)) := by
  have hfailed : p.failed = p.afterFailure := funext p.failed_eq
  have hid : ∀ r, (p.afterFailure r).id = r.id := fun r => hfailed ▸ (p.failed_id r).1
  have hpoint : ∀ r, (p.afterFailure r).point = r.point := fun r => hfailed ▸ (p.failed_id r).2
  rw [Part.failCall_eq, hfailed, Queue.inSlots_eq hs.told hc]
  have hreplaced := Part.replaceRecords_map hs.told hc.2 hid
  have hnamed := (p.setRecords_makes _).trans (Part.logNamed_makes (fun r => r.failureLog .callFailed n c.dest why)
    (failureNames rs) (p.replaceRecords (rs.map p.afterFailure)))
  obtain ⟨hexhausts, hcause⟩ := Part.exhaustAll_makes (n := n) (c := c) (why := why) (rs := rs) hnamed.keeps
  have hnow : (p.replaceRecords (rs.map p.afterFailure)).now = p.now := (p.setRecords_makes _).now
  generalize hq : ((rs.map fun r => (r, p.afterFailure r)).foldl (Part.exhausts n c why)
    ((p.replaceRecords (rs.map p.afterFailure)).logNamed (fun r => r.failureLog .callFailed n c.dest why) (failureNames rs))) = q
    at hexhausts hcause ⊢
  have hqueue : q.queue = { p.queue with
      records := p.queue.records.map fun z => if z ∈ rs then p.afterFailure z else z } := by
    rw [← hq, Part.exhaustAll_queue, Part.logNamed_queue, hreplaced]
  obtain ⟨hreturned, hsame, -⟩ := Part.returned_alone (p := q) (rs := rs.map p.afterFailure) fun r hr => by
    obtain ⟨x, hx, rfl⟩ := List.mem_map.mp hr
    rw [hqueue]
    exact halone.short hs.told hpoint (List.mem_map.mpr ⟨x, hx, (hpoint x).symm⟩)
  refine ⟨?_, hsame.trans hqueue, fun hheld => (hcause hheld).trans_makes hreturned⟩
  have hall := (hnamed.trans hexhausts).trans hreturned
  have hwork : (rs.map p.afterFailure).map Record.returnedWork =
      rs.map fun r => .notice (if r ∈ p.exhausted rs then .exhaustion else .returned) r.point := by
    rw [List.map_map]
    refine List.map_congr_left fun r hr => ?_
    simp [Record.returnedWork, Part.exhausted, hr, hpoint]
  rw [hwork, hnow] at hall
  simpa [Part.failLog_eq] using hall

/-! ### A call that ends with a failure -/

/-- A counted failure, and what follows it in the same step. -/
theorem State.failureCounted_of {s t : State} {n : LineNo} {c : Call} {why : FailReason} {logs : List LogRecord}
    {work : List Work} (hqueue : t.part.queue = (s.part.handOutcome n c (.failed why)).queue)
    (hwork : t.part.points.work = (s.part.handOutcome n c (.failed why)).points.work ++ work)
    (hlogs : (s.part.handOutcome n c (.failed why)).logsMade logs t.part)
    (hcauses : ∀ i, (s.part.handOutcome n c (.failed why)).notice.causes.getLsbD i = true → t.part.notice.causes.getLsbD i = true) :
    s.failureCounted n c why logs work t := by
  intro rs hc halone hs
  by_cases hcomplete : c.complete = true
  · have hout : s.part.handOutcome n c (.failed why) = s.part := by simp [Part.handOutcome, hcomplete]
    have hnone : rs = [] := by
      have hslots := hc.1
      rw [Call.undelivered, of_decide_eq_true hcomplete, List.drop_length] at hslots
      exact List.map_eq_nil_iff.mp hslots
    subst hnone
    rw [hout] at hqueue hwork hlogs
    refine ⟨by rw [hqueue]; simp, by rw [hwork]; simp, fun hm hh => by rw [hlogs hm hh]; simp, fun h => absurd rfl h⟩
  · have hout : s.part.handOutcome n c (.failed why) = s.part.failCall n c why := by simp [Part.handOutcome, hcomplete]
    obtain ⟨hmakes, hrecords, hcause⟩ := Part.failCall_spec hs hc halone n why
    rw [hout] at hqueue hwork hlogs hcauses
    refine ⟨hqueue.trans hrecords, ?_, fun hm hh => ?_, fun hheld hen => hcauses _ (hcause hheld hen)⟩
    · rw [hwork, hmakes.points]
      rfl
    · rw [hlogs (by rw [hmakes.keeps.mode]; exact hm) (by rw [hmakes.heads]; exact hh), hmakes.logged hm hh, List.append_assoc]
      rfl

theorem Part.handOutcome_keeps (n : LineNo) (c : Call) (why : FailReason) (p : Part) :
    p.keepsBut [.bus, .notice, .points, .queue, .arbiter] (p.handOutcome n c (.failed why)) := by
  unfold Part.handOutcome
  split
  · exact Part.keepsBut_refl _ p
  · exact p.failCall_keeps n c why

theorem Part.failLine_eq {p : Part} {n : LineNo} {c : Call} (hcall : (p.line n).call = some c) (why : FailReason) :
    p.failLine n why = (p.handOutcome n c (.failed why)).moveLine n fun l => Line.toRelease { l with call := none } := by
  simp only [Part.failLine, Part.endCall, hcall]

/-- A step that ends the call of a line with a failure (R120, R152). -/
theorem State.callFailed_of {s : State} {f : Part → Part} {n : LineNo} {c : Call} {why : FailReason} (hm : s.part.mode.live = true)
    (hcall : (s.part.line n).call = some c) (hstate : (s.part.line n).state ≠ .release) (hf : f s.part = s.part.failLine n why) :
    s.callFailed n c why { s with part := s.part.work f } := by
  rw [Part.failLine_eq hcall] at hf
  have hout := s.part.handOutcome_keeps n c why
  have hline : (s.part.handOutcome n c (.failed why)).line n = s.part.line n := Part.line_of_lines hout.lines n
  generalize hp : s.part.handOutcome n c (.failed why) = p at hf hout hline
  have hmove := Part.moveLine_keeps n (fun l => Line.toRelease { l with call := none }) p
  have hentries := Bus.keepsButEntries_trans (Part.moveLine_entries n (fun l => Line.toRelease { l with call := none }) p)
    (Part.settle_entries s.part _)
  obtain ⟨-, hcauses, -⟩ := Part.settle_trouble s.part (p.moveLine n fun l => Line.toRelease { l with call := none })
  have hwork : s.part.work f = Part.settle s.part (p.moveLine n fun l => Line.toRelease { l with call := none }) := by
    rw [Part.work_of_live hm, hf]
  rw [hwork]
  refine ⟨?_, ?_, ?_, fun m hmn => ?_, ?_, ⟨rfl, rfl, rfl, ?_⟩, State.failureCounted_of ?_ ?_ ?_ fun i hi => ?_⟩
  · rw [Part.line_settle, Part.line_moveLine]
    rfl
  · rw [Part.line_settle, Part.line_moveLine]
    rfl
  · rw [Part.line_settle, Part.line_moveLine]
    rfl
  · rw [Part.line_settle, Part.line_moveLine_ne hmn, Part.line_of_lines hout.lines]
  · have hmoved : (Line.toRelease { s.part.line n with call := none }).state ≠ (s.part.line n).state := hstate.symm
    rw [Part.settle_arbiter, Part.moveLine_arbiter, hline, decide_eq_true hmoved, Bool.or_true]
  · exact Part.keepsBut_trans (Part.keepsBut_trans (Part.keepsBut_mono hout (by simp)) (Part.keepsBut_mono hmove (by simp)))
      (Part.keepsBut_mono (Part.settle_keeps _ _) (by simp))
  · rw [hp, Part.settle_queue, Part.moveLine_queue]
  · rw [hp, Part.settle_points, hmove.points, List.append_nil]
  · rw [hp]
    exact fun _ _ => by rw [hentries.logged, List.append_nil]
  · rw [hcauses, Part.moveLine_notice]
    rwa [hp] at hi

/-! ### Which steps end a call -/

theorem Part.inPhase_of {p : Part} {n : LineNo} {c : Call} {ph : Phase} (hstate : (p.line n).state = .linked)
    (hcall : (p.line n).call = some c) (hphase : c.phase = ph) : p.inPhase n ph = true := by
  simp [Part.inPhase, hstate, hcall, hphase]

/-- After the third send the call has failed (R144, R145). -/
theorem Part.unanswered_third {p : Part} {n : LineNo} {c : Call} (hcall : (p.line n).call = some c) (hsends : 3 ≤ c.sends) :
    p.unanswered n = p.failLine n .noAck := by
  simp only [Part.unanswered, hcall]
  exact if_neg (by simp only [Config.maxSends]; omega)

theorem Part.afterPhaseDo_of {p : Part} {n : LineNo} {c : Call} {ph : Phase} {f : Part → Part}
    (hstate : (p.line n).state = .linked) (hcall : (p.line n).call = some c) (hphase : c.phase = ph)
    (htimer : (p.line n).timer = some 0) : p.afterPhaseDo n ph f = f p := by
  rw [Part.afterPhaseDo, if_pos (Line.timeUp_of htimer), Part.inPhaseDo, if_pos (Part.inPhase_of hstate hcall hphase)]

/-- A call that ends complete hands nothing to the Report Queue (R152). -/
theorem Part.endCall_complete {p : Part} {n : LineNo} {c : Call} (hcall : (p.line n).call = some c)
    (hcomplete : c.delivered = c.reports.length) (next : Line → Line) :
    p.endCall n .complete next = p.moveLine n fun l => next { l with call := none } := by
  simp [Part.endCall, hcall, Part.handOutcome, Call.complete, hcomplete]

theorem LineState.offHook_ne_release {st : LineState} (h : st.offHook = true) : st ≠ .release := by
  rintro rfl
  exact absurd h (by decide)

/-- Settles O58: each step ends the call by `State.callFailed_of`, the last one complete. -/
theorem callsEndInTheReleaseGuard : Obligations.CallsEndInTheReleaseGuard := by
  refine fun n c s hm hcall => ⟨fun k hhook hloss => ⟨fun hlen => ?_, fun hlen hcur => ?_⟩, fun hstate => ?_,
    fun hstate hphase hsends => ?_, fun htimer => ⟨fun hstate hblind => ?_, fun hstate hsymbol => ?_, fun hstate => ?_,
    fun hstate hphase => ?_, fun hstate hphase hsends hmeasuring => ?_, fun hstate hphase hcomplete => ?_⟩⟩
  · refine ⟨_, rfl, State.callFailed_of hm hcall (LineState.offHook_ne_release hhook) ?_⟩
    exact if_pos (by rw [Part.hook] at hhook; simp [hhook, hloss, reached_some, Config.farClearMs, hlen])
  · refine ⟨_, rfl, State.work_idle hcur ?_⟩
    exact if_neg (by simp [hloss, reached_some, Config.farClearMs, hlen])
  · exact ⟨_, rfl, State.callFailed_of hm hcall (by rw [hstate]; exact nofun) (if_pos hstate)⟩
  · refine ⟨_, rfl, State.callFailed_of hm hcall (by rw [hstate]; exact nofun) ?_⟩
    rw [Part.inPhaseDo, if_pos (Part.inPhase_of hstate hcall hphase), Part.unanswered_third hcall hsends]
  · exact ⟨_, rfl, State.callFailed_of hm hcall (by rw [hstate]; exact nofun)
      ((if_pos ⟨hstate, Line.timeUp_of htimer⟩).trans (if_neg (by simp [hblind])))⟩
  · refine ⟨_, rfl, State.callFailed_of hm hcall (by rw [hstate]; exact nofun) (if_pos ?_)⟩
    rw [Line.inWait_of hstate hcall, Line.timeUp_of htimer, hsymbol]
    rfl
  · exact ⟨_, rfl, State.callFailed_of hm hcall (by rw [hstate]; exact nofun) (if_pos ⟨hstate, Line.timeUp_of htimer⟩)⟩
  · exact ⟨_, rfl, State.callFailed_of hm hcall (by rw [hstate]; exact nofun) (Part.afterPhaseDo_of hstate hcall hphase htimer)⟩
  · refine ⟨_, rfl, State.callFailed_of hm hcall (by rw [hstate]; exact nofun) ?_⟩
    rw [Part.afterPhaseDo_of hstate hcall hphase htimer, Part.windowCloses, if_neg (by simp [hmeasuring]),
      Part.unanswered_third hcall hsends]
  · obtain ⟨hstep, hline, hpending, hqueue⟩ := State.lineStep_moves
      (f := Part.afterPhaseDo n .ending (Part.endCall n .complete Line.toRelease)) hm
      ((Part.afterPhaseDo_of hstate hcall hphase htimer).trans (Part.endCall_complete hcall hcomplete _))
    refine ⟨_, rfl, hstep, by rw [hline]; rfl, by rw [hline]; rfl, by rw [hline]; rfl, hpending ?_, hqueue⟩
    rw [hstate]
    exact nofun

end Sys2Proof.Machine
end

section
/-! PROOFS. Loop supervision (R107 to R109). -/

namespace Sys2Proof.Machine

theorem Line.setLoop_of_eq {l : Line} {judged present : Bool} (h : l.loopSense = present) : l.setLoop judged present = l := by
  simp [Line.setLoop, h]

theorem LineState.lossTimed_iff (st : LineState) : st.lossTimed = true ↔ st ∉ ([.disabled, .fault] : List LineState) := by
  cases st <;> decide

/-- The timers that a change of the loop sense starts and stops (R106, R107, R109). -/
theorem Line.setLoop_of_ne {l : Line} {present : Bool} (h : l.loopSense ≠ present) : l.setLoop true present = { l with
    loopSense := present
    loopLoss := if present = false ∧ l.state ∉ ([.disabled, .fault] : List LineState) then some 0 else none
    currentLoss := if present = false ∧ l.state.offHook = true then some 0 else none
    presence := if l.state = .fault then some 0 else none } := by
  simp only [← LineState.lossTimed_iff]
  simp [Line.setLoop, h]

/-- What a line keeps when its loop sense changes. -/
theorem Line.setLoop_keeps (judged present : Bool) (l : Line) : l.setLoop judged present = { l with
    loopSense := present
    loopLoss := (l.setLoop judged present).loopLoss
    currentLoss := (l.setLoop judged present).currentLoss
    presence := (l.setLoop judged present).presence } := by
  by_cases h : l.loopSense = present
  · rw [Line.setLoop_of_eq h, ← h]
  · simp [Line.setLoop, h]

/-! ### FAULT after a call -/

theorem Part.faultChanges_causes {n : LineNo} {g : Line → Line} {kind : LogKind} {sense : BitVec 2} {active : Bool} {p : Part}
    {i : Nat} (h : p.notice.causes.getLsbD i = true) :
    (p.faultChanges n g kind sense active).notice.causes.getLsbD i = true := by
  have hraised : ((p.moveLine n g).raise .line).notice.causes.getLsbD i = true :=
    (Part.raise_makes .line (p.moveLine n g)).causes i (by rwa [Part.moveLine_notice])
  unfold Part.faultChanges
  simp only
  split
  · exact ((Part.tell_makes _ _).trans (Part.logNow_makes _ _)).causes i hraised
  · exact hraised

/-- The expiry of the loop-loss timer, by the state of the line (R107, R108). -/
theorem Part.loopLossExpires_early {p : Part} {n : LineNo} {k : Nat} (h : (p.line n).loopLoss = some k) (hlen : k < 10000) :
    p.loopLossExpires n = p := by
  simp [Part.loopLossExpires, h, reached_some, Config.loopLossMs, hlen]

theorem Part.loopLossExpires_of {p : Part} {n : LineNo} {k : Nat} (h : (p.line n).loopLoss = some k) (hlen : 10000 ≤ k) :
    (((p.line n).state = .idle ∨ (p.line n).state = .office) → p.loopLossExpires n = p.enterFault n) ∧
    (∀ c, (p.line n).state = .breaking → (p.line n).call = some c → p.loopLossExpires n =
      if (p.line n).disablePending then (p.handOutcome n c (.failed .noDialTone)).moveLine n Line.disable
      else (p.handOutcome n c (.failed .noDialTone)).enterFault n) ∧
    ((p.line n).state = .release → p.loopLossExpires n = p.setLine n { p.line n with lossExpired := true }) ∧
    ((p.line n).state.offHook = true → p.loopLossExpires n = p) := by
  have hreached : reached (p.line n).loopLoss Config.loopLossMs = true := by simp [h, reached_some, Config.loopLossMs, hlen]
  unfold Part.loopLossExpires
  simp only [hreached, Bool.not_true, Bool.false_eq_true, if_false]
  refine ⟨?_, fun c hs hc => ?_, fun hs => ?_, fun hs => ?_⟩
  · rintro (hs | hs) <;> rw [hs]
  · simp only [hs, hc]
  · rw [hs]
  · cases hstate : (p.line n).state <;> simp [hstate, LineState.offHook] at hs ⊢

/-- A change of a line that leaves its state settles without effect. -/
theorem Part.settle_setLine {p : Part} {n : LineNo} {l : Line} (hcur : p.troubleCurrent) (hstate : l.state = (p.line n).state) :
    Part.settle p (p.setLine n l) = p.setLine n l := by
  have hdue : (p.setLine n l).troubleDue = p.troubleDue := Part.troubleDue_congr rfl rfl
    (fun m => by
      by_cases hmn : m = n
      · rw [hmn, Part.line_setLine, hstate]
      · rw [Part.line_setLine_ne hmn]) rfl rfl
  refine Part.settle_of_current ?_ (Part.statusWord_congr rfl rfl rfl rfl rfl rfl)
  rw [hdue]
  exact hcur

/-- A line that enters FAULT asks for LINE, is logged and reported as a condition (R108). -/
theorem State.faultEntered_of {s : State} {f : Part → Part} {n : LineNo} {g : Line → Line} {kind : LogKind} {sense : BitVec 2}
    {active : Bool} (hm : s.part.mode.serving = true) (hf : f s.part = s.part.faultChanges n g kind sense active)
    (hmoves : (g (s.part.line n)).state ≠ (s.part.line n).state) :
    let t := { s with part := s.part.work f }
    s.keepsBut [.bus, .notice, .points, .lines, .arbiter] t ∧ s.part.keepsOtherLines n t.part ∧
      t.part.line n = g (s.part.line n) ∧ t.part.arbiter.decisionPending = true ∧
      t.part.points = { s.part.points with work := s.part.points.work ++ [.condition (faultPoint n) active] } ∧
      s.part.causeSet .line t.part ∧
      (s.part.notice.heads.isSome = true → t.part.bus.logged = s.part.bus.logged ++ [s.part.lineLog n kind sense]) := by
  obtain ⟨hkeeps, hothers, hline, harbiter, hpoints, hcause, hlog⟩ := Part.faultChanges_spec (n := n) (g := g) (kind := kind)
    (sense := sense) (active := active) hm
  rw [← hf] at hkeeps hothers hline harbiter hpoints hcause hlog
  obtain ⟨-, hcauses, -⟩ := Part.settle_trouble s.part (f s.part)
  have hlive := Mode.live_of_serving hm
  refine ⟨State.keepsBut_work hlive hkeeps, fun m hmn => ?_, ?_, ?_, ?_, fun hen => ?_, fun hh => ?_⟩ <;>
    simp only [Part.work_of_live hlive]
  · rw [Part.line_settle, hothers m hmn]
  · rw [Part.line_settle, hline]
  · rw [Part.settle_arbiter, harbiter, Part.moveLine_arbiter, decide_eq_true hmoves, Bool.or_true]
  · rw [Part.settle_points, hpoints]
  · rw [hcauses]
    exact hcause hen
  · rw [(Part.settle_entries s.part (f s.part)).logged, hlog hh]

/-- Settles O55: by the state of the line whose timer expires. -/
theorem loopLossPutsALineInFault : Obligations.LoopLossPutsALineInFault := by
  refine ⟨fun n present s => ⟨_, rfl, ⟨rfl, rfl, rfl, Part.setLine_keeps _ _ _⟩, fun m hmn => Part.line_setLine_ne hmn _ _,
    ?_, fun hsame => ?_, fun hne hm => ?_⟩, fun n k s hm hk => ⟨fun hlen hcur => ?_, fun hlen => ⟨fun hstate => ?_,
    fun c hstate hcall => ?_, fun hhook hcur => ?_, fun hstate hcur => ?_⟩⟩, fun n k s hm hstate hsense hk => ⟨fun hlen hcur => ?_,
    fun hlen => ?_⟩⟩
  · rw [Part.line_setLine]
    exact Line.setLoop_keeps _ _ _
  · rw [Line.setLoop_of_eq hsame, Part.setLine_self]
  · rw [Part.line_setLine, hm, Line.setLoop_of_ne hne]
    exact ⟨rfl, rfl, rfl⟩
  · exact ⟨_, rfl, State.work_idle hcur (Part.loopLossExpires_early hk hlen)⟩
  · have hexpires := (Part.loopLossExpires_of hk hlen).1 hstate
    have hmoves : (Line.become .fault none (s.part.line n)).state ≠ (s.part.line n).state := by
      rcases hstate with h | h <;> rw [h] <;> exact nofun
    obtain ⟨hkeeps, hothers, hline, hpending, hpoints, hcause, hlog⟩ := State.faultEntered_of
      (f := Part.loopLossExpires n) hm (hexpires.trans (Part.enterFault_eq n _)) hmoves
    refine ⟨_, rfl, hkeeps, hothers, by rw [hline]; rfl, by rw [hline]; rfl, by rw [hline]; rfl, by rw [hline]; rfl, ?_, hpending,
      by rw [hpoints], by rw [hpoints], hcause, hlog⟩
    have hfault := congrArg Line.state hline
    rw [Part.work_of_live (Mode.live_of_serving hm), Part.line_settle] at hfault
    rw [Part.work_of_live (Mode.live_of_serving hm)]
    exact Part.trouble_of_fault hfault
  · have hexpires := (Part.loopLossExpires_of hk hlen).2.1 c hstate hcall
    have hlive := Mode.live_of_serving hm
    have hout := s.part.handOutcome_keeps n c .noDialTone
    have hnow : (s.part.handOutcome n c (.failed .noDialTone)).now = s.part.now := by rw [Part.now, hout.time, Part.now]
    refine ⟨_, rfl, ?_⟩
    simp only [Part.work_of_live hlive, hexpires]
    generalize hp : s.part.handOutcome n c (.failed .noDialTone) = p at hout hnow
    have hlines : ∀ m, p.line m = s.part.line m := Part.line_of_lines hout.lines
    by_cases hdisable : (s.part.line n).disablePending = true
    · simp only [if_pos hdisable]
      have hmove := Part.moveLine_keeps n Line.disable p
      have hentries := Bus.keepsButEntries_trans (Part.moveLine_entries n Line.disable p)
        (Part.settle_entries s.part (p.moveLine n Line.disable))
      obtain ⟨-, hcauses, -⟩ := Part.settle_trouble s.part (p.moveLine n Line.disable)
      refine ⟨⟨rfl, rfl, rfl, ?_⟩, fun m hmn => ?_, ?_, ?_, ?_, ?_, State.failureCounted_of ?_ ?_ ?_ fun i hi => ?_⟩
      · exact Part.keepsBut_trans (Part.keepsBut_trans (Part.keepsBut_mono hout (by simp)) (Part.keepsBut_mono hmove (by simp)))
          (Part.keepsBut_mono (Part.settle_keeps _ _) (by simp))
      · rw [Part.line_settle, Part.line_moveLine_ne hmn, hlines]
      · rw [Part.line_settle, Part.line_moveLine]
        rfl
      · rw [Part.seize, Part.line_settle, Part.line_moveLine]
        rfl
      · rw [Part.line_settle, Part.line_moveLine]
        rfl
      · rw [Part.line_settle, Part.line_moveLine]
        rfl
      · rw [hp, Part.settle_queue, Part.moveLine_queue]
      · rw [hp, Part.settle_points, hmove.points, List.append_nil]
      · rw [hp]
        exact fun _ _ => by rw [hentries.logged, List.append_nil]
      · rw [hcauses, Part.moveLine_notice]
        rwa [hp] at hi
    · simp only [if_neg hdisable]
      obtain ⟨hkeeps, hothers, hline, -, hpoints, -, hlog⟩ := Part.faultChanges_spec (n := n) (g := Line.become .fault none)
        (kind := .lineFault) (sense := 1) (active := true) (p := p) (by rw [hout.mode]; exact hm)
      rw [← Part.enterFault_eq] at hkeeps hothers hline hpoints hlog
      obtain ⟨-, hcauses, -⟩ := Part.settle_trouble s.part (p.enterFault n)
      refine ⟨⟨rfl, rfl, rfl, ?_⟩, fun m hmn => ?_, ?_, ?_, ?_, State.failureCounted_of ?_ ?_ ?_ fun i hi => ?_⟩
      · exact Part.keepsBut_trans (Part.keepsBut_trans (Part.keepsBut_mono hout (by simp)) (Part.keepsBut_mono hkeeps (by simp)))
          (Part.keepsBut_mono (Part.settle_keeps _ _) (by simp))
      · rw [Part.line_settle, hothers m hmn, hlines]
      · rw [Part.line_settle, hline]
        rfl
      · rw [Part.seize, Part.line_settle, hline]
        rfl
      · rw [Part.line_settle, hline]
        rfl
      · rw [hp, Part.settle_queue, hkeeps.queue]
      · rw [hp, Part.settle_points, hpoints]
      · rw [hp]
        refine fun _ hh => ?_
        rw [(Part.settle_entries s.part (p.enterFault n)).logged, hlog hh]
        simp only [Part.lineLog, hnow]
      · rw [hcauses, Part.enterFault_eq]
        exact Part.faultChanges_causes (by rwa [hp] at hi)
  · exact ⟨_, rfl, State.work_idle hcur ((Part.loopLossExpires_of hk hlen).2.2.2 hhook)⟩
  · have hexpires := (Part.loopLossExpires_of hk hlen).2.2.1 hstate
    have hsettle := Part.settle_setLine (n := n) (l := { s.part.line n with lossExpired := true }) hcur rfl
    refine ⟨_, rfl, ⟨rfl, rfl, rfl, ?_⟩, fun m hmn => ?_, ?_⟩ <;>
      simp only [Part.work_of_live (Mode.live_of_serving hm), hexpires, hsettle]
    · exact Part.setLine_keeps _ _ _
    · exact Part.line_setLine_ne hmn _ _
    · exact Part.line_setLine _ _ _
  · refine ⟨_, rfl, State.work_idle hcur (if_neg ?_)⟩
    simp [hk, reached_some, Config.presenceMs, hlen]
  · have hmoves : ((s.part.line n).become (s.part.line n).bySense none).state ≠ (s.part.line n).state := by
      rw [hstate]
      show (s.part.line n).bySense ≠ .fault
      unfold Line.bySense
      split <;> exact nofun
    obtain ⟨hkeeps, hothers, hline, hpending, hpoints, hcause, hlog⟩ := State.faultEntered_of
      (f := fun p => if (p.line n).state = .fault ∧ (p.line n).loopSense ∧ reached (p.line n).presence Config.presenceMs then
        p.leaveFault n else p) hm ((if_pos ⟨hstate, hsense, by simpa [hk, reached_some] using hlen⟩).trans (Part.leaveFault_eq n _))
      hmoves
    refine ⟨_, rfl, hkeeps, hothers, by rw [hline]; rfl, ?_, hpending, by rw [hpoints], hcause, hlog⟩
    rw [hline]
    unfold Line.become Line.bySense
    split <;> rfl

end Sys2Proof.Machine
end

section
/-! PROOFS. The bursts of a call and the delivery of its reports (R12, R77, R94, R95, R143 to R148; log 11). -/

namespace Sys2Proof.Machine

/-! ### One piece of work that enters several addresses -/

/-- The owners of the addresses of a delivery wait as before. -/
def Bus.sameWaiters (b c : Bus) : Prop := ∀ o ∈ ([.reportQueue, .routeBlock, .pointEngine] : List Owner),
  c.wbWait.filter (·.owner = o) = b.wbWait.filter (·.owner = o)

theorem Bus.sameWaiters_refl (b : Bus) : b.sameWaiters b := fun _ _ => rfl

theorem Bus.sameWaiters.trans {b c d : Bus} (h : b.sameWaiters c) (k : c.sameWaiters d) : b.sameWaiters d :=
  fun o ho => (k o ho).trans (h o ho)

/-- An owner that enters an address leaves the other owners waiting as before. -/
theorem Part.enter_waiters_ne {o a : Owner} (hne : a ≠ o) (off : Nat) (p : Part) :
    (p.enter a off).bus.wbWait.filter (·.owner = o) = p.bus.wbWait.filter (·.owner = o) := by
  unfold Part.enter
  split
  · rfl
  split
  · rw [List.filter_map]
    have hsame : ∀ w : Waiter, ((fun w : Waiter => decide (w.owner = o)) ∘ fun w : Waiter =>
        if w.owner = a ∧ w.first ≠ off ∧ off ∉ w.later then { w with later := w.later ++ [off] } else w) w =
        decide (w.owner = o) := fun w => by
      simp only [Function.comp_apply]
      split <;> rfl
    rw [List.filter_congr fun w _ => hsame w]
    refine (List.map_congr_left fun w hw => if_neg fun hchanged => hne ?_).trans (List.map_id' _)
    rw [← hchanged.1]
    exact of_decide_eq_true (List.mem_filter.mp hw).2
  split
  · rfl
  · rw [List.filter_append]
    simp [hne]

theorem Part.raise_sameWaiters (c : Cause) (p : Part) : p.bus.sameWaiters (p.raise c).bus := by
  intro o ho
  unfold Part.raise
  split
  · exact Part.enter_waiters_ne (by rintro rfl; simp at ho) _ { p with notice := { p.notice with causes := p.notice.causes ||| c.bits } }
  · rfl

theorem Part.settle_sameWaiters (old p : Part) : p.bus.sameWaiters (Part.settle old p).bus := by
  intro o ho
  unfold Part.settle
  simp only
  split
  · rw [Part.retrouble_bus]
  · rw [Part.enter_waiters_ne (by rintro rfl; simp at ho), Part.retrouble_bus]

/-- A piece of work goes on: at most `k` addresses have been entered, and of the addresses `offs` some are left for later. -/
structure Part.pieceOn (k : Nat) (offs : List Nat) (e f : Part × List Nat) : Prop where
  keeps : e.1.keepsBut [.bus, .notice, .routes] f.1
  entries : e.1.bus.keepsButEntries f.1.bus
  notice : f.1.notice = { e.1.notice with causes := f.1.notice.causes }
  causes : ∀ i, e.1.notice.causes.getLsbD i = true → f.1.notice.causes.getLsbD i = true
  words : ∃ ws ⊆ offs, f.2 = e.2 ++ ws
  waiters : e.1.bus.sameWaiters f.1.bus
  room : e.1.mode.live = true → e.2 = [] → e.1.bus.wbWait = [] → e.1.bus.wbq.length + k ≤ Config.writeBackPlaces →
    f.2 = [] ∧ f.1.bus.wbWait = [] ∧ f.1.bus.wbq.length ≤ e.1.bus.wbq.length + k

theorem Part.pieceOn_refl (k : Nat) (e : Part × List Nat) : Part.pieceOn k [] e e :=
  ⟨Part.keepsBut_refl _ e.1, Bus.keepsButEntries_refl _, rfl, fun _ => id, ⟨[], by simp⟩, Bus.sameWaiters_refl _,
    fun _ he hw _ => ⟨he, hw, by omega⟩⟩

theorem Part.pieceOn.trans {k l : Nat} {offs offs' : List Nat} {e f g : Part × List Nat} (h : Part.pieceOn k offs e f)
    (i : Part.pieceOn l offs' f g) : Part.pieceOn (k + l) (offs ++ offs') e g := by
  obtain ⟨ws, hws, hf⟩ := h.words
  obtain ⟨ws', hws', hg⟩ := i.words
  refine ⟨Part.keepsBut_trans h.keeps i.keeps, Bus.keepsButEntries_trans h.entries i.entries,
    i.notice.trans (by rw [h.notice]), fun j hj => i.causes j (h.causes j hj), ⟨ws ++ ws', ?_, ?_⟩, h.waiters.trans i.waiters,
    fun hm he hwait hroom => ?_⟩
  · exact List.append_subset.mpr ⟨List.Subset.trans hws (List.subset_append_left _ _), List.Subset.trans hws' (List.subset_append_right _ _)⟩
  · rw [hg, hf, List.append_assoc]
  · obtain ⟨he', hwait', hlen⟩ := h.room hm he hwait (by omega)
    obtain ⟨he'', hwait'', hlen'⟩ := i.room (by rw [h.keeps.mode]; exact hm) he' hwait' (by omega)
    exact ⟨he'', hwait'', by omega⟩

theorem Part.pieceOn.mono {k : Nat} {offs offs' : List Nat} {e f : Part × List Nat} (h : Part.pieceOn k offs e f)
    (hs : offs ⊆ offs') : Part.pieceOn k offs' e f := by
  obtain ⟨ws, hws, hf⟩ := h.words
  exact ⟨h.keeps, h.entries, h.notice, h.causes, ⟨ws, List.Subset.trans hws hs, hf⟩, h.waiters, h.room⟩

/-- An address of the piece is there, or left for later. -/
theorem Part.pieceOn.there {k : Nat} {offs : List Nat} {e f : Part × List Nat} (h : Part.pieceOn k offs e f) {a : Nat}
    (ha : a ∈ e.2 ∨ a ∈ e.1.bus.wbq) : a ∈ f.2 ∨ a ∈ f.1.bus.wbq := by
  obtain ⟨ws, -, hf⟩ := h.words
  exact ha.imp (fun ha => by rw [hf]; exact List.mem_append_left _ ha) fun ha => h.entries.2.2.2.2.2.subset ha

theorem Part.enterNext_pieceOn {e : Part × List Nat} (hm : e.1.mode.live = true) (o : Owner) (off : Nat) :
    Part.pieceOn 1 [off] e (Part.enterNext o off e) ∧
      (off ∈ (Part.enterNext o off e).2 ∨ off ∈ (Part.enterNext o off e).1.bus.wbq) ∧
      (e.2 ≠ [] → off ∈ (Part.enterNext o off e).2) := by
  unfold Part.enterNext
  by_cases hfits : (e.2.isEmpty && e.1.fits off) = true
  · rw [if_pos hfits]
    have hkeeps := Part.enter_keeps o off e.1
    obtain ⟨hempty, hfit⟩ : e.2 = [] ∧ e.1.fits off = true := by simpa using hfits
    have hentered : (e.1.enter o off).bus.wbWait = e.1.bus.wbWait ∧ off ∈ (e.1.enter o off).bus.wbq := by
      by_cases hthere : off ∈ e.1.bus.wbq
      · rw [Part.enter_present hthere]
        exact ⟨rfl, hthere⟩
      · obtain ⟨hwait, hroom⟩ : e.1.bus.wbWait = [] ∧ e.1.bus.wbq.length < Config.writeBackPlaces := by
          simpa [Part.fits, hthere] using hfit
        obtain ⟨hmem, hwait', -⟩ := Part.enter_room hm hwait hroom o off
        exact ⟨hwait'.trans hwait.symm, hmem⟩
    refine ⟨⟨Part.keepsBut_mono hkeeps (by simp), Part.enter_entries o off e.1, by rw [hkeeps.notice],
      fun i hi => by rw [hkeeps.notice]; exact hi, ⟨[], by simp⟩, fun a _ => by rw [hentered.1], fun _ he hwait hroom => ?_⟩,
      .inr hentered.2, fun he => absurd hempty he⟩
    exact ⟨he, hentered.1.trans hwait, (Part.enter_room hm hwait (by omega) o off).2.2.2⟩
  · rw [if_neg hfits]
    refine ⟨⟨Part.keepsBut_refl _ e.1, Bus.keepsButEntries_refl _, rfl, fun _ => id, ⟨[off], by simp⟩, Bus.sameWaiters_refl _,
      fun _ he hwait hroom => absurd ?_ hfits⟩, .inl (by simp), fun _ => by simp⟩
    have hlen : e.1.bus.wbq.length < Config.writeBackPlaces := by omega
    simp [he, Part.fits, hwait, hlen]

theorem Part.raise_pieceOn (c : Cause) (e : Part × List Nat) : Part.pieceOn 1 [] e (e.1.raise c, e.2) := by
  have hkeeps := Part.raise_keeps c e.1
  refine ⟨Part.keepsBut_mono hkeeps (by simp), Part.raise_entries c e.1, (Part.raise_notice c e.1).trans (by rw [Part.raise_notice]),
    (Part.raise_makes c e.1).causes, ⟨[], by simp⟩, Part.raise_sameWaiters c e.1, fun hm he hwait hroom => ?_⟩
  unfold Part.raise
  split
  · obtain ⟨-, hwait', -, hlen⟩ := Part.enter_room
      (p := { e.1 with notice := { e.1.notice with causes := e.1.notice.causes ||| c.bits } }) hm hwait (by simp only; omega)
      .noticeUnit 0x013
    exact ⟨he, hwait', hlen⟩
  · exact ⟨he, hwait, by simp only; omega⟩

theorem Part.setRoute_pieceOn (r : RouteNo) (v : Route) (e : Part × List Nat) : Part.pieceOn 0 [] e (e.1.setRoute r v, e.2) :=
  ⟨Part.keepsBut_mono (Part.setRoute_keeps r v e.1) (by simp), Bus.keepsButEntries_refl _, rfl, fun _ => id, ⟨[], by simp⟩,
    Bus.sameWaiters_refl _, fun _ he hw _ => ⟨he, hw, by simp [Part.setRoute]⟩⟩

/-! ### A delivery -/

/-- An address entered where its word has changed. -/
def Part.enterChanged (changed : Bool) (off : Nat) (e : Part × List Nat) : Part × List Nat :=
  if changed then Part.enterNext .routeBlock off e else e

/-- A cause asked for where it is wanted. -/
def Part.raiseWanted (wanted : Bool) (c : Cause) (e : Part × List Nat) : Part × List Nat :=
  if wanted then (e.1.raise c, e.2) else e

theorem Part.enterChanged_spec {e : Part × List Nat} (hm : e.1.mode.live = true) (changed : Bool) (off : Nat) :
    let f := Part.enterChanged changed off e
    Part.pieceOn 1 [off] e f ∧ f.1.routes = e.1.routes ∧ (changed = true →
      (off ∈ f.2 ∨ off ∈ f.1.bus.wbq) ∧ (e.2 ≠ [] → off ∈ f.2)) := by
  cases changed with
  | false => exact ⟨(Part.pieceOn_refl 1 e).mono (by simp), rfl, fun h => absurd h (by simp)⟩
  | true =>
    obtain ⟨hpiece, hthere, hleft⟩ := Part.enterNext_pieceOn hm .routeBlock off
    exact ⟨hpiece, Part.enterNext_routes .., fun _ => ⟨hthere, hleft⟩⟩

theorem Part.raiseWanted_spec (wanted : Bool) (c : Cause) (e : Part × List Nat) :
    let f := Part.raiseWanted wanted c e
    Part.pieceOn 1 [] e f ∧ f.1.routes = e.1.routes ∧ (wanted = true → e.1.causeSet c f.1) := by
  cases wanted with
  | false => exact ⟨Part.pieceOn_refl 1 e, rfl, fun h => absurd h (by simp)⟩
  | true => exact ⟨Part.raise_pieceOn c e, (Part.raise_keeps c e.1).routes, fun _ => Part.raise_causeSet c e.1⟩

theorem Part.countDelivery_eq (r : RouteNo) (leg : Leg) (e : Part × List Nat) :
    Part.countDelivery r leg e =
      let v := e.1.route r
      let v' := v.afterDelivery leg
      Part.raiseWanted (e.1.notifyDelivery r) .delivered
        (Part.enterChanged (decide (v'.w3 ≠ v.w3)) (routeOffset r.val 3)
          (Part.raiseWanted (v.budget = 1 && e.1.notifyBudget r) .budget
            (Part.enterChanged (decide (v'.budget ≠ v.budget)) (routeOffset r.val 2) (e.1.setRoute r v', e.2)))) := by
  simp only [Part.enterChanged, Part.raiseWanted, decide_eq_true_eq, ne_eq, ite_not]
  rfl

/-- A cause that a later part of the same work finds set. -/
theorem Part.causeSet_pieceOn {k : Nat} {offs : List Nat} {p : Part} {c : Cause} {e f : Part × List Nat}
    (h : p.causeSet c e.1) (i : Part.pieceOn k offs e f) : p.causeSet c f.1 := fun hen => i.causes _ (h hen)

theorem Part.causeSet_of_pieceOn {k : Nat} {offs : List Nat} {p : Part} {c : Cause} {e f : Part × List Nat}
    (i : Part.pieceOn k offs e f) (h : f.1.causeSet c p) : e.1.causeSet c p := fun hen =>
  h (by rw [Part.causeEnable, Part.mirror_of_mirrors i.keeps.mirrors]; exact hen)

/-- The Route Block takes a delivery (R94, R95). -/
theorem Part.countDelivery_spec {e : Part × List Nat} (hm : e.1.mode.live = true) (r : RouteNo) (leg : Leg) :
    let v := e.1.route r
    let v' := v.afterDelivery leg
    let f := Part.countDelivery r leg e
    Part.pieceOn 4 [routeOffset r.val 2, routeOffset r.val 3] e f ∧
      (e.2 = [] → e.1.bus.wbWait = [] → e.1.bus.wbq.length + 3 ≤ Config.writeBackPlaces → f.2 = []) ∧
      f.1.routes = (e.1.setRoute r v').routes ∧
      (v'.budget ≠ v.budget →
        (e.2 ≠ [] → routeOffset r.val 2 ∈ f.2) ∧ (routeOffset r.val 2 ∈ f.2 ∨ routeOffset r.val 2 ∈ f.1.bus.wbq)) ∧
      (v'.w3 ≠ v.w3 → routeOffset r.val 3 ∈ f.2 ∨ routeOffset r.val 3 ∈ f.1.bus.wbq) ∧
      (e.1.notifyDelivery r = true → e.1.causeSet .delivered f.1) ∧
      (v.budget = 1 → e.1.notifyBudget r = true → e.1.causeSet .budget f.1) := by
  simp only [Part.countDelivery_eq]
  have h₁ := Part.setRoute_pieceOn r ((e.1.route r).afterDelivery leg) e
  generalize he₁ : (e.1.setRoute r ((e.1.route r).afterDelivery leg), e.2) = e₁ at h₁ ⊢
  have hroutes : (e.1.setRoute r ((e.1.route r).afterDelivery leg)).routes = e₁.1.routes := by rw [← he₁]
  have hleft : e₁.2 = e.2 := by rw [← he₁]
  obtain ⟨h₂, hroutes₂, hbudget⟩ := Part.enterChanged_spec (e := e₁) (by rw [h₁.keeps.mode]; exact hm)
    (decide (((e.1.route r).afterDelivery leg).budget ≠ (e.1.route r).budget)) (routeOffset r.val 2)
  generalize Part.enterChanged _ _ e₁ = e₂ at h₂ hroutes₂ hbudget ⊢
  obtain ⟨h₃, hroutes₃, hraised⟩ := Part.raiseWanted_spec ((e.1.route r).budget = 1 && e.1.notifyBudget r) .budget e₂
  generalize Part.raiseWanted _ _ e₂ = e₃ at h₃ hroutes₃ hraised ⊢
  have h₁₃ := (h₁.trans h₂).trans h₃
  obtain ⟨h₄, hroutes₄, hflags⟩ := Part.enterChanged_spec (e := e₃) (by rw [h₁₃.keeps.mode]; exact hm)
    (decide (((e.1.route r).afterDelivery leg).w3 ≠ (e.1.route r).w3)) (routeOffset r.val 3)
  generalize Part.enterChanged _ _ e₃ = e₄ at h₄ hroutes₄ hflags ⊢
  obtain ⟨h₅, hroutes₅, hdelivered⟩ := Part.raiseWanted_spec (e.1.notifyDelivery r) .delivered e₄
  generalize Part.raiseWanted _ _ e₄ = f at h₅ hroutes₅ hdelivered ⊢
  have h₁₄ := h₁₃.trans h₄
  have h₃₅ := h₄.trans h₅
  refine ⟨(h₁₄.trans h₅).mono (by simp), fun he hwait hroom => ?_, ?_, fun hchanged => ⟨fun he => ?_, ?_⟩, fun hchanged => ?_,
    fun hwanted => ?_, fun hone hwanted => ?_⟩
  · obtain ⟨ws, hws, hf⟩ := h₅.words
    rw [hf, List.subset_nil.mp hws, List.append_nil]
    exact (h₁₄.room hm he hwait hroom).1
  · rw [hroutes, hroutes₅, hroutes₄, hroutes₃, hroutes₂]
  · obtain ⟨-, hin⟩ := hbudget (decide_eq_true hchanged)
    obtain ⟨ws, -, hf⟩ := (h₃.trans h₃₅).words
    rw [hf]
    exact List.mem_append_left _ (hin (by rw [hleft]; exact he))
  · exact (h₃.trans h₃₅).there (hbudget (decide_eq_true hchanged)).1
  · exact h₅.there (hflags (decide_eq_true hchanged)).1
  · exact Part.causeSet_of_pieceOn h₁₄ (hdelivered hwanted)
  · exact Part.causeSet_pieceOn (Part.causeSet_of_pieceOn (h₁.trans h₂) (hraised (by simp [hone, hwanted]))) h₃₅

theorem Queue.sound.filter_id_ne {q : Queue} (h : q.sound) {r : Record} (hr : r ∈ q.records) :
    q.records.filter (·.id ≠ r.id) = q.records.filter fun y => decide (y ≠ r) :=
  List.filter_congr fun _ hy => decide_eq_decide.mpr
    (not_congr ⟨fun hid => h.eq_of_id_eq hy hr hid, fun heq => congrArg Record.id heq⟩)

/-- The addresses of a delivery that wait with its notice (log 11). -/
def Part.leavesWords (r : Record) (words : List Nat) (p q : Part) : Prop :=
  let v := p.route r.route
  (∀ a ∈ words, a = 0x019 ∨ a = routeOffset r.route.val 2 ∨ a = routeOffset r.route.val 3) ∧
    (0x019 ∈ words ∨ 0x019 ∈ q.bus.wbq) ∧
    (0x019 ∈ words → v.budget ≠ 0 → routeOffset r.route.val 2 ∈ words) ∧
    p.bus.sameWaiters q.bus ∧
    (p.bus.wbWait = [] → p.bus.wbq.length + 4 ≤ Config.writeBackPlaces → words = []) ∧
    (v.budget ≠ 0 → routeOffset r.route.val 2 ∈ words ∨ routeOffset r.route.val 2 ∈ q.bus.wbq) ∧
    ((v.afterDelivery r.leg).w3 ≠ v.w3 → routeOffset r.route.val 3 ∈ words ∨ routeOffset r.route.val 3 ∈ q.bus.wbq)

theorem Part.leavesWords_trans {r : Record} {words : List Nat} {p q q' : Part} (h : p.leavesWords r words q)
    (hwaiters : q.bus.sameWaiters q'.bus) (hwbq : q.bus.wbq ⊆ q'.bus.wbq) : p.leavesWords r words q' := by
  obtain ⟨hall, hoccupancy, hfirst, hsame, hroom, hbudget, hflags⟩ := h
  exact ⟨hall, hoccupancy.imp_right fun ha => hwbq ha, hfirst, hsame.trans hwaiters, hroom,
    fun hv => (hbudget hv).imp_right fun ha => hwbq ha, fun hv => (hflags hv).imp_right fun ha => hwbq ha⟩

/-- A record delivered leaves the queue and its route counts the delivery (R63, R77, R94, R95). -/
def Part.counted (r : Record) (p : Part) : Part × List Nat :=
  Part.countDelivery r.route r.leg (p.removeDelivered r.id)

theorem Part.counted_spec {p : Part} (hm : p.mode.live = true) (hs : p.queue.sound) {r : Record} (hr : r ∈ p.queue.records) :
    let e := p.counted r
    p.keepsBut [.bus, .notice, .queue, .routes] e.1 ∧ p.bus.keepsButEntries e.1.bus ∧
      e.1.notice = { p.notice with causes := e.1.notice.causes } ∧
      e.1.queue = { p.queue with records := p.queue.records.filter fun y => decide (y ≠ r) } ∧
      e.1.routes = (p.setRoute r.route ((p.route r.route).afterDelivery r.leg)).routes ∧
      p.leavesWords r e.2 e.1 ∧ (p.notifyDelivery r.route = true → p.causeSet .delivered e.1) ∧
      ((p.route r.route).budget = 1 → p.notifyBudget r.route = true → p.causeSet .budget e.1) := by
  obtain ⟨h₁, hthere, -⟩ := Part.enterNext_pieceOn (e := (p.withRecords (p.queue.records.filter (·.id ≠ r.id)), [])) hm
    .reportQueue 0x019
  have hqueue : (p.removeDelivered r.id).1.queue =
      { p.queue with records := p.queue.records.filter fun y => decide (y ≠ r) } := by
    rw [← hs.filter_id_ne hr, Part.removeDelivered, Part.enterNext_queue]
    rfl
  have hroutes : (p.removeDelivered r.id).1.routes = p.routes := by
    rw [Part.removeDelivered, Part.enterNext_routes]
    rfl
  have hroute : (p.removeDelivered r.id).1.route r.route = p.route r.route := by rw [Part.route, hroutes, Part.route]
  have hmirror : ∀ a, (p.removeDelivered r.id).1.mirror a = p.mirror a :=
    Part.mirror_of_mirrors (p := p) (by rw [Part.removeDelivered, Part.enterNext_mirrors]; rfl)
  change Part.pieceOn 1 [0x019] _ (p.removeDelivered r.id) at h₁
  change 0x019 ∈ (p.removeDelivered r.id).2 ∨ 0x019 ∈ (p.removeDelivered r.id).1.bus.wbq at hthere
  obtain ⟨h₂, hempty, hroutes₂, hbudget, hflags, hdelivered, hspent⟩ :=
    Part.countDelivery_spec (e := p.removeDelivered r.id) (by rw [h₁.keeps.mode]; exact hm) r.route r.leg
  have hqueue₂ := Part.countDelivery_queue r.route r.leg (p.removeDelivered r.id)
  have hsetRoute : ((p.removeDelivered r.id).1.setRoute r.route ((p.route r.route).afterDelivery r.leg)).routes =
      (p.setRoute r.route ((p.route r.route).afterDelivery r.leg)).routes := by
    rw [Part.setRoute, hroutes, Part.setRoute]
  rw [hroute] at hroutes₂ hbudget hflags hspent
  rw [hqueue] at hqueue₂
  rw [hsetRoute] at hroutes₂
  rw [Part.notifyDelivery, hmirror, ← Part.notifyDelivery] at hdelivered
  rw [Part.notifyBudget, hmirror, ← Part.notifyBudget] at hspent
  have hbudget' : (p.route r.route).budget ≠ 0 →
      ((p.route r.route).afterDelivery r.leg).budget ≠ (p.route r.route).budget := fun hv heq => by
    simp only [Route.afterDelivery] at heq
    omega
  have hkeeps₀ : p.keepsBut [.queue] (p.withRecords (p.queue.records.filter (·.id ≠ r.id))) := fun b hb => by
    cases b <;> simp [Block.same, Part.withRecords] at hb ⊢
  have hcauseSet : ∀ c, (p.removeDelivered r.id).1.causeSet c (p.counted r).1 → p.causeSet c (p.counted r).1 :=
    fun c hc hen => Part.causeSet_of_pieceOn h₁ hc hen
  simp only [Part.counted] at hcauseSet ⊢
  generalize p.removeDelivered r.id = e at *
  generalize Part.countDelivery r.route r.leg e = f at *
  have h := h₁.trans h₂
  obtain ⟨ws, hws, hwords⟩ := h.words
  obtain ⟨ws₂, hws₂, hwords₂⟩ := h₂.words
  have hfirst : 0x019 ∈ f.2 → e.2 ≠ [] := fun hleft hnone => by
    rw [hwords₂, hnone, List.nil_append] at hleft
    have hin := hws₂ hleft
    simp only [List.mem_cons, List.not_mem_nil, or_false, routeOffset] at hin
    omega
  have hroom : p.bus.wbWait = [] → p.bus.wbq.length + 4 ≤ Config.writeBackPlaces → f.2 = [] := fun hwait hroom => by
    obtain ⟨hnone, hwait', hlen⟩ := h₁.room hm rfl hwait (by simp only [Part.withRecords]; omega)
    simp only [Part.withRecords] at hlen
    exact hempty hnone hwait' (by omega)
  have hleaves : p.leavesWords r f.2 f.1 :=
    ⟨fun a ha => by rw [hwords] at ha; simpa using hws ha, h₂.there hthere, fun hleft hv => (hbudget (hbudget' hv)).1 (hfirst hleft),
      h.waiters, hroom, fun hv => (hbudget (hbudget' hv)).2, hflags⟩
  exact ⟨Part.keepsBut_trans (Part.keepsBut_mono hkeeps₀ (by simp)) (Part.keepsBut_mono h.keeps (by simp)), h.entries, h.notice,
    hqueue₂, hroutes₂, hleaves, fun hwanted => hcauseSet _ (hdelivered hwanted),
    fun hone hwanted => hcauseSet _ (hspent hone hwanted)⟩

theorem Part.makeLog_writeBack (l : LogRecord) (p : Part) :
    (p.makeLog l).bus.wbWait = p.bus.wbWait ∧ (p.makeLog l).bus.wbq = p.bus.wbq := by
  unfold Part.makeLog Part.stage
  split
  · split <;> exact ⟨rfl, rfl⟩
  · exact ⟨rfl, rfl⟩

/-- The log record of a delivery (R85). -/
def Record.deliveredLog (n : LineNo) (d : DestNo) (r : Record) : LogRecord :=
  LogRecord.ofCall n d { r.log .delivered with attempts := BitVec.ofNat 4 (r.attempts + 1) }

theorem Part.deliver_eq {p : Part} (hs : p.queue.sound) {r : Record} (hr : r ∈ p.queue.records) (n : LineNo) (d : DestNo) :
    p.deliver n d r.slot = (((p.counted r).1.tell (.delivery r.point r.sense.code r.code (BitVec.ofNat 4 r.fold)
      (p.counted r).2)).logNow (r.deliveredLog n d)).occasion := by
  simp only [Part.deliver, hs.inSlot_eq hr]
  rfl

/-- A SENDING record is delivered (R77). -/
theorem Part.deliver_spec {p : Part} (hm : p.mode.live = true) (hs : p.queue.sound) {r : Record} (hr : r ∈ p.queue.records)
    (n : LineNo) (d : DestNo) :
    let q := p.deliver n d r.slot
    p.keepsBut [.bus, .notice, .points, .queue, .routes, .arbiter] q ∧
      q.queue = { p.queue with records := p.queue.records.filter fun y => decide (y ≠ r) } ∧
      q.routes = (p.setRoute r.route ((p.route r.route).afterDelivery r.leg)).routes ∧
      (∃ words, q.points.work = p.points.work ++ [.delivery r.point r.sense.code r.code (BitVec.ofNat 4 r.fold) words] ∧
        p.leavesWords r words q) ∧ q.arbiter.decisionPending = true ∧
      (p.notifyDelivery r.route = true → p.causeSet .delivered q) ∧
      ((p.route r.route).budget = 1 → p.notifyBudget r.route = true → p.causeSet .budget q) ∧
      p.logsMade [(r.deliveredLog n d).stamp p.now] q := by
  obtain ⟨hkeeps, hentries, hnotice, hqueue, hroutes, hleaves, hdelivered, hspent⟩ := Part.counted_spec hm hs hr
  simp only [Part.deliver_eq hs hr]
  generalize p.counted r = e at *
  have hmakes := ((Part.tell_makes (.delivery r.point r.sense.code r.code (BitVec.ofNat 4 r.fold) e.2) e.1).trans
    (Part.logNow_makes (r.deliveredLog n d) _)).trans (Part.occasion_makes _)
  have hlogKeeps := Part.logNow_keeps (r.deliveredLog n d)
    (e.1.tell (.delivery r.point r.sense.code r.code (BitVec.ofNat 4 r.fold) e.2))
  obtain ⟨hwait, hwbq⟩ := Part.makeLog_writeBack ((r.deliveredLog n d).stamp e.1.now)
    (e.1.tell (.delivery r.point r.sense.code r.code (BitVec.ofNat 4 r.fold) e.2))
  have hheads : e.1.notice.heads = p.notice.heads := by rw [hnotice]
  refine ⟨Part.keepsBut_trans (Part.keepsBut_mono hkeeps (by simp)) (Part.keepsBut_mono hmakes.keeps (by simp)), ?_, ?_, ⟨e.2, ?_, ?_⟩,
    rfl, fun hwanted => (hdelivered hwanted).trans_makes hmakes, fun hone hwanted => (hspent hone hwanted).trans_makes hmakes,
    fun hserving hh => ?_⟩
  · rw [Part.occasion_queue, hlogKeeps.queue]
    exact hqueue
  · rw [Part.occasion_routes, hlogKeeps.routes]
    exact hroutes
  · rw [hmakes.points, hkeeps.points]
    rfl
  · exact Part.leavesWords_trans hleaves (fun o _ => congrArg (List.filter _) hwait)
      (fun a ha => by rw [Part.occasion_bus, Part.logNow]; exact hwbq ▸ ha)
  · have hlog := hmakes.logged (by rw [hkeeps.mode]; exact hserving) (by rw [hheads]; exact hh)
    rw [hlog, hentries.logged, Part.now, Part.tell_time, hkeeps.time]
    rfl

/-! ### Sendings -/

theorem Part.unanswered_again {p : Part} {n : LineNo} {c : Call} (hcall : (p.line n).call = some c) (hsends : c.sends < 3) :
    p.unanswered n = p.setLine n (p.line n).turnaround := by
  simp only [Part.unanswered, hcall]
  exact if_pos hsends

/-- The end of the turnaround: the end symbol, the same report again, or the next report (R144, R148). -/
theorem Part.turnaroundEnds_ends {p : Part} {n : LineNo} {c : Call} (hcall : (p.line n).call = some c) (hcurrent : c.current = none)
    (hdelivered : c.delivered = c.reports.length) : p.turnaroundEnds n =
      p.setLine n ((p.line n).send endSymbols fun c => { c with phase := .ending, endMark := true }) := by
  have hnone : c.reports[c.delivered]? = none := List.getElem?_eq_none (by omega)
  simp only [Part.turnaroundEnds, hcall, hcurrent, hnone]

theorem Part.turnaroundEnds_again {p : Part} {n : LineNo} {c : Call} {slot : SlotNo} (hcall : (p.line n).call = some c)
    (hcurrent : c.current = some slot) (hsends : c.sends < 3) : p.turnaroundEnds n =
      p.setLine n ((p.line n).send (p.burstOf c c.sequence slot) fun c => { c with phase := .sending, sends := c.sends + 1 }) := by
  simp only [Part.turnaroundEnds, hcall, hcurrent]
  exact if_pos hsends

theorem Part.turnaroundEnds_next {p : Part} {n : LineNo} {c : Call} {slot : SlotNo} (hcall : (p.line n).call = some c)
    (hcurrent : c.current = none) (hreport : c.reports[c.delivered]? = some slot) : p.turnaroundEnds n =
      (p.setLine n ((p.line n).send (p.burstOf c (c.delivered + 1) slot) fun c =>
        { c with phase := .sending, current := some slot, sequence := c.delivered + 1, sends := 1 })).markSending slot := by
  simp only [Part.turnaroundEnds, hcall, hcurrent, hreport]

/-- A record whose first sending begins (R76). -/
def Part.sendingMarked (r : Record) (p : Part) : Part :=
  Part.tell (.notice .assignment r.point) (p.changeRecord r.id fun r => { r with state := .sending })

theorem Part.markSending_of {p : Part} (hs : p.queue.sound) {r : Record} (hr : r ∈ p.queue.records)
    (hassigned : r.state = .assigned) : p.markSending r.slot = p.sendingMarked r := by
  simp only [Part.markSending, hs.inSlot_eq hr, hassigned, if_true]
  rfl

theorem Part.sendingMarked_spec {p : Part} (hs : p.queue.sound) {r : Record} (hr : r ∈ p.queue.records) :
    p.keepsBut [.bus, .points, .queue] (p.sendingMarked r) ∧ p.bus.keepsButEntries (p.sendingMarked r).bus ∧
      (p.sendingMarked r).lines = p.lines ∧
      (p.sendingMarked r).queue.records = p.queue.records.map (fun y => if y = r then { r with state := .sending } else y) ∧
      (p.sendingMarked r).points.work = p.points.work ++ [.notice .assignment r.point] := by
  have hchange := Part.changeRecord_keeps r.id (fun r => { r with state := .sending }) p
  refine ⟨Part.keepsBut_trans (Part.keepsBut_mono hchange (by simp)) (Part.keepsBut_mono (Part.tell_keeps _ _) (by simp)),
    Part.changeRecord_entries _ _ p, hchange.lines, ?_, ?_⟩
  · exact congrArg Queue.records (Part.changeRecord_of_mem hs hr fun r => { r with state := .sending })
  · rw [Part.sendingMarked, Part.tell_work, hchange.points]

theorem Part.acknowledge_of {p : Part} {n : LineNo} {c : Call} {slot : SlotNo} (hcall : (p.line n).call = some c)
    (hcurrent : c.current = some slot) : p.acknowledge n = (p.deliver n c.dest slot).setLine n
      (((p.deliver n c.dest slot).line n).onCall fun c =>
        { c with delivered := c.delivered + 1, current := none, sends := 0 }).turnaround := by
  simp only [Part.acknowledge, hcall, hcurrent]

/-- Settles O57: sendings by `State.lineStep_sets`, the acknowledgement by `Part.deliver_spec`. -/
theorem burstsAreSentAndAcknowledged : Obligations.BurstsAreSentAndAcknowledged := by
  intro n c s hserving hcall hstate
  have hm := Mode.live_of_serving hserving
  refine ⟨fun hphase => ?_, fun hphase htimer => ?_, fun hphase hsends => ?_, fun hphase hsends htimer hmeasuring => ?_,
    fun hphase hmeasuring hcur => ?_, fun hphase hcurrent hdelivered htimer => ?_, fun r hr hs => ⟨fun hphase hcurrent hsends htimer => ?_,
    fun hphase hcurrent hreport hassigned htimer => ?_, fun hphase hcurrent => ?_⟩⟩
  · obtain ⟨hstep, hline⟩ := State.lineStep_sets
      (f := Part.inPhaseDo n .handshake fun p => p.setLine n (p.line n).turnaround) hm
      (if_pos (Part.inPhase_of hstate hcall hphase))
    exact ⟨_, rfl, hstep, by rw [hline]; simp [Line.turnaround, Line.toPhase, Line.onCall, hcall]⟩
  · obtain ⟨hstep, hline⟩ := State.lineStep_sets (f := Part.afterPhaseDo n .sending (Part.openWindow n)) hm
      (Part.afterPhaseDo_of hstate hcall hphase htimer)
    exact ⟨_, rfl, hstep, by rw [hline]; simp [Line.toPhase, Line.onCall, hcall]⟩
  · obtain ⟨hstep, hline⟩ := State.lineStep_sets (f := Part.inPhaseDo n .window (Part.unanswered n)) (n := n)
      (l := (s.part.line n).turnaround) hm ((if_pos (Part.inPhase_of hstate hcall hphase)).trans (Part.unanswered_again hcall hsends))
    exact ⟨_, rfl, hstep, by rw [hline]; simp [Line.turnaround, Line.toPhase, Line.onCall, hcall]⟩
  · obtain ⟨hstep, hline⟩ := State.lineStep_sets (f := Part.afterPhaseDo n .window (Part.windowCloses n)) (n := n)
      (l := (s.part.line n).turnaround) hm ((Part.afterPhaseDo_of hstate hcall hphase htimer).trans
        ((if_neg (by simp [hmeasuring])).trans (Part.unanswered_again hcall hsends)))
    exact ⟨_, rfl, hstep, by rw [hline]; simp [Line.turnaround, Line.toPhase, Line.onCall, hcall]⟩
  · refine ⟨_, rfl, State.work_idle hcur ?_⟩
    unfold Part.afterPhaseDo Part.inPhaseDo Part.windowCloses
    simp [hmeasuring]
  · obtain ⟨hstep, hline⟩ := State.lineStep_sets (f := Part.afterPhaseDo n .turnaround (Part.turnaroundEnds n)) (n := n) hm
      ((Part.afterPhaseDo_of hstate hcall hphase htimer).trans (Part.turnaroundEnds_ends hcall hcurrent hdelivered))
    refine ⟨_, rfl, hstep, ?_, ?_, ?_, ?_⟩
    · obtain ⟨⟨⟨-, -, -, hkept⟩, -⟩, -⟩ := hstep
      exact hkept.queue
    · rw [hline]
      exact hstate
    · rw [hline]
      rfl
    · rw [hline]
      simp [Line.send, Line.onCall, hcall, endSymbols]
  · obtain ⟨hstep, hline⟩ := State.lineStep_sets (f := Part.afterPhaseDo n .turnaround (Part.turnaroundEnds n)) (n := n) hm
      ((Part.afterPhaseDo_of hstate hcall hphase htimer).trans (Part.turnaroundEnds_again hcall hcurrent hsends))
    rw [Part.burstOf, hs.inSlot_eq hr] at hline
    refine ⟨_, rfl, hstep, by rw [hline]; exact hstate, by rw [hline]; rfl, ?_⟩
    rw [hline]
    simp [Line.send, Line.onCall, hcall]
  · generalize hl : (s.part.line n).send (s.part.burstOf c (c.delivered + 1) r.slot) (fun c =>
      { c with phase := .sending, current := some r.slot, sequence := c.delivered + 1, sends := 1 }) = l
    have hmark := Part.markSending_of (p := s.part.setLine n l) hs hr hassigned
    obtain ⟨hkeeps, hentries, hlines, hqueue, hwork⟩ := Part.sendingMarked_spec (p := s.part.setLine n l) hs hr
    have hf : Part.afterPhaseDo n .turnaround (Part.turnaroundEnds n) s.part = (s.part.setLine n l).sendingMarked r := by
      rw [Part.afterPhaseDo_of hstate hcall hphase htimer, Part.turnaroundEnds_next hcall hcurrent hreport, hl, hmark]
    have hquiet := State.quietBut_work (f := Part.afterPhaseDo n .turnaround (Part.turnaroundEnds n)) (s := s)
      (bs := [.points, .queue, .lines]) hm
      (by rw [hf]; exact Part.keepsBut_trans (Part.keepsBut_mono (Part.setLine_keeps n l s.part) (by simp)) (Part.keepsBut_mono hkeeps (by simp)))
      (by rw [hf]; exact hentries) (by decide)
    refine ⟨_, rfl, hquiet, fun k hk => ?_, ?_, ?_, ?_, ?_⟩ <;> simp only [Part.work_of_live hm, hf]
    · rw [Part.line_settle, Part.line_of_lines hlines, Part.line_setLine_ne hk]
    · rw [Part.line_settle, Part.line_of_lines hlines, Part.line_setLine, ← hl, Part.burstOf, hs.inSlot_eq hr]
      rfl
    · rw [Part.line_settle, Part.line_of_lines hlines, Part.line_setLine, ← hl, Part.burstOf, hs.inSlot_eq hr]
      simp [Line.send, Line.onCall, hcall]
    · rw [Part.settle_queue, hqueue]
      rfl
    · rw [Part.settle_points, hwork]
      rfl
  · obtain ⟨hkeeps, hqueue, hroutes, ⟨words, hwork, hleaves⟩, hpending, hdelivered, hspent, hlog⟩ :=
      Part.deliver_spec hm hs hr n c.dest
    have hf : Part.inPhaseDo n .window (Part.acknowledge n) s.part = (s.part.deliver n c.dest r.slot).setLine n
        (((s.part.deliver n c.dest r.slot).line n).onCall fun c =>
          { c with delivered := c.delivered + 1, current := none, sends := 0 }).turnaround := by
      rw [Part.inPhaseDo, if_pos (Part.inPhase_of hstate hcall hphase), Part.acknowledge_of hcall hcurrent]
    have hlines : ∀ m, (s.part.deliver n c.dest r.slot).line m = s.part.line m := Part.line_of_lines hkeeps.lines
    rw [hlines] at hf
    generalize s.part.deliver n c.dest r.slot = q at *
    generalize hl : ((s.part.line n).onCall fun c =>
      { c with delivered := c.delivered + 1, current := none, sends := 0 }).turnaround = l at hf
    obtain ⟨-, hcauses, -⟩ := Part.settle_trouble s.part (q.setLine n l)
    have hentries := Part.settle_entries s.part (q.setLine n l)
    have hroute : ∀ k, (Part.settle s.part (q.setLine n l)).route k =
        (s.part.setRoute r.route ((s.part.route r.route).afterDelivery r.leg)).route k := fun k => by
      exact congrArg (fun v : Vector Route 16 => v[k]) ((Part.settle_routes _ _).trans hroutes)
    refine ⟨_, rfl, ⟨rfl, rfl, rfl, ?_⟩, fun m hmn => ?_, ?_, ?_, ⟨words, ?_, ?_⟩, fun k hk => ?_, ?_, ?_, fun hwanted hen => ?_,
      fun hone hwanted hen => ?_, fun hh => ?_⟩ <;> simp only [Part.work_of_live hm, hf]
    · exact Part.keepsBut_trans (Part.keepsBut_trans (Part.keepsBut_mono hkeeps (by simp))
        (Part.keepsBut_mono (Part.setLine_keeps n l q) (by simp))) (Part.keepsBut_mono (Part.settle_keeps _ _) (by simp))
    · rw [Part.line_settle, Part.line_setLine_ne hmn, hlines]
    · rw [Part.line_settle, Part.line_setLine, ← hl]
      simp [Line.turnaround, Line.toPhase, Line.onCall, hcall]
    · rw [Part.settle_queue]
      exact hqueue
    · rw [Part.settle_points]
      exact hwork
    · have hleft := Part.leavesWords_trans (q := q.setLine n l) hleaves (Part.settle_sameWaiters s.part _)
        hentries.2.2.2.2.2.subset
      obtain ⟨hall, hoccupancy, hfirst, hsame, hroom, hbudget, hflags⟩ := hleft
      exact ⟨hall, hoccupancy, hfirst, hsame, hroom, hbudget, by rwa [hroute, Part.route_setRoute]⟩
    · rw [hroute, Part.route_setRoute_ne hk]
    · rw [hroute, Part.route_setRoute]
      simp [Route.afterDelivery, beq_eq_decide]
    · rw [Part.settle_arbiter]
      exact hpending
    · rw [hcauses]
      exact hdelivered hwanted hen
    · rw [hcauses]
      exact hspent hone hwanted hen
    · rw [hentries.logged]
      exact hlog hserving hh

end Sys2Proof.Machine
end

section
/-! PROOFS. Offers answered: grants, preemptions and joins (R76, R80, R113, R114, R122, R129, R134). -/

namespace Sys2Proof.Machine

/-! ### Records that join a call -/

theorem Part.assign_one (n : LineNo) (pos : Nat) (r : Record) (p : Part) :
    p.assign n pos [r] = Part.tell (.notice .assignment r.point) (p.changeRecord r.id (Record.assign n pos)) := rfl

theorem Part.assign_one_spec {p : Part} (h : p.queue.told) {r : Record} (hr : r ∈ p.queue.records) (n : LineNo) (pos : Nat) :
    let q := p.assign n pos [r]
    p.keepsBut [.bus, .points, .queue] q ∧ p.bus.keepsButEntries q.bus ∧
      q.queue = { p.queue with records := p.queue.records.map fun y => if y = r then r.assign n pos else y } ∧
      q.points = { p.points with work := p.points.work ++ [.notice .assignment r.point] } := by
  have hchange := Part.changeRecord_keeps r.id (Record.assign n pos) p
  simp only [Part.assign_one]
  refine ⟨Part.keepsBut_trans (Part.keepsBut_mono hchange (by simp)) (Part.keepsBut_mono (Part.tell_keeps _ _) (by simp)),
    Part.changeRecord_entries _ _ p, Part.changeRecord_of_told h hr _, ?_⟩
  rw [Part.tell, hchange.points]

/-! ### A call formed with one record -/

theorem urgent_one (r : Record) : urgent 7 [r] = r.priority := by
  have hle : r.priority ≤ 7 := Fin.le_last _
  simp [urgent, hle]

/-- The formations are one more (R129). -/
def Part.withFormation (p : Part) : Part := { p with arbiter := { p.arbiter with formations := p.arbiter.formations + 1 } }

theorem Part.withFormation_keeps (p : Part) : p.keepsBut [.arbiter] p.withFormation := by
  intro b hb
  cases b <;> simp [Block.same, Part.withFormation] at hb ⊢

/-- A line in the break of a new call (R114). -/
def Line.breaks (c : Call) (len : Nat) (l : Line) : Line := { l.become .breaking (some len) with call := some c }

theorem Part.formCall_eq (n : LineNo) (d : DestNo) (rs : List Record) (len : Nat) (p : Part) :
    p.formCall n d rs len = (p.withFormation.assign n 1 rs).moveLine n (Line.breaks (p.newCall d rs) len) := rfl

/-- A call formed on a line with one record, in a break (R114). -/
theorem Part.formCall_one {p : Part} (h : p.queue.told) {r : Record} (hr : r ∈ p.queue.records) (n : LineNo) (d : DestNo)
    (len : Nat) :
    let q := p.formCall n d [r] len
    p.keepsBut [.bus, .points, .queue, .lines, .arbiter] q ∧ p.bus.keepsButEntries q.bus ∧ p.keepsOtherLines n q ∧
      q.line n = Line.breaks (p.newCall d [r]) len (p.line n) ∧
      q.queue = { p.queue with records := p.queue.records.map fun y => if y = r then r.assign n 1 else y } ∧
      q.points = { p.points with work := p.points.work ++ [.notice .assignment r.point] } ∧
      q.arbiter.offers = p.arbiter.offers ∧
      q.arbiter.decisionPending = (p.arbiter.decisionPending || decide (.breaking ≠ (p.line n).state)) := by
  obtain ⟨hkeeps, hentries, hqueue, hpoints⟩ := Part.assign_one_spec (p := p.withFormation) h hr n 1
  have hformed := p.withFormation_keeps
  rw [Part.formCall_eq]
  generalize p.withFormation.assign n 1 [r] = q at hkeeps hentries hqueue hpoints ⊢
  have hline : ∀ m, q.line m = p.line m := Part.line_of_lines (hkeeps.lines.trans hformed.lines)
  generalize hg : Line.breaks (p.newCall d [r]) len = g
  have hmove := Part.moveLine_keeps n g q
  refine ⟨?_, Bus.keepsButEntries_trans hentries (Part.moveLine_entries n g q), fun m hmn => ?_, ?_, ?_, ?_, ?_, ?_⟩
  · exact Part.keepsBut_trans (Part.keepsBut_trans (Part.keepsBut_mono hformed (by simp)) (Part.keepsBut_mono hkeeps (by simp)))
      (Part.keepsBut_mono hmove (by simp))
  · rw [Part.line_moveLine_ne hmn, hline]
  · rw [Part.line_moveLine, hline]
  · rw [Part.moveLine_queue]
    exact hqueue
  · rw [hmove.points]
    exact hpoints
  · rw [Part.moveLine_arbiter, hkeeps.arbiter]
    rfl
  · rw [Part.moveLine_arbiter, hkeeps.arbiter, hline, ← hg]
    rfl

/-! ### The records of an offer -/

theorem Part.resolve_of_mirrors {p q : Part} (h : q.mirrors = p.mirrors) (r : RouteNo) (leg : Leg) :
    q.resolve r leg = p.resolve r leg := by
  cases leg <;> simp [Part.resolve, Part.primaryDest, Part.backupDest, Part.mirror_of_mirrors h]

theorem Part.takeableOf_one {p : Part} (h : p.queue.told) {o : Offer} {r : Record} (ho : o.records = [r.id])
    (hr : r ∈ p.queue.records) (hstate : r.state = .waiting) (hrouted : r.unrouted = false)
    (hdest : p.resolve r.route r.leg = o.dest) : p.takeableOf o = [r] := by
  simp [Part.takeableOf, ho, h.byId_eq hr, Part.takeable, hstate, hrouted, hdest]

theorem Part.setOffer_offer (n : LineNo) (o : Option Offer) (p : Part) : (p.setOffer n o).arbiter.offers[n] = o :=
  Vector.getElem_set_self _

theorem grantBreak_eq {k : OfferKind} (h : k = .idleGrant ∨ k = .bargeGrant) (st : LineState) : grantBreak k st =
    if st = .idle ∨ (st = .office ∧ k = .bargeGrant) then some (if st = .idle then 500 else 2000) else none := by
  rcases h with rfl | rfl <;> cases st <;> rfl

/-- Settles O51: by whether the line's state takes the grant. -/
theorem grantFormsTheCallOrIsRefused : Obligations.GrantFormsTheCallOrIsRefused := by
  intro n o r s hserving hs hoffer hkind hrecords hr hwaiting hrouted hdest
  have hm := Mode.live_of_serving hserving
  have hoffered := s.part.setOffer_keeps n none
  have htaken := Part.takeableOf_one (p := s.part.setOffer n none) hs.told hrecords hr hwaiting hrouted hdest
  have htake : Part.takeGrant n s.part =
      match grantBreak o.kind (s.part.line n).state with
      | some len => (s.part.setOffer n none).formCall n o.dest [r] len
      | none => (s.part.setOffer n none).occasion := by
    have hgrant : o.isGrant = true := by simpa [Offer.isGrant] using hkind
    simp only [Part.takeGrant, hoffer, hgrant, if_true, htaken]
    cases grantBreak o.kind (s.part.line n).state <;> rfl
  rw [grantBreak_eq hkind] at htake
  by_cases hstate : (s.part.line n).state = .idle ∨ ((s.part.line n).state = .office ∧ o.kind = .bargeGrant)
  · simp only [if_pos hstate] at htake ⊢
    generalize (if (s.part.line n).state = .idle then 500 else 2000) = len at htake ⊢
    obtain ⟨hkeeps, hentries, hothers, hline, hqueue, hpoints, hoffers, hpending⟩ :=
      Part.formCall_one (p := s.part.setOffer n none) hs.told hr n o.dest len
    have hbreak : LineState.breaking ≠ (s.part.line n).state := by
      rcases hstate with h | ⟨h, -⟩ <;> rw [h] <;> exact nofun
    have hquiet := State.quietBut_work (f := Part.takeGrant n) (s := s) (bs := [.points, .queue, .lines, .arbiter]) hm
      (by rw [htake]; exact Part.keepsBut_trans (Part.keepsBut_mono hoffered (by simp)) hkeeps) (by rw [htake]; exact hentries)
      (by decide)
    refine ⟨_, rfl, hquiet, ?_, ?_, fun m hmn => ?_, ?_, ?_, ?_, ?_, ?_, ⟨(s.part.setOffer n none).newCall o.dest [r], ?_, rfl, rfl, rfl, rfl, urgent_one r, rfl, rfl, rfl, rfl,
      rfl, rfl, rfl⟩, ?_, ?_, ?_, ?_⟩ <;> simp only [Part.work_of_live hm, htake]
    · exact (congrArg (fun a : Arbiter => a.offers[n]) (Part.settle_arbiter _ _)).trans
        ((congrArg (fun os : Vector (Option Offer) 4 => os[n]) hoffers).trans (Part.setOffer_offer n none s.part))
    · rw [Part.settle_arbiter, hpending, decide_eq_true (by exact hbreak), Bool.or_true]
    · rw [Part.line_settle, hothers m hmn]
      rfl
    · rw [Part.line_settle, hline]
      rfl
    · rw [Part.line_settle, hline]
      rfl
    · rw [Part.line_settle, hline]
      rfl
    · rw [Part.seize, Part.line_settle, hline]
      rfl
    · rw [Part.hook, Part.line_settle, hline]
      rfl
    · rw [Part.line_settle, hline]
      rfl
    · rw [Part.settle_queue, hqueue]
      rfl
    · rw [Part.settle_queue, hqueue]
      rfl
    · rw [Part.settle_points, hpoints]
      rfl
    · rw [Part.settle_points, hpoints]
      rfl
  · simp only [if_neg hstate] at htake ⊢
    have hrefused := Part.keepsBut_trans hoffered (s.part.setOffer n none).occasion_keeps
    have hquiet := State.quietBut_work (f := Part.takeGrant n) (s := s) (bs := [.points, .queue, .lines, .arbiter]) hm
      (by rw [htake]; exact Part.keepsBut_mono hrefused (by simp)) (by rw [htake]; exact Bus.keepsButEntries_refl _) (by decide)
    refine ⟨_, rfl, hquiet, ?_, ?_, fun m hmn => ?_, ?_, ?_, ?_⟩ <;> simp only [Part.work_of_live hm, htake]
    · exact (congrArg (fun a : Arbiter => a.offers[n]) (Part.settle_arbiter _ _)).trans (Part.setOffer_offer n none s.part)
    · rw [Part.settle_arbiter]
      rfl
    · rw [Part.line_settle]
      rfl
    · rw [Part.line_settle]
      rfl
    · rw [Part.settle_queue]
      rfl
    · rw [Part.settle_points]
      rfl

/-! ### Joins -/

theorem Part.takeable_of {p : Part} {d : DestNo} {r : Record} (hstate : r.state = .waiting) (hrouted : r.unrouted = false)
    (hdest : p.resolve r.route r.leg = d) : p.takeable d r = true := by
  simp [Part.takeable, hstate, hrouted, hdest]

/-- A join of one record (R113, R134). -/
theorem Part.takeJoin_one {p : Part} (h : p.queue.told) {n : LineNo} {o : Offer} {c : Call} {r : Record}
    (hoffer : p.arbiter.offers[n] = some o) (hkind : o.kind = .join) (hrecords : o.records = [r.id]) (hr : r ∈ p.queue.records)
    (hwaiting : r.state = .waiting) (hrouted : r.unrouted = false) (hdest : p.resolve r.route r.leg = o.dest)
    (hcall : (p.line n).call = some c) (hcallDest : c.dest = o.dest) : p.takeJoin n =
      if c.reports.length < Config.callPlaces ∧ c.endMark = false then
        ((p.setOffer n none).assign n (c.reports.length + 1) [r]).setLine n ((p.line n).onCall fun c =>
          { c with reports := c.reports ++ [r.slot], priority := min c.priority r.priority })
      else (p.setOffer n none).occasion := by
  have htaken := Part.takeableOf_one (p := p.setOffer n none) h hrecords hr hwaiting hrouted hdest
  have htakeable : (p.setOffer n none).takeable o.dest r = true := Part.takeable_of hwaiting hrouted hdest
  have hopen : c.open o.dest = decide (c.reports.length < Config.callPlaces ∧ c.endMark = false) := by
    simp [Call.open, hcallDest]
  have hid : (p.setOffer n none).queue.byId r.id = some r := h.byId_eq hr
  have hcall' : ((p.setOffer n none).line n).call = some c := hcall
  simp only [Part.takeJoin, hoffer, hkind, if_true, hrecords, List.foldl_cons, List.foldl_nil, htaken, List.isEmpty_cons, Bool.or_false,
    Part.joinOne, hid, hcall', htakeable, Bool.not_true, Bool.false_eq_true, if_false, hopen, decide_eq_true_eq]
  split <;> rfl

/-- A record that joins the call of a line, the line as it then is (R113). -/
theorem Part.joined_spec {p : Part} (h : p.queue.told) {r : Record} (hr : r ∈ p.queue.records) (n : LineNo) (pos : Nat) (l : Line) :
    let q := ((p.setOffer n none).assign n pos [r]).setLine n l
    p.keepsBut [.bus, .points, .queue, .lines, .arbiter] q ∧ p.bus.keepsButEntries q.bus ∧ p.keepsOtherLines n q ∧ q.line n = l ∧
      q.queue.records = p.queue.records.map (fun y => if y = r then r.assign n pos else y) ∧
      q.points = { p.points with work := p.points.work ++ [.notice .assignment r.point] } ∧
      q.arbiter = (p.setOffer n none).arbiter := by
  have hoffered := p.setOffer_keeps n none
  obtain ⟨hkeeps, hentries, hqueue, hpoints⟩ := Part.assign_one_spec (p := p.setOffer n none) h hr n pos
  generalize (p.setOffer n none).assign n pos [r] = q at hkeeps hentries hqueue hpoints ⊢
  refine ⟨Part.keepsBut_trans (Part.keepsBut_trans (Part.keepsBut_mono hoffered (by simp)) (Part.keepsBut_mono hkeeps (by simp)))
    (Part.keepsBut_mono (Part.setLine_keeps n l q) (by simp)), hentries, fun m hmn => ?_, Part.line_setLine _ _ _,
    congrArg Queue.records hqueue, hpoints, hkeeps.arbiter⟩
  rw [Part.line_setLine_ne hmn, Part.line_of_lines (hkeeps.lines.trans hoffered.lines)]

/-- Settles O53: by whether the call is open. -/
theorem joinAddsTheReportAtTheTail : Obligations.JoinAddsTheReportAtTheTail := by
  intro n o c r s hserving hs hoffer hkind hrecords hr hwaiting hrouted hdest hcall hcallDest
  have hm := Mode.live_of_serving hserving
  have hoffered := s.part.setOffer_keeps n none
  have htake := Part.takeJoin_one hs.told hoffer hkind hrecords hr hwaiting hrouted hdest hcall hcallDest
  by_cases hopen : c.reports.length < Config.callPlaces ∧ c.endMark = false
  · simp only [if_pos hopen] at htake ⊢
    generalize hl : ((s.part.line n).onCall fun c =>
      { c with reports := c.reports ++ [r.slot], priority := min c.priority r.priority }) = l at htake
    obtain ⟨hkeeps, hentries, hothers, hline, hqueue, hpoints, harbiter⟩ :=
      Part.joined_spec hs.told hr n (c.reports.length + 1) l
    generalize ((s.part.setOffer n none).assign n (c.reports.length + 1) [r]).setLine n l = q at *
    have hquiet := State.quietBut_work (f := Part.takeJoin n) (s := s) (bs := [.points, .queue, .lines, .arbiter]) hm
      (by rw [htake]; exact hkeeps) (by rw [htake]; exact hentries) (by decide)
    refine ⟨_, rfl, hquiet, fun m hmn => ?_, ?_, ?_, ?_, ?_⟩ <;> simp only [Part.work_of_live hm, htake]
    · rw [Part.line_settle, hothers m hmn]
    · exact (congrArg (fun a : Arbiter => a.offers[n]) ((Part.settle_arbiter _ _).trans harbiter)).trans
        (Part.setOffer_offer n none s.part)
    · rw [Part.line_settle, hline, ← hl]
      simp [Line.onCall, hcall]
    · rw [Part.settle_queue]
      exact hqueue
    · rw [Part.settle_points]
      exact hpoints
  · simp only [if_neg hopen] at htake ⊢
    have hrefused := Part.keepsBut_trans hoffered (s.part.setOffer n none).occasion_keeps
    have hquiet := State.quietBut_work (f := Part.takeJoin n) (s := s) (bs := [.points, .queue, .lines, .arbiter]) hm
      (by rw [htake]; exact Part.keepsBut_mono hrefused (by simp)) (by rw [htake]; exact Bus.keepsButEntries_refl _) (by decide)
    refine ⟨_, rfl, hquiet, fun m hmn => ?_, ?_, ?_, ?_, ?_⟩ <;> simp only [Part.work_of_live hm, htake]
    · rw [Part.line_settle]
      rfl
    · exact (congrArg (fun a : Arbiter => a.offers[n]) (Part.settle_arbiter _ _)).trans (Part.setOffer_offer n none s.part)
    · rw [Part.line_settle]
      rfl
    · rw [Part.settle_queue]
      rfl
    · rw [Part.settle_arbiter]
      rfl

/-! ### Calls that are interrupted -/

/-- A record that returns from a call that was interrupted (R80). -/
def Record.back (r : Record) : Record := { r with state := .waiting, call := none }

/-- A call that ends PREEMPTED or ABORTED, its parts in order (R80, R85). -/
theorem Part.interruptCall_eq (n : LineNo) (c : Call) (kind : LogKind) (p : Part) : p.interruptCall n c kind =
    ((p.replaceRecords ((p.queue.inSlots c.undelivered).map Record.back)).logNamed
      (fun r => LogRecord.ofCall n c.dest (r.log kind)) ((p.queue.inSlots c.undelivered).take 1)).returned
      ((p.queue.inSlots c.undelivered).map Record.back) := by
  unfold Part.interruptCall Part.logNamed
  cases p.queue.inSlots c.undelivered <;> rfl

theorem Part.interruptCall_keeps (n : LineNo) (c : Call) (kind : LogKind) (p : Part) :
    p.keepsBut [.bus, .notice, .points, .queue, .arbiter] (p.interruptCall n c kind) := by
  rw [Part.interruptCall_eq]
  exact Part.keepsBut_trans ((p.setRecords_makes _).trans (Part.logNamed_makes _ _ _)).keeps (Part.returned_keeps _ _)

theorem Part.interruptCall_decisionPending (n : LineNo) (c : Call) (kind : LogKind) (p : Part) :
    (p.interruptCall n c kind).arbiter.decisionPending = true := by
  rw [Part.interruptCall_eq]
  rfl

/-- A call interrupted whose undelivered records are alone (R80, R85). -/
theorem Part.interruptCall_spec {p : Part} {c : Call} {rs : List Record} (h : p.queue.told) (hc : p.queue.carries c rs)
    (halone : p.queue.alone rs) (n : LineNo) (kind : LogKind) :
    p.makes ((rs.take 1).map fun r => (LogRecord.ofCall n c.dest (r.log kind)).stamp p.now)
        (rs.map fun r => .notice .returned r.point) (p.interruptCall n c kind) ∧
      (p.interruptCall n c kind).queue = { p.queue with
        records := p.queue.records.map fun z => if z ∈ rs then z.back else z } ∧
      (p.interruptCall n c kind).arbiter = p.occasion.arbiter := by
  rw [Part.interruptCall_eq, Queue.inSlots_eq h hc]
  have hreplaced := Part.replaceRecords_map h hc.2 (f := Record.back) fun _ => rfl
  have hnow : (p.replaceRecords (rs.map Record.back)).now = p.now := (p.setRecords_makes _).now
  have hnamed := (p.setRecords_makes _).trans (Part.logNamed_makes (fun r => LogRecord.ofCall n c.dest (r.log kind))
    (rs.take 1) (p.replaceRecords (rs.map Record.back)))
  have hqueue := (Part.logNamed_queue (fun r => LogRecord.ofCall n c.dest (r.log kind)) (rs.take 1)
    (p.replaceRecords (rs.map Record.back))).trans hreplaced
  have hnamedArbiter : ((p.replaceRecords (rs.map Record.back)).logNamed (fun r => LogRecord.ofCall n c.dest (r.log kind))
      (rs.take 1)).arbiter = p.arbiter :=
    (List.foldlRecOn (rs.take 1) (motive := fun q : Part => q.arbiter = (p.replaceRecords (rs.map Record.back)).arbiter) _ rfl
      fun q hq r _ => (Part.logNow_keeps _ q).arbiter.trans hq).trans (Part.setRecords_keeps _ p).arbiter
  obtain ⟨hreturned, hsame, harbiter⟩ := Part.returned_alone (rs := rs.map Record.back)
    (p := (p.replaceRecords (rs.map Record.back)).logNamed (fun r => LogRecord.ofCall n c.dest (r.log kind)) (rs.take 1))
    fun r hr => by
      obtain ⟨x, hx, rfl⟩ := List.mem_map.mp hr
      rw [hqueue]
      exact halone.short h (f := Record.back) (fun _ => rfl) (List.mem_map.mpr ⟨x, hx, rfl⟩)
  have hwork : (rs.map Record.back).map Record.returnedWork = rs.map fun r => .notice .returned r.point := by
    rw [List.map_map]
    rfl
  have hall := hnamed.trans hreturned
  rw [hwork, hnow] at hall
  exact ⟨by simpa using hall, hsame.trans hqueue, by rw [harbiter, Part.occasion, hnamedArbiter, Part.occasion]⟩

/-- What a preemption of a line makes (R122). -/
theorem Part.takePreemption_one {p : Part} (h : p.queue.told) {n : LineNo} {o : Offer} {c : Call} {r : Record}
    (hoffer : p.arbiter.offers[n] = some o) (hkind : o.kind = .preemption) (hrecords : o.records = [r.id])
    (hr : r ∈ p.queue.records) (hwaiting : r.state = .waiting) (hrouted : r.unrouted = false)
    (hdest : p.resolve r.route r.leg = o.dest) (hcall : (p.line n).call = some c) (hcomplete : c.complete = false) :
    p.takePreemption n =
      if (p.line n).state.preemptible then ((p.setOffer n none).interruptCall n c .preempted).formCall n o.dest [r] 2000
      else (p.setOffer n none).occasion := by
  have htaken := Part.takeableOf_one (p := p.setOffer n none) h hrecords hr hwaiting hrouted hdest
  have hcall' : ((p.setOffer n none).line n).call = some c := hcall
  have hstate : ((p.setOffer n none).line n).state = (p.line n).state := rfl
  simp only [Part.takePreemption, hoffer, hkind, if_true, htaken, List.isEmpty_cons, Bool.or_false, hcall', hstate, Part.handOutcome,
    hcomplete, Bool.false_eq_true, if_false]
  cases (p.line n).state.preemptible <;> rfl

/-- Settles O52: the victim by `Part.interruptCall_spec`, the new call by `Part.formCall_one`. -/
theorem preemptionReplacesTheVictim : Obligations.PreemptionReplacesTheVictim := by
  intro n o c x r s hserving hoffer hkind hrecords hqueue hid hslot hpoint hwaiting hrouted hdest hcall hundelivered
  have hm := Mode.live_of_serving hserving
  have hoffered := s.part.setOffer_keeps n none
  have htold : s.part.queue.told := by
    simp only [Queue.told, hqueue, List.map_cons, List.map_nil, List.nodup_cons, List.mem_singleton, List.not_mem_nil,
      not_false_eq_true, List.nodup_nil, and_true]
    exact ⟨Nat.ne_of_lt hid, hslot⟩
  have hr : r ∈ s.part.queue.records := by rw [hqueue]; simp
  have hcomplete : c.complete = false := by
    by_contra hdone
    rw [Bool.not_eq_false, Call.complete, decide_eq_true_eq] at hdone
    rw [Call.undelivered, hdone, List.drop_length] at hundelivered
    exact absurd hundelivered (by simp)
  have htake := Part.takePreemption_one htold hoffer hkind hrecords hr hwaiting hrouted hdest hcall hcomplete
  by_cases hstate : (s.part.line n).state.preemptible = true
  · simp only [if_pos hstate] at htake ⊢
    obtain ⟨hmakes, hback, harbiter⟩ := Part.interruptCall_spec (p := s.part.setOffer n none) htold (c := c) (rs := [x])
      ⟨by rw [hundelivered]; rfl, by simp [hqueue]⟩ (fun y hy z hz hzy => by
        simp only [List.mem_singleton] at hy
        subst hy
        rw [Part.setOffer_queue, hqueue] at hz
        simp only [List.mem_cons, List.not_mem_nil, or_false] at hz
        rcases hz with rfl | rfl
        · rfl
        · exact absurd hzy.symm hpoint) n .preempted
    have hrecordsBack : ((s.part.setOffer n none).interruptCall n c .preempted).queue.records = [x.back, r] := by
      have hne : r ≠ x := fun h => hpoint (by rw [h])
      rw [hback]
      simp [hqueue, hne]
    generalize (s.part.setOffer n none).interruptCall n c .preempted = p at *
    have hmirrors : p.mirrors = s.part.mirrors := hmakes.keeps.mirrors
    have htoldBack : p.queue.told := by
      simpa [Queue.told, hrecordsBack, hqueue, Record.back] using htold
    obtain ⟨hkeeps, hentries, hothers, hline, hrecords', -, hoffers, hpending⟩ := Part.formCall_one (p := p) htoldBack (r := r)
      (by rw [hrecordsBack]; simp) n o.dest 2000
    have hlines : ∀ m, p.line m = s.part.line m := Part.line_of_lines hmakes.keeps.lines
    have haccount : p.account o.dest = s.part.account o.dest := by simp only [Part.account, Part.mirror_of_mirrors hmirrors]
    have hdial : (p.dialCodes o.dest).filterMap dialSymbol = (s.part.dialCodes o.dest).filterMap dialSymbol := by
      have hslots : p.dialSlot o.dest = s.part.dialSlot o.dest :=
        funext fun i => by simp only [Part.dialSlot, Part.mirror_of_mirrors hmirrors]
      simp only [Part.dialCodes, Part.dialLength, hslots, Part.mirror_of_mirrors hmirrors]
    have hsettled := Part.settle_entries s.part (p.formCall n o.dest [r] 2000)
    refine ⟨_, rfl, State.keepsBut_work hm ?_, fun m hmn => ?_, ?_, ?_, ?_, ?_, ?_, ?_, ?_, ⟨p.newCall o.dest [r], ?_, rfl, haccount, hdial, rfl,
      urgent_one r⟩, ?_, fun hh => ?_⟩ <;> simp only [Part.work_of_live hm, htake]
    · exact Part.keepsBut_trans (Part.keepsBut_trans (Part.keepsBut_mono hoffered (by simp)) (Part.keepsBut_mono hmakes.keeps (by simp)))
        (Part.keepsBut_mono hkeeps (by simp))
    · rw [Part.line_settle, hothers m hmn, hlines]
    · exact (congrArg (fun a : Arbiter => a.offers[n]) (Part.settle_arbiter _ _)).trans
        ((congrArg (fun os : Vector (Option Offer) 4 => os[n]) (hoffers.trans (congrArg Arbiter.offers harbiter))).trans
          (Part.setOffer_offer n none s.part))
    · rw [Part.settle_arbiter, hpending, harbiter]
      rfl
    · rw [Part.line_settle, hline]
      rfl
    · rw [Part.line_settle, hline]
      rfl
    · rw [Part.seize, Part.line_settle, hline]
      rfl
    · rw [Part.hook, Part.line_settle, hline]
      rfl
    · rw [Part.line_settle, hline, hlines]
      rfl
    · rw [Part.line_settle, hline]
      rfl
    · rw [Part.settle_queue, hrecords', hrecordsBack]
      have hne : x.back ≠ r := fun h => hpoint (show x.back.point = r.point by rw [h])
      simp only [List.map_cons, List.map_nil, if_neg hne, if_true]
      rfl
    · rw [hsettled.logged, hentries.logged, hmakes.logged hserving hh]
      rfl
  · simp only [if_neg hstate] at htake ⊢
    have hrefused := Part.keepsBut_trans hoffered (s.part.setOffer n none).occasion_keeps
    refine ⟨_, rfl, State.keepsBut_work hm (by rw [htake]; exact Part.keepsBut_mono hrefused (by simp)), fun m hmn => ?_, ?_, ?_, ?_, ?_⟩ <;>
      simp only [Part.work_of_live hm, htake]
    · rw [Part.line_settle]
      rfl
    · exact (congrArg (fun a : Arbiter => a.offers[n]) (Part.settle_arbiter _ _)).trans (Part.setOffer_offer n none s.part)
    · rw [Part.settle_arbiter]
      rfl
    · rw [Part.line_settle]
      rfl
    · rw [Part.settle_queue]
      rfl

end Sys2Proof.Machine
end

section
/-! PROOFS. The decision of the Line Arbiter (R125 to R133). -/

namespace Sys2Proof.Machine

/-! ### Eligible records -/

theorem Arbiter.names_iff (a : Arbiter) (id : Nat) :
    a.names id = true ↔ ∃ (n : LineNo) (o : Offer), a.offers[n] = some o ∧ id ∈ o.records := by
  simp only [Arbiter.names, List.any_eq_true, Vector.mem_toList_iff, Vector.mem_iff_getElem]
  constructor
  · rintro ⟨x, ⟨i, hi, hx⟩, hnamed⟩
    cases x with
    | none => exact absurd hnamed (by simp)
    | some o => exact ⟨⟨i, hi⟩, o, hx, by simpa using hnamed⟩
  · rintro ⟨n, o, ho, hid⟩
    exact ⟨some o, ⟨n.val, n.isLt, ho⟩, by simpa using hid⟩

theorem Part.usable_iff (p : Part) (d : DestNo) : p.usable d = true ↔ p.destEnabled d = true ∧ p.mirrors.valid[d] = true ∧
    ∃ n : LineNo, p.destAllows d n = true ∧ p.lineEnabled n = true ∧ (p.line n).state ≠ .fault := by
  simp [Part.usable, List.any_eq_true, and_assoc]

theorem Part.resolve_eq (p : Part) (r : Record) : p.resolve r.route r.leg = (match r.leg, p.backupDest r.route with
    | .backup, some b => b
    | .backup, none | .primary, _ => p.primaryDest r.route) := by
  cases r.leg <;> cases h : p.backupDest r.route <;> simp [Part.resolve, h]

/-- What makes a record eligible (R125, R126). -/
theorem Part.eligible_iff (p : Part) (r : Record) : p.eligible r = true ↔
    p.mode = .running ∧ p.mirrors.reload = none ∧ r.state = .waiting ∧
      (∀ (n : LineNo) o, p.arbiter.offers[n] = some o → r.id ∉ o.records) ∧ r.unrouted = false ∧
      (p.routeEnabled r.route = true ∧ p.destEnabled (p.primaryDest r.route) = true ∧
        p.mirrors.valid[p.primaryDest r.route] = true) ∧
      ¬((p.route r.route).spent = true ∧ p.budgetHold r.route = true) ∧ r.retry = none ∧
      p.usable (p.resolve r.route r.leg) = true ∧
      (p.time.mainsActive = true → r.priority.val ≤ p.batteryThreshold ∧ r.sense ≠ .test) := by
  have hnames : (p.arbiter.names r.id = false) ↔ ∀ (n : LineNo) o, p.arbiter.offers[n] = some o → r.id ∉ o.records := by
    rw [← Bool.not_eq_true, Arbiter.names_iff]
    push Not
    rfl
  have hbattery : p.batteryAllows r = true ↔ (p.time.mainsActive = true → r.priority.val ≤ p.batteryThreshold ∧ r.sense ≠ .test) := by
    cases h : p.time.mainsActive <;> simp [Part.batteryAllows, h]
  simp only [Part.eligible, Bool.and_eq_true, decide_eq_true_eq, Option.isNone_iff_eq_none, Bool.not_eq_true', hnames, hbattery,
    Part.inForce, Part.heldByBudget, and_assoc, Bool.and_eq_false_iff, not_and_or, Bool.not_eq_true]

/-! ### Lines found -/

/-- A search through the lines that keeps the best so far, by what each line is worth. -/
structure KeepsBest {α : Type} (f : Option LineNo → LineNo → Option LineNo) (worth : LineNo → Option α)
    (better : α → α → Bool) : Prop where
  skips : ∀ best n, worth n = none → f best n = best
  begins : ∀ best n, (worth n).isSome = true → best.bind worth = none → f best n = some n
  compares : ∀ best n a b, worth n = some a → best.bind worth = some b → f best n = if better a b then some n else best

theorem KeepsBest.none {α : Type} {f : Option LineNo → LineNo → Option LineNo} {worth : LineNo → Option α}
    {better : α → α → Bool} (h : KeepsBest f worth better) {l : List LineNo} (hl : ∀ n ∈ l, worth n = none) (best : Option LineNo) :
    l.foldl f best = best := List.foldl_of_fixed fun n hn => h.skips best n (hl n hn)

theorem KeepsBest.stays {α : Type} {f : Option LineNo → LineNo → Option LineNo} {worth : LineNo → Option α}
    {better : α → α → Bool} (h : KeepsBest f worth better) {n : LineNo} {a : α} (hn : worth n = some a) {l : List LineNo}
    (hl : ∀ m ∈ l, ∀ b, worth m = some b → better b a = false) : l.foldl f (some n) = some n :=
  List.foldl_of_fixed fun m hm => by
    cases hw : worth m with
    | none => exact h.skips _ _ hw
    | some b => rw [h.compares (some n) m b a hw (by simpa using hn), hl m hm b hw, if_neg (by simp)]

/-- What has been kept before the best line is reached is worth less. -/
def worthLess {α : Type} (worth : LineNo → Option α) (better : α → α → Bool) (a : α) (best : Option LineNo) : Prop :=
  best = none ∨ ∃ m b, best = some m ∧ worth m = some b ∧ better a b = true

theorem KeepsBest.best {α : Type} {f : Option LineNo → LineNo → Option LineNo} {worth : LineNo → Option α}
    {better : α → α → Bool} (h : KeepsBest f worth better) {n : LineNo} {a : α} (hn : worth n = some a) {l : List LineNo}
    (hmem : n ∈ l) (hl : ∀ m, m ≠ n → ∀ b, worth m = some b → better a b = true ∧ better b a = false)
    (hself : better a a = false) {best : Option LineNo} (hbest : worthLess worth better a best) : l.foldl f best = some n := by
  induction l generalizing best with
  | nil => simp at hmem
  | cons m l ih =>
    rw [List.foldl_cons]
    by_cases hm : m = n
    · subst hm
      have hreached : f best m = some m := by
        rcases hbest with rfl | ⟨k, b, rfl, hk, hless⟩
        · exact h.begins _ _ (by simp [hn]) rfl
        · rw [h.compares _ _ a b hn (by simpa using hk), if_pos hless]
      rw [hreached]
      refine h.stays hn fun k _ b hk => ?_
      by_cases hkm : k = m
      · subst hkm
        rw [hn] at hk
        rw [← Option.some.inj hk]
        exact hself
      · exact (hl k hkm b hk).2
    · refine ih ((List.mem_cons.mp hmem).resolve_left fun heq => hm heq.symm) ?_
      cases hw : worth m with
      | none => rwa [h.skips _ _ hw]
      | some b =>
        have hless := (hl m hm b hw).1
        rcases hbest with rfl | ⟨k, b', rfl, hk, hless'⟩
        · rw [h.begins _ _ (by simp [hw]) rfl]
          exact .inr ⟨m, b, rfl, hw, hless⟩
        · rw [h.compares _ _ b b' hw (by simpa using hk)]
          split
          · exact .inr ⟨m, b, rfl, hw, hless⟩
          · exact .inr ⟨k, b', rfl, hk, hless'⟩

/-! ### The lines of a plan -/

theorem Plan.joinLine_keepsBest (plan : Plan) (p : Part) (r : Record) :
    KeepsBest (fun best n => match plan.joinMark p r n, best.bind (plan.joinMark p r) with
      | some m, some b => if m < b then some n else best
      | some _, none => some n
      | none, _ => best) (plan.joinMark p r) fun a b => decide (a < b) := by
  refine ⟨fun best n hn => by simp [hn], fun best n hn hbest => ?_, fun best n a b hn hbest => by simp [hn, hbest]⟩
  obtain ⟨a, ha⟩ := Option.isSome_iff_exists.mp hn
  simp [ha, hbest]

theorem Plan.victimLine_keepsBest (plan : Plan) (p : Part) (d : DestNo) (pr : Fin 8) :
    KeepsBest (fun best n => match plan.victim p d pr n, best.bind (plan.victim p d pr) with
      | some c, some b => if b.priority < c.priority ∨ (b.priority = c.priority ∧ b.mark < c.mark) then some n else best
      | some _, none => some n
      | none, _ => best) (plan.victim p d pr)
      fun c b => decide (b.priority < c.priority ∨ (b.priority = c.priority ∧ b.mark < c.mark)) := by
  refine ⟨fun best n hn => by simp [hn], fun best n hn hbest => ?_, fun best n a b hn hbest => by simp [hn, hbest]⟩
  obtain ⟨a, ha⟩ := Option.isSome_iff_exists.mp hn
  simp [ha, hbest]

/-- The call to join is the one of the earliest formation mark (R129). -/
theorem Plan.joinLine_eq {plan : Plan} {p : Part} {r : Record} {n : LineNo} {a : Nat} (hn : plan.joinMark p r n = some a)
    (hfirst : ∀ m, m ≠ n → ∀ b, plan.joinMark p r m = some b → a < b) : plan.joinLine p r = some n :=
  (plan.joinLine_keepsBest p r).best hn (List.mem_finRange n)
    (fun m hm b hb => ⟨decide_eq_true (hfirst m hm b hb), decide_eq_false (Nat.not_lt.mpr (Nat.le_of_lt (hfirst m hm b hb)))⟩)
    (decide_eq_false (Nat.lt_irrefl a)) (.inl rfl)

theorem Plan.joinLine_none {plan : Plan} {p : Part} {r : Record} (h : ∀ n, plan.joinMark p r n = none) :
    plan.joinLine p r = none := (plan.joinLine_keepsBest p r).none (fun n _ => h n) none

/-- The call that gives way is the one of the greatest priority number, of these the latest formed (R133). -/
theorem Plan.victimLine_eq {plan : Plan} {p : Part} {d : DestNo} {pr : Fin 8} {n : LineNo} {c : Call}
    (hn : plan.victim p d pr n = some c) (hbest : ∀ m, m ≠ n → ∀ b, plan.victim p d pr m = some b →
      b.priority < c.priority ∨ (b.priority = c.priority ∧ b.mark < c.mark)) : plan.victimLine p d pr = some n := by
  refine (plan.victimLine_keepsBest p d pr).best hn (List.mem_finRange n) (fun m hm b hb => ?_) (by simp) (.inl rfl)
  have hless := hbest m hm b hb
  refine ⟨decide_eq_true hless, decide_eq_false ?_⟩
  rcases hless with h | ⟨heq, h⟩
  · rintro (h' | ⟨heq', -⟩)
    · exact absurd h (by simp only [Fin.lt_def] at h' ⊢; omega)
    · exact absurd h (by rw [heq']; exact lt_irrefl _)
  · rintro (h' | ⟨-, h'⟩)
    · exact absurd h' (by rw [heq]; exact lt_irrefl _)
    · omega

theorem Plan.victimLine_none {plan : Plan} {p : Part} {d : DestNo} {pr : Fin 8} (h : ∀ n, plan.victim p d pr n = none) :
    plan.victimLine p d pr = none := (plan.victimLine_keepsBest p d pr).none (fun n _ => h n) none

/-! ### The decision -/

/-- The plan before a record has been judged: the offers in flight. -/
def Part.planned (p : Part) : Plan := { offers := p.arbiter.offers, joins := [], used := [] }

/-- The eligible records in service order (R128). -/
def Part.service (p : Part) : List Record := serviceOrder (p.queue.records.filter p.eligible)

/-- A decision that leaves these offers. -/
def Part.decided (p : Part) (offers : Vector (Option Offer) 4) : Part :=
  { p with arbiter := { p.arbiter with decisionPending := false, offers } }

theorem Part.decision_eq {p : Part} (h : p.arbiter.decisionPending = true) :
    p.decision = p.decided (p.decideFrom p.service p.planned).offers := if_pos h

theorem Part.decided_keeps (p : Part) (offers : Vector (Option Offer) 4) : p.keepsBut [.arbiter] (p.decided offers) := by
  intro b hb
  cases b <;> simp [Block.same, Part.decided] at hb ⊢

/-- DECISION in a part whose trouble pattern is current (R128). -/
theorem State.decision_spec {s : State} (hm : s.part.mode.serving = true) (hpending : s.part.arbiter.decisionPending = true)
    (hcur : s.part.troubleCurrent) :
    exec .decision s = .next { s with part := s.part.decided (s.part.decideFrom s.part.service s.part.planned).offers } := by
  have hsettle := Part.settle_of_trouble (s.part.decided_keeps (s.part.decideFrom s.part.service s.part.planned).offers) hcur
    rfl rfl rfl
  have hserve : s.part.serve Part.decision = s.part.decided (s.part.decideFrom s.part.service s.part.planned).offers := by
    rw [Part.serve_of_serving hm, Part.decision_eq hpending, hsettle]
  exact congrArg (fun p => Host.Outcome.next { s with part := p }) hserve

/-! ### The line a new call finds -/

/-- The part with the offers of a plan. -/
def Plan.on (plan : Plan) (p : Part) : Part := { p with arbiter := { p.arbiter with offers := plan.offers } }

theorem Plan.idle_iff (plan : Plan) (p : Part) (d : DestNo) (n : LineNo) :
    (p.destAllows d n && plan.offers[n].isNone && decide ((p.line n).state = .idle)) = true ↔ (plan.on p).idleFor d n := by
  simp only [Bool.and_eq_true, Option.isNone_iff_eq_none, decide_eq_true_eq, and_assoc]
  exact Iff.rfl

theorem Plan.barge_iff (plan : Plan) (p : Part) (d : DestNo) (pr : Fin 8) (n : LineNo) :
    (p.destAllows d n && plan.offers[n].isNone && decide ((p.line n).state = .office) &&
      (p.bargeThreshold n).any (pr.val ≤ ·)) = true ↔ (plan.on p).bargeFor d pr n := by
  simp only [Bool.and_eq_true, Option.isNone_iff_eq_none, decide_eq_true_eq, and_assoc, Option.any_eq_true]
  exact Iff.rfl

theorem LineState.preemptible_iff (st : LineState) :
    st.preemptible = true ↔ st ∈ ([.breaking, .dialtone, .dialing, .ringback] : List LineState) := by
  cases st <;> decide

theorem Plan.victim_iff (plan : Plan) (p : Part) (d : DestNo) (pr : Fin 8) (n : LineNo) (c : Call) :
    plan.victim p d pr n = some c ↔ (plan.on p).victimFor d pr n c := by
  have hline : (plan.on p).line n = p.line n := rfl
  have hallows : (plan.on p).destAllows d n = p.destAllows d n := rfl
  have hoffer : (plan.on p).arbiter.offers[n] = plan.offers[n] := rfl
  unfold Plan.victim Part.victimFor
  rw [hline, hallows, hoffer, ← LineState.preemptible_iff]
  cases hcall : (p.line n).call with
  | none => simp
  | some b =>
    simp only [Option.ite_none_right_eq_some, Option.some.injEq, Option.isNone_iff_eq_none]
    exact ⟨fun ⟨⟨h₁, h₂, h₃, h₄⟩, hb⟩ => ⟨hb, h₁, h₂, h₃, hb ▸ h₄⟩, fun ⟨hb, h₁, h₂, h₃, h₄⟩ => ⟨⟨h₁, h₂, h₃, hb ▸ h₄⟩, hb⟩⟩

/-- The line a new call finds: idle, barge, preemption, in that order (R130 to R133). -/
theorem Plan.lineFor_of_finds {plan : Plan} {p : Part} {d : DestNo} {pr : Fin 8} {n : LineNo} {kind : OfferKind}
    (h : (plan.on p).finds d pr n kind) : plan.lineFor p d pr = some (n, kind) := by
  have hidleNone : (∀ m, ¬ (plan.on p).idleFor d m) → plan.idleLine p d = none := fun hnone =>
    find?_finRange_eq_none.mpr fun m => by
      rw [← Bool.not_eq_true, Plan.idle_iff]
      exact hnone m
  unfold Plan.lineFor
  rcases h with ⟨rfl, hn, hfirst⟩ | ⟨rfl, hidle, hn, hfirst⟩ | ⟨rfl, hidle, hbarge, c, hn, hbest⟩
  · have hline : plan.idleLine p d = some n := find?_finRange_eq_some.mpr ⟨(plan.idle_iff p d n).mpr hn, fun m hm => by
      rw [← Bool.not_eq_true, Plan.idle_iff]
      exact hfirst m hm⟩
    simp only [hline]
  · have hline : plan.bargeLine p d pr = some n := find?_finRange_eq_some.mpr ⟨(plan.barge_iff p d pr n).mpr hn, fun m hm => by
      rw [← Bool.not_eq_true, Plan.barge_iff]
      exact hfirst m hm⟩
    simp only [hidleNone hidle, hline]
  · have hbargeNone : plan.bargeLine p d pr = none := find?_finRange_eq_none.mpr fun m => by
      rw [← Bool.not_eq_true, Plan.barge_iff]
      exact hbarge m
    have hline : plan.victimLine p d pr = some n := Plan.victimLine_eq ((plan.victim_iff p d pr n c).mpr hn) fun m hm b hb =>
      hbest m hm b ((plan.victim_iff p d pr m b).mp hb)
    simp only [hidleNone hidle, hbargeNone, hline, Option.map_some]

theorem Plan.lineFor_of_findsNone {plan : Plan} {p : Part} {d : DestNo} {pr : Fin 8} (h : (plan.on p).findsNone d pr) :
    plan.lineFor p d pr = none := by
  have hidle : plan.idleLine p d = none := find?_finRange_eq_none.mpr fun m => by
    rw [← Bool.not_eq_true, Plan.idle_iff]
    exact (h m).1
  have hbarge : plan.bargeLine p d pr = none := find?_finRange_eq_none.mpr fun m => by
    rw [← Bool.not_eq_true, Plan.barge_iff]
    exact (h m).2.1
  have hvictim : plan.victimLine p d pr = none := Plan.victimLine_none fun m => by
    cases hc : plan.victim p d pr m with
    | none => rfl
    | some c => exact absurd ((plan.victim_iff p d pr m c).mp hc) ((h m).2.2 c)
  simp only [Plan.lineFor, hidle, hbarge, hvictim, Option.map_none]

/-! ### One eligible record -/

theorem mem_serviceOrder {rs : List Record} {r : Record} : r ∈ serviceOrder rs ↔ r ∈ rs := by
  simp [serviceOrder, List.mem_flatMap]

/-- Service order is by priority number, then by admission (R62). -/
theorem serviceOrder_pairwise {rs : List Record} (h : rs.Pairwise fun a b => a.id < b.id) :
    (serviceOrder rs).Pairwise fun a b => a.priority < b.priority ∨ (a.priority = b.priority ∧ a.id < b.id) := by
  refine List.pairwise_flatMap.mpr ⟨fun k _ => ?_, (List.pairwise_lt_finRange 8).imp fun {j k} hjk a ha b hb => .inl ?_⟩
  · refine (h.filter _).imp_of_mem fun {a b} ha hb hab => .inr ⟨?_, hab⟩
    exact (of_decide_eq_true (List.mem_filter.mp ha).2).trans (of_decide_eq_true (List.mem_filter.mp hb).2).symm
  · rw [of_decide_eq_true (List.mem_filter.mp ha).2, of_decide_eq_true (List.mem_filter.mp hb).2]
    exact hjk

/-- The eligible records in service order are what they are said to be. -/
theorem Part.service_eq {p : Part} (hids : p.queue.records.Pairwise fun a b => a.id < b.id) {rs : List Record}
    (h : p.inService rs) : p.service = rs := by
  obtain ⟨hsorted, hmem⟩ := h
  have hservice := serviceOrder_pairwise (hids.filter p.eligible)
  have hirreflexive : ∀ {l : List Record},
      l.Pairwise (fun a b => a.priority < b.priority ∨ (a.priority = b.priority ∧ a.id < b.id)) → l.Nodup := fun hl =>
    hl.imp fun {a b} hab heq => by
      subst heq
      rcases hab with hab | ⟨-, hab⟩
      · exact absurd hab (lt_irrefl _)
      · exact absurd hab (lt_irrefl _)
  refine List.Perm.eq_of_pairwise (fun a b _ _ hab hba => ?_) hservice hsorted
    ((List.perm_ext_iff_of_nodup (hirreflexive hservice) (hirreflexive hsorted)).mpr fun r => ?_)
  · exfalso
    rcases hab with hab | ⟨heq, hab⟩ <;> rcases hba with hba | ⟨heq', hba⟩
    · exact absurd (hab.trans hba) (lt_irrefl _)
    · exact absurd hab (by rw [heq']; exact lt_irrefl _)
    · exact absurd hba (by rw [heq]; exact lt_irrefl _)
    · omega
  · rw [mem_serviceOrder, List.mem_filter, hmem]

theorem Queue.mayAssign_nil_of_first {q : Queue} {r : Record} (h : q.firstOfPoint r) : q.mayAssign r [] = true := by
  simp only [Queue.mayAssign, List.all_eq_true, decide_eq_true_eq, List.not_mem_nil]
  rintro e he ⟨hpoint, hid⟩
  exact absurd (h e he hpoint) (by omega)

/-- A new call for one record, where no other may join it (R130). -/
theorem Plan.judge_one {plan : Plan} {p : Part} {r : Record} {n : LineNo} {kind : OfferKind} (hjoin : plan.joinLine p r = none)
    (hline : plan.lineFor p (p.resolve r.route r.leg) r.priority = some (n, kind)) (hfirst : p.queue.firstOfPoint r) :
    plan.judge p r [] = { plan with
      offers := plan.offers.set n (some { kind, records := [r.id], dest := p.resolve r.route r.leg, priority := r.priority })
      used := r.id :: plan.used } := by
  simp only [Plan.judge, hjoin, hline, Queue.mayAssign_nil_of_first hfirst, if_true, Part.gather, List.map_cons, List.map_nil]
  rfl

theorem Part.decideFrom_cons {p : Part} {r : Record} {rest : List Record} {plan : Plan} (h : r.id ∉ plan.used) :
    p.decideFrom (r :: rest) plan = p.decideFrom rest (plan.judge p r rest) := by
  simp [Part.decideFrom, h]

theorem Part.decideFrom_used {p : Part} {r : Record} {rest : List Record} {plan : Plan} (h : r.id ∈ plan.used) :
    p.decideFrom (r :: rest) plan = p.decideFrom rest plan := by
  simp [Part.decideFrom, h]

theorem Plan.joinMark_of_no_call {plan : Plan} {p : Part} {r : Record} {n : LineNo} (h : (p.line n).call = none) :
    plan.joinMark p r n = none := by
  simp [Plan.joinMark, h]

/-- The only record of the queue, eligible, takes the line it finds. -/
theorem State.decision_one {s : State} {r : Record} {n : LineNo} {kind : OfferKind} (hm : s.part.mode = .running)
    (hpending : s.part.arbiter.decisionPending = true) (hcur : s.part.troubleCurrent) (hrecords : s.part.queue.records = [r])
    (heligible : s.part.eligible r = true) (hcalls : ∀ m, (s.part.line m).call = none)
    (hoffers : ∀ m : LineNo, s.part.arbiter.offers[m] = none)
    (hfinds : s.part.finds (s.part.resolve r.route r.leg) r.priority n kind) :
    Answers .decision s fun t =>
      s.keepsBut [.arbiter] t ∧ t.part.arbiter.decisionPending = false ∧
      t.part.arbiter.offers[n] = some { kind, records := [r.id], dest := s.part.resolve r.route r.leg, priority := r.priority } ∧
      ∀ m : LineNo, m ≠ n → t.part.arbiter.offers[m] = none := by
  have hservice : s.part.service = [r] := by
    refine Part.service_eq (by simp [hrecords]) ⟨by simp, fun x => ?_⟩
    rw [hrecords, List.mem_singleton]
    exact ⟨fun h => ⟨h, h ▸ heligible⟩, fun h => h.1⟩
  have hfirst : s.part.queue.firstOfPoint r := fun e he _ => by
    rw [hrecords, List.mem_singleton] at he
    rw [he]
  have hjudge := Plan.judge_one (plan := s.part.planned) (p := s.part) (r := r) (n := n) (kind := kind)
    (Plan.joinLine_none fun m => Plan.joinMark_of_no_call (hcalls m)) (Plan.lineFor_of_finds hfinds) hfirst
  have hdecide : s.part.decideFrom s.part.service s.part.planned = s.part.planned.judge s.part r [] := by
    rw [hservice, Part.decideFrom_cons (by simp [Part.planned])]
    rfl
  have hexec := State.decision_spec (by rw [hm]; rfl) hpending hcur
  rw [hdecide, hjudge] at hexec
  refine ⟨_, hexec, ⟨rfl, rfl, rfl, Part.decided_keeps _ _⟩, rfl, ?_, fun m hmn => ?_⟩
  · exact Vector.getElem_set_self _
  · exact (Vector.getElem_set_ne n.isLt m.isLt fun h => hmn (Fin.ext h.symm)).trans (hoffers m)

/-- Settles O49: eligibility by `Part.eligible_iff`, the single record by `State.decision_one`. -/
theorem decisionOffersTheFirstLine : Obligations.DecisionOffersTheFirstLine := by
  refine ⟨fun s hm hpending hnone hcur => ?_, fun s hs r => ?_, fun r s => ?_,
    fun r n s hm hpending hrecords heligible hcur hcalls hoffers hallows => ⟨fun hidle hfirst => ?_, fun hoffice hthreshold hidle hfirst => ?_⟩⟩
  · have hservice : s.part.service = [] := by
      rw [Part.service, List.filter_eq_nil_iff.mpr fun r hr => by simp [hnone r hr]]
      rfl
    have hexec := State.decision_spec hm hpending hcur
    rw [hservice] at hexec
    exact ⟨_, hexec, ⟨rfl, rfl, rfl, Part.decided_keeps _ _⟩, rfl⟩
  · rw [← Bool.not_eq_true, Part.eligible_iff]
    rintro ⟨hmode, hreload, -⟩
    rcases hs with h | h
    · rw [hmode] at h
      exact absurd h nofun
    · rw [hreload] at h
      exact absurd h (by decide)
  · have hiff := Part.eligible_iff s.part r
    rw [Part.usable_iff, Part.resolve_eq] at hiff
    exact hiff
  · exact State.decision_one hm hpending hcur hrecords heligible hcalls hoffers
      (.inl ⟨rfl, ⟨hallows, hoffers n, hidle⟩, fun m hmn ⟨hm₁, _, hm₃⟩ => hfirst m hmn hm₁ hm₃⟩)
  · obtain ⟨x, hx, hle⟩ := (Option.any_eq_true _ _).mp hthreshold
    refine State.decision_one hm hpending hcur hrecords heligible hcalls hoffers (.inr (.inl ⟨rfl, fun m ⟨hm₁, _, hm₃⟩ =>
      hidle m hm₁ hm₃, ⟨hallows, hoffers n, hoffice, x, hx, of_decide_eq_true hle⟩, fun m hmn ⟨hm₁, _, hm₃, y, hy, hle'⟩ => ?_⟩))
    have hno := hfirst m hmn hm₁ hm₃
    rw [hy] at hno
    exact absurd hle' (by simpa using hno)

end Sys2Proof.Machine
end

section
/-! PROOFS. The offers of a decision in service order (R127 to R133). -/

namespace Sys2Proof.Machine

/-! ### Which lines a plan changes -/

theorem KeepsBest.worthy {α : Type} {f : Option LineNo → LineNo → Option LineNo} {worth : LineNo → Option α}
    {better : α → α → Bool} (h : KeepsBest f worth better) {l : List LineNo} {best : Option LineNo} {n : LineNo}
    (hbest : ∀ k, best = some k → (worth k).isSome = true) (hn : l.foldl f best = some n) : (worth n).isSome = true := by
  induction l generalizing best with
  | nil => exact hbest n hn
  | cons m l ih =>
    refine ih (fun k hk => ?_) hn
    cases hw : worth m with
    | none => exact hbest k (by rwa [h.skips _ _ hw] at hk)
    | some a =>
      cases hb : best.bind worth with
      | none =>
        rw [h.begins _ _ (by simp [hw]) hb] at hk
        rw [← Option.some.inj hk, hw]
        rfl
      | some b =>
        rw [h.compares _ _ a b hw hb] at hk
        split at hk
        · rw [← Option.some.inj hk, hw]
          rfl
        · exact hbest k hk

/-- A join goes to a line without an offer in flight (R129). -/
theorem Plan.joinMark_some {plan : Plan} {p : Part} {r : Record} {n : LineNo} {a : Nat} (h : plan.joinMark p r n = some a) :
    ∃ c, (p.line n).call = some c ∧ a = c.mark ∧ c.dest = p.resolve r.route r.leg ∧ c.endMark = false ∧
      (c.reports.length + match plan.offers[n] with
        | some o => o.records.length
        | none => 0) < 4 ∧
      (plan.offers[n] = none ∨ n ∈ plan.joins) ∧ p.queue.mayAssign r (plan.aboard p n) = true := by
  unfold Plan.joinMark at h
  cases hcall : (p.line n).call with
  | none => simp [hcall] at h
  | some c =>
    simp only [hcall, Option.ite_none_right_eq_some, Option.some.injEq, Bool.not_eq_true', Option.isNone_iff_eq_none] at h
    obtain ⟨⟨hdest, hend, hroom, hoffer, hassign⟩, ha⟩ := h
    exact ⟨c, rfl, ha.symm, hdest, hend, hroom, hoffer, hassign⟩

theorem Plan.joinLine_some {plan : Plan} {p : Part} {r : Record} {n : LineNo} (h : plan.joinLine p r = some n) :
    ∃ a, plan.joinMark p r n = some a :=
  Option.isSome_iff_exists.mp ((plan.joinLine_keepsBest p r).worthy (best := none) (by simp) h)

theorem Plan.lineFor_some {plan : Plan} {p : Part} {d : DestNo} {pr : Fin 8} {n : LineNo} {kind : OfferKind}
    (h : plan.lineFor p d pr = some (n, kind)) : plan.offers[n] = none := by
  unfold Plan.lineFor at h
  cases hidle : plan.idleLine p d with
  | some m =>
    simp only [hidle, Option.some.injEq, Prod.mk.injEq] at h
    have hm := List.find?_some (p := fun n => p.destAllows d n && plan.offers[n].isNone && decide ((p.line n).state = .idle)) hidle
    obtain ⟨-, hoffer, -⟩ := (plan.idle_iff p d m).mp hm
    exact h.1 ▸ hoffer
  | none =>
    cases hbarge : plan.bargeLine p d pr with
    | some m =>
      simp only [hidle, hbarge, Option.some.injEq, Prod.mk.injEq] at h
      have hm := List.find?_some (p := fun n => p.destAllows d n && plan.offers[n].isNone &&
        decide ((p.line n).state = .office) && (p.bargeThreshold n).any (pr.val ≤ ·)) hbarge
      obtain ⟨-, hoffer, -⟩ := (plan.barge_iff p d pr m).mp hm
      exact h.1 ▸ hoffer
    | none =>
      simp only [hidle, hbarge, Option.map_eq_some_iff, Prod.mk.injEq] at h
      obtain ⟨m, hvictim, rfl, -⟩ := h
      obtain ⟨c, hc⟩ := Option.isSome_iff_exists.mp
        ((plan.victimLine_keepsBest p d pr).worthy (best := none) (by simp) hvictim)
      obtain ⟨-, -, hoffer, -⟩ := (plan.victim_iff p d pr m c).mp hc
      exact hoffer

/-- The batch of a new call consists of the record judged and records behind it. -/
theorem Part.gather_subset (p : Part) (d : DestNo) (used : List Nat) (l batch : List Record) :
    p.gather d used l batch ⊆ batch ++ l := by
  induction l generalizing batch with
  | nil => simp [Part.gather]
  | cons r l ih =>
    unfold Part.gather
    split
    · exact List.Subset.trans (ih _) (by simp)
    · exact List.Subset.trans (ih _) (by intro x hx; simp at hx ⊢; tauto)

/-- What the judgement of one record does: nothing, a join, or a new call (R128). -/
inductive Plan.judged (plan : Plan) (p : Part) (r : Record) (rest : List Record) : Plan → Prop where
  | waits : plan.judged p r rest plan
  | joins (n : LineNo) (a : Nat) (h : plan.joinMark p r n = some a) : plan.judged p r rest (plan.join p r n)
  | calls (n : LineNo) (kind : OfferKind) (ids : List Nat) (h : plan.offers[n] = none)
      (hids : ids ⊆ (r :: rest).map (·.id)) : plan.judged p r rest
        { plan with
          offers := plan.offers.set n (some { kind, records := ids, dest := p.resolve r.route r.leg, priority := r.priority })
          used := ids ++ plan.used }

theorem Plan.judge_judged (plan : Plan) (p : Part) (r : Record) (rest : List Record) :
    plan.judged p r rest (plan.judge p r rest) := by
  unfold Plan.judge
  cases hjoin : plan.joinLine p r with
  | some n =>
    obtain ⟨a, ha⟩ := Plan.joinLine_some hjoin
    exact .joins n a ha
  | none =>
    simp only
    cases hline : plan.lineFor p (p.resolve r.route r.leg) r.priority with
    | none => exact .waits
    | some e =>
      obtain ⟨n, kind⟩ := e
      simp only
      split
      · refine .calls n kind _ (Plan.lineFor_some hline) ?_
        exact List.map_subset _ (by simpa using p.gather_subset (p.resolve r.route r.leg) plan.used rest [r])
      · exact .waits

/-- What every judgement keeps, the walk through the eligible records keeps. -/
theorem Part.decideFrom_induction {p : Part} {P : Plan → Prop} {l : List Record} {plan : Plan} (h : P plan)
    (hstep : ∀ plan r rest, P plan → (r :: rest) <:+ l → r.id ∉ plan.used → P (plan.judge p r rest)) : P (p.decideFrom l plan) := by
  induction l generalizing plan with
  | nil => exact h
  | cons r l ih =>
    have hrest : ∀ plan r' rest, P plan → (r' :: rest) <:+ l → r'.id ∉ plan.used → P (plan.judge p r' rest) :=
      fun plan r' rest hP hsuffix hused => hstep plan r' rest hP (hsuffix.trans (List.suffix_cons r l)) hused
    by_cases hused : r.id ∈ plan.used
    · rw [Part.decideFrom_used hused]
      exact ih h hrest
    · rw [Part.decideFrom_cons hused]
      exact ih (hstep plan r l h (List.suffix_refl _) hused) hrest

theorem Plan.join_offer_some {plan : Plan} {n : LineNo} {o : Offer} (h : plan.offers[n] = some o) (p : Part) (r : Record) :
    (plan.join p r n).offers[n] =
      some { o with records := o.records ++ [r.id], priority := min o.priority r.priority } := by
  simp only [Plan.join, h]
  exact Vector.getElem_set_self n.isLt

theorem Plan.join_offer_none {plan : Plan} {n : LineNo} (h : plan.offers[n] = none) (p : Part) (r : Record) :
    (plan.join p r n).offers[n] =
      some { kind := .join, records := [r.id], dest := p.resolve r.route r.leg, priority := r.priority } := by
  simp only [Plan.join, h]
  exact Vector.getElem_set_self n.isLt

theorem Plan.join_offer_ne {n m : LineNo} (h : m ≠ n) (plan : Plan) (p : Part) (r : Record) :
    (plan.join p r n).offers[m] = plan.offers[m] :=
  Vector.getElem_set_ne n.isLt m.isLt fun heq => h (Fin.ext heq.symm)

theorem offers_set_ne {n m : LineNo} (h : m ≠ n) (offers : Vector (Option Offer) 4) (o : Option Offer) :
    (offers.set n o)[m] = offers[m] := Vector.getElem_set_ne n.isLt m.isLt fun heq => h (Fin.ext heq.symm)

theorem offers_set_self (n : LineNo) (offers : Vector (Option Offer) 4) (o : Option Offer) : (offers.set n o)[n] = o :=
  Vector.getElem_set_self n.isLt

/-- An offer that no join of this decision has made stays as it is. -/
theorem Part.decideFrom_keepsOffer {p : Part} {l : List Record} {plan : Plan} {n : LineNo} {o : Offer}
    (h : plan.offers[n] = some o) (hjoins : n ∉ plan.joins) : (p.decideFrom l plan).offers[n] = some o := by
  refine (Part.decideFrom_induction (P := fun plan => plan.offers[n] = some o ∧ n ∉ plan.joins) ⟨h, hjoins⟩
    fun plan r rest ⟨ho, hj⟩ _ _ => ?_).1
  have hjudged := plan.judge_judged p r rest
  generalize plan.judge p r rest = plan' at hjudged ⊢
  cases hjudged with
  | waits => exact ⟨ho, hj⟩
  | joins m a hm =>
    obtain ⟨-, -, -, -, -, -, hoffer, -⟩ := Plan.joinMark_some hm
    have hne : n ≠ m := by
      rintro rfl
      rcases hoffer with hoffer | hoffer
      · rw [ho] at hoffer
        exact absurd hoffer nofun
      · exact hj hoffer
    refine ⟨by rw [Plan.join_offer_ne hne, ho], fun hmem => ?_⟩
    exact (List.mem_cons.mp hmem).elim hne hj
  | calls m kind ids hm hids =>
    have hne : n ≠ m := by
      rintro rfl
      rw [ho] at hm
      exact absurd hm nofun
    exact ⟨by rw [offers_set_ne hne, ho], hj⟩

/-! ### The first record joins -/

/-- Before a record has been judged a call may be joined as O50 says (R129). -/
theorem Part.planned_joinMark {p : Part} (hs : p.queue.sound) (r : Record) (n : LineNo) (a : Nat) :
    p.planned.joinMark p r n = some a ↔ ∃ c, p.mayJoin r n c ∧ a = c.mark := by
  have hoffers : p.planned.offers[n] = p.arbiter.offers[n] := rfl
  have hassign : p.arbiter.offers[n] = none → (p.queue.mayAssign r (p.planned.aboard p n) = true ↔
      ∀ e ∈ p.queue.records, e.point = r.point → e.id < r.id → ∃ place, e.call = some place ∧ place.line = n) := fun hnone => by
    have haboard : p.planned.aboard p n = (p.queue.records.filter fun r => r.call.any (·.line = n)).map (·.id) := by
      simp [Plan.aboard, hoffers, hnone]
    have hcalled : ∀ e : Record, (e.call.any (·.line = n)) = true ↔ ∃ place, e.call = some place ∧ place.line = n := fun e => by
      cases e.call <;> simp
    simp only [Queue.mayAssign, List.all_eq_true, decide_eq_true_eq, haboard, List.mem_map, List.mem_filter, and_imp]
    refine forall₂_congr fun e he => forall₂_congr fun _ _ => ?_
    rw [← hcalled]
    exact ⟨fun ⟨x, ⟨hx, hcall⟩, hid⟩ => hs.eq_of_id_eq hx he hid ▸ hcall, fun hcall => ⟨e, ⟨he, hcall⟩, rfl⟩⟩
  constructor
  · intro h
    obtain ⟨c, hcall, ha, hdest, hend, hroom, hoffer, hmay⟩ := Plan.joinMark_some h
    rw [hoffers] at hroom hoffer
    have hnone : p.arbiter.offers[n] = none := hoffer.resolve_right (by simp [Part.planned])
    rw [hnone] at hroom
    exact ⟨c, ⟨hcall, hdest, hend, hroom, hnone, (hassign hnone).mp hmay⟩, ha⟩
  · rintro ⟨c, ⟨hcall, hdest, hend, hroom, hnone, hearlier⟩, rfl⟩
    have hmay := (hassign hnone).mpr hearlier
    simp [Plan.joinMark, hcall, hdest, hend, hoffers, hnone, hroom, hmay, Config.callPlaces]

theorem Part.planned_joinLine_none {p : Part} (hs : p.queue.sound) {r : Record} (h : ∀ n c, ¬ p.mayJoin r n c) :
    p.planned.joinLine p r = none := Plan.joinLine_none fun n => by
  cases hmark : p.planned.joinMark p r n with
  | none => rfl
  | some a =>
    obtain ⟨c, hc, -⟩ := (Part.planned_joinMark hs r n a).mp hmark
    exact absurd hc (h n c)

/-- The join offer to a line as O50 says it, while the decision goes on (R128, R129). -/
def Plan.joinOffered (p : Part) (r : Record) (rest : List Record) (n : LineNo) (c : Call) (plan : Plan) : Prop :=
  n ∈ plan.joins ∧ ∃ o, plan.offers[n] = some o ∧ o.kind = .join ∧ o.dest = p.resolve r.route r.leg ∧ o.priority = r.priority ∧
    o.records.head? = some r.id ∧ c.reports.length + o.records.length ≤ 4 ∧
    ∀ k ∈ o.records, ∃ x ∈ r :: rest, x.id = k ∧ p.resolve x.route x.leg = p.resolve r.route r.leg

theorem Plan.joinOffered_judge {p : Part} {r : Record} {rest : List Record} {n : LineNo} {c : Call} {plan : Plan}
    (hcall : (p.line n).call = some c) (hdest : c.dest = p.resolve r.route r.leg) (h : plan.joinOffered p r rest n c)
    {x : Record} (hx : x ∈ rest) (hpriority : r.priority ≤ x.priority) (later : List Record) :
    (plan.judge p x later).joinOffered p r rest n c := by
  obtain ⟨hjoins, o, ho, hkind, hodest, hopriority, hhead, hroom, hrecords⟩ := h
  have hjudged := plan.judge_judged p x later
  generalize plan.judge p x later = plan' at hjudged ⊢
  cases hjudged with
  | waits => exact ⟨hjoins, o, ho, hkind, hodest, hopriority, hhead, hroom, hrecords⟩
  | joins m a hm =>
    refine ⟨List.mem_cons_of_mem _ hjoins, ?_⟩
    by_cases hmn : n = m
    · subst hmn
      obtain ⟨c', hcall', -, hdest', -, hroom', -⟩ := Plan.joinMark_some hm
      obtain rfl : c = c' := Option.some.inj (hcall.symm.trans hcall')
      simp only [ho] at hroom'
      refine ⟨_, Plan.join_offer_some ho p x, hkind, hodest, ?_, ?_, ?_, fun k hk => ?_⟩
      · simp only [hopriority]
        exact min_eq_left hpriority
      · cases hl : o.records with
        | nil => simp [hl] at hhead
        | cons y l => simpa [hl] using hhead
      · simp only [List.length_append, List.length_singleton]
        omega
      · rcases List.mem_append.mp hk with hk | hk
        · exact hrecords k hk
        · exact ⟨x, List.mem_cons_of_mem _ hx, (List.mem_singleton.mp hk).symm, hdest'.symm.trans hdest⟩
    · exact ⟨o, by rw [Plan.join_offer_ne hmn, ho], hkind, hodest, hopriority, hhead, hroom, hrecords⟩
  | calls m kind ids hm hids =>
    have hne : n ≠ m := by
      rintro rfl
      rw [ho] at hm
      exact absurd hm nofun
    exact ⟨hjoins, o, by rw [offers_set_ne hne, ho], hkind, hodest, hopriority, hhead, hroom, hrecords⟩

/-! ### The batch of a new call -/

/-- The records of a destination, the earliest four. -/
def Part.batch (p : Part) (d : DestNo) (l : List Record) : List Record :=
  (l.filter fun x => decide (p.resolve x.route x.leg = d)).take 4

/-- The walk that gathers a batch takes the earliest four of its destination, where no record has an earlier one of its
point that is not among them (R130). -/
theorem Part.gather_eq {p : Part} {d : DestNo} {all : List Record}
    (hsorted : all.Pairwise fun a b => a.priority < b.priority ∨ (a.priority = b.priority ∧ a.id < b.id))
    (hearlier : ∀ x ∈ all, p.resolve x.route x.leg = d → ∀ e ∈ p.queue.records, e.point = x.point → e.id < x.id →
      e ∈ all ∧ p.resolve e.route e.leg = d ∧ e.priority ≤ x.priority) {l pre : List Record} (hall : pre ++ l = all) :
    p.gather d [] l (p.batch d pre) = p.batch d all := by
  induction l generalizing pre with
  | nil => rw [Part.gather, ← hall, List.append_nil]
  | cons x l ih =>
    have hnext := ih (pre := pre ++ [x]) (by rw [List.append_assoc]; exact hall)
    have hsplit : p.batch d (pre ++ [x]) = if p.resolve x.route x.leg = d ∧ (p.batch d pre).length < 4 then
        p.batch d pre ++ [x] else p.batch d pre := by
      simp only [Part.batch, List.filter_append, List.take_append, List.length_take]
      by_cases hdest : p.resolve x.route x.leg = d
      · simp only [hdest, true_and, List.filter_cons, decide_true, if_true, List.filter_nil]
        split <;> rename_i hlen
        · rw [List.take_of_length_le (l := [x]) (by simp; omega)]
        · rw [show 4 - (pre.filter fun x => decide (p.resolve x.route x.leg = d)).length = 0 by omega, List.take_zero,
            List.append_nil]
      · simp [hdest]
    rw [← hnext, hsplit, Part.gather]
    refine if_congr ?_ rfl rfl |>.trans (apply_ite _ _ _ _).symm
    refine ⟨fun ⟨hlen, _, hdest, _⟩ => ⟨hdest, hlen⟩, fun ⟨hdest, hlen⟩ => ⟨hlen, by simp, hdest, ?_⟩⟩
    simp only [Queue.mayAssign, List.all_eq_true, decide_eq_true_eq]
    rintro e he ⟨hpoint, hid⟩
    obtain ⟨hmem, hedest, hle⟩ := hearlier x (by rw [← hall]; simp) hdest e he hpoint hid
    rw [← hall] at hmem hsorted
    have hbefore : e ∈ pre := by
      rcases List.mem_append.mp hmem with hmem | hmem
      · exact hmem
      · exfalso
        rcases List.mem_cons.mp hmem with rfl | hmem
        · exact lt_irrefl _ hid
        · rcases (List.pairwise_cons.mp (List.pairwise_append.mp hsorted).2.1).1 e hmem with hlt | ⟨-, hlt⟩
          · exact absurd (lt_of_lt_of_le hlt hle) (lt_irrefl _)
          · omega
    refine List.mem_map_of_mem ?_
    have hfull : p.batch d pre = pre.filter fun x => decide (p.resolve x.route x.leg = d) := by
      refine List.take_of_length_le ?_
      by_contra hlong
      have hshort : ((pre.filter fun x => decide (p.resolve x.route x.leg = d)).take 4).length < 4 := hlen
      rw [List.length_take] at hshort
      omega
    rw [hfull]
    exact List.mem_filter.mpr ⟨hbefore, decide_eq_true hedest⟩

/-! ### The first record has no place -/

/-- No offer names a record. -/
def Plan.silentOf (id : Nat) (plan : Plan) : Prop := ∀ (n : LineNo) o, plan.offers[n] = some o → id ∉ o.records

theorem Plan.silentOf_judge {p : Part} {id : Nat} {plan : Plan} (h : plan.silentOf id) {x : Record} {rest : List Record}
    (hx : ∀ y ∈ x :: rest, y.id ≠ id) : (plan.judge p x rest).silentOf id := by
  have hjudged := plan.judge_judged p x rest
  generalize plan.judge p x rest = plan' at hjudged ⊢
  have hne := hx x (List.mem_cons_self ..)
  intro n o ho
  cases hjudged with
  | waits => exact h n o ho
  | joins m a hm =>
    by_cases hnm : n = m
    · subst hnm
      cases hoffer : plan.offers[n] with
      | none =>
        rw [Plan.join_offer_none hoffer, Option.some.injEq] at ho
        rw [← ho]
        simpa using hne.symm
      | some b =>
        rw [Plan.join_offer_some hoffer, Option.some.injEq] at ho
        rw [← ho]
        simpa using ⟨h n b hoffer, hne.symm⟩
    · rw [Plan.join_offer_ne hnm] at ho
      exact h n o ho
  | calls m kind ids hm hids =>
    by_cases hnm : n = m
    · subst hnm
      rw [offers_set_self, Option.some.injEq] at ho
      rw [← ho]
      intro hid
      obtain ⟨y, hy, hyid⟩ := List.mem_map.mp (hids hid)
      exact hx y hy hyid
    · rw [offers_set_ne hnm] at ho
      exact h n o ho

theorem Plan.judge_findsNone {plan : Plan} {p : Part} {r : Record} (hjoin : plan.joinLine p r = none)
    (hnone : plan.lineFor p (p.resolve r.route r.leg) r.priority = none) (rest : List Record) : plan.judge p r rest = plan := by
  simp only [Plan.judge, hjoin, hnone]

/-- A new call for a record and its batch (R130). -/
theorem Plan.judge_finds {plan : Plan} {p : Part} {r : Record} {n : LineNo} {kind : OfferKind} (hjoin : plan.joinLine p r = none)
    (hline : plan.lineFor p (p.resolve r.route r.leg) r.priority = some (n, kind)) (hfirst : p.queue.firstOfPoint r)
    (rest : List Record) : plan.judge p r rest =
      let ids := (p.gather (p.resolve r.route r.leg) plan.used rest [r]).map (·.id)
      { plan with
        offers := plan.offers.set n (some { kind, records := ids, dest := p.resolve r.route r.leg, priority := r.priority })
        used := ids ++ plan.used } := by
  simp only [Plan.judge, hjoin, hline, Queue.mayAssign_nil_of_first hfirst, if_true]

/-- Where a new call has been offered to a line, the next record may join only what it could join before. -/
theorem Plan.joinMark_offered {plan plan' : Plan} {p : Part} {x : Record} {n m : LineNo} {o : Offer}
    (hjoins : plan'.joins = plan.joins) (hoffers : plan'.offers = plan.offers.set n (some o)) (hnot : n ∉ plan.joins)
    (h : plan.joinMark p x m = none) : plan'.joinMark p x m = none := by
  cases hmark : plan'.joinMark p x m with
  | none => rfl
  | some a =>
    obtain ⟨c, hcall, -, hdest, hend, hroom, hoffer, hmay⟩ := Plan.joinMark_some hmark
    by_cases hmn : m = n
    · subst hmn
      rw [hoffers, offers_set_self, hjoins] at hoffer
      exact absurd (hoffer.resolve_left nofun) hnot
    · have hsame : plan'.offers[m] = plan.offers[m] := by
        simp only [hoffers]
        exact offers_set_ne hmn _ _
      have haboard : plan'.aboard p m = plan.aboard p m := by simp only [Plan.aboard, hsame]
      rw [hsame] at hroom hoffer
      rw [hjoins] at hoffer
      rw [haboard] at hmay
      have hmark' : plan.joinMark p x m = some c.mark := by
        simp only [Plan.joinMark, hcall, hdest, hend, hmay, Option.isNone_iff_eq_none]
        exact if_pos ⟨trivial, rfl, hroom, hoffer, trivial⟩
      rw [h] at hmark'
      exact absurd hmark' nofun

/-- Settles O50: the walk through the service order by its first judgement and by what the later ones keep. -/
theorem decisionsFollowTheServiceOrder : Obligations.DecisionsFollowTheServiceOrder := by
  intro r rest s hm hpending hcur hs hserviceOrder
  have hservice := Part.service_eq (List.pairwise_map.mp hs.2.1) hserviceOrder
  obtain ⟨hsorted, hmem⟩ := hserviceOrder
  have hexec := State.decision_spec hm hpending hcur
  rw [hservice, Part.decideFrom_cons (by simp [Part.planned])] at hexec
  have heligible := fun x hx => (hmem x).mp hx
  have hpriority : ∀ x ∈ rest, r.priority ≤ x.priority := fun x hx => by
    rcases (List.pairwise_cons.mp hsorted).1 x hx with h | ⟨h, -⟩
    · exact le_of_lt h
    · exact le_of_eq h
  have hids : ∀ x ∈ rest, x.id ≠ r.id := fun x hx hid => by
    have heq := hs.eq_of_id_eq (heligible x (List.mem_cons_of_mem _ hx)).1 (heligible r (List.mem_cons_self ..)).1 hid
    rw [heq] at hx
    rcases (List.pairwise_cons.mp hsorted).1 r hx with h | ⟨-, h⟩
    · exact lt_irrefl _ h
    · exact lt_irrefl _ h
  refine ⟨⟨_, hexec, ⟨rfl, rfl, rfl, Part.decided_keeps _ _⟩, rfl, rfl, fun n o ho => ?_⟩, fun n c hjoin hearliest => ?_,
    fun hnojoin hfirst => ⟨fun n kind hfinds hearlier => ?_, fun hnone => ?_, fun x hrest hnojoin' hfirst' =>
      ⟨fun hnone n kind hfinds => ?_, fun n m hfinds hdest hmn hidle hlower => ?_⟩⟩⟩
  · have hkept := Part.decideFrom_keepsOffer (p := s.part) (l := r :: rest) (plan := s.part.planned) ho (by simp [Part.planned])
    rw [Part.decideFrom_cons (by simp [Part.planned])] at hkept
    exact hkept
  · have hmark := (Part.planned_joinMark hs r n c.mark).mpr ⟨c, hjoin, rfl⟩
    have hline : s.part.planned.joinLine s.part r = some n := Plan.joinLine_eq hmark fun m hmn b hb => by
      obtain ⟨c', hc', rfl⟩ := (Part.planned_joinMark hs r m b).mp hb
      exact hearliest m c' hmn hc'
    obtain ⟨hcall, hdest, -, hroom, hoffer, -⟩ := hjoin
    have hjudge : s.part.planned.judge s.part r rest = s.part.planned.join s.part r n := by simp only [Plan.judge, hline]
    have hbegin : (s.part.planned.join s.part r n).joinOffered s.part r rest n c :=
      ⟨List.mem_cons_self .., _, Plan.join_offer_none hoffer s.part r, rfl, rfl, rfl, rfl, hroom, fun k hk =>
        ⟨r, List.mem_cons_self .., (List.mem_singleton.mp hk).symm, rfl⟩⟩
    obtain ⟨-, o, ho, hkind, hodest, hopriority, hhead, hlen, hrecords⟩ :=
      Part.decideFrom_induction (p := s.part) (P := Plan.joinOffered s.part r rest n c) (l := rest) hbegin
        fun plan x later hP hsuffix _ => Plan.joinOffered_judge hcall hdest hP (hsuffix.subset (List.mem_cons_self ..))
          (hpriority x (hsuffix.subset (List.mem_cons_self ..))) later
    rw [hjudge] at hexec
    exact ⟨_, hexec, o, ho, hkind, hodest, hopriority, hhead, hlen, hrecords⟩
  · have hjudge := Plan.judge_finds (Part.planned_joinLine_none hs hnojoin)
      (Plan.lineFor_of_finds (plan := s.part.planned) hfinds) hfirst rest
    have hbatch : s.part.gather (s.part.resolve r.route r.leg) s.part.planned.used rest [r] =
        s.part.batch (s.part.resolve r.route r.leg) (r :: rest) := by
      have hbegin : s.part.batch (s.part.resolve r.route r.leg) [r] = [r] := by simp [Part.batch]
      rw [← Part.gather_eq hsorted (fun x hx hdest e he hpoint hid => ?_) (pre := [r]) rfl, hbegin]
      · rfl
      · rcases List.mem_cons.mp hx with rfl | hx
        · exact absurd (hfirst e he hpoint) (by omega)
        · exact hearlier x hx hdest e he hpoint hid
    have hkept := Part.decideFrom_keepsOffer (p := s.part) (l := rest) (plan := s.part.planned.judge s.part r rest) (n := n)
      (o := { kind, records := (s.part.batch (s.part.resolve r.route r.leg) (r :: rest)).map (·.id)
              dest := s.part.resolve r.route r.leg, priority := r.priority })
      (by rw [hjudge, hbatch]; exact offers_set_self _ _ _) (by rw [hjudge]; simp [Part.planned])
    exact ⟨_, hexec, hkept⟩
  · have hjudge := Plan.judge_findsNone (Part.planned_joinLine_none hs hnojoin)
      (Plan.lineFor_of_findsNone (plan := s.part.planned) hnone) rest
    obtain ⟨-, -, -, hsilent, -⟩ := (Part.eligible_iff s.part r).mp (heligible r (List.mem_cons_self ..)).2
    rw [hjudge] at hexec
    exact ⟨_, hexec, Part.decideFrom_induction (p := s.part) (P := Plan.silentOf r.id) (l := rest) hsilent
      fun plan x later hP hsuffix _ => Plan.silentOf_judge hP fun y hy => hids y (hsuffix.subset hy)⟩
  · subst hrest
    have hjudge := Plan.judge_findsNone (Part.planned_joinLine_none hs hnojoin)
      (Plan.lineFor_of_findsNone (plan := s.part.planned) hnone) [x]
    have hjudge' := Plan.judge_one (Part.planned_joinLine_none hs hnojoin')
      (Plan.lineFor_of_finds (plan := s.part.planned) hfinds) hfirst'
    rw [hjudge, Part.decideFrom_cons (by simp [Part.planned]), hjudge'] at hexec
    exact ⟨_, hexec, offers_set_self _ _ _⟩
  · subst hrest
    have hjudge := Plan.judge_finds (Part.planned_joinLine_none hs hnojoin)
      (Plan.lineFor_of_finds (plan := s.part.planned) hfinds) hfirst [x]
    have hbatch : s.part.gather (s.part.resolve r.route r.leg) s.part.planned.used [x] [r] = [r] := by
      simp [Part.gather, hdest]
    rw [hbatch] at hjudge
    generalize hplan : s.part.planned.judge s.part r [x] = plan at hjudge hexec
    have hoffers : plan.offers = s.part.planned.offers.set n (some { kind := .idleGrant, records := [r.id]
                                                                     dest := s.part.resolve r.route r.leg
                                                                     priority := r.priority }) := by
      rw [hjudge]
      rfl
    have hjoins : plan.joins = s.part.planned.joins := by rw [hjudge]
    have hnomark : plan.joinLine s.part x = none := Plan.joinLine_none fun k =>
      Plan.joinMark_offered hjoins hoffers (by simp [Part.planned]) (by
        cases hmark : s.part.planned.joinMark s.part x k with
        | none => rfl
        | some a =>
          obtain ⟨c, hc, -⟩ := (Part.planned_joinMark hs x k a).mp hmark
          exact absurd hc (hnojoin' k c))
    have hfree : ∀ k : LineNo, k ≠ n → (plan.on s.part).arbiter.offers[k] = s.part.arbiter.offers[k] := fun k hk => by
      show plan.offers[k] = _
      simp only [hoffers]
      exact offers_set_ne hk _ _
    have hfound : (plan.on s.part).finds (s.part.resolve x.route x.leg) x.priority m .idleGrant := by
      obtain ⟨hallows, hoffer, hstate⟩ := hidle
      refine .inl ⟨rfl, ⟨hallows, (hfree m hmn).trans hoffer, hstate⟩, fun k hk ⟨hkallows, hkoffer, hkstate⟩ => ?_⟩
      by_cases hkn : k = n
      · subst hkn
        have hset : plan.offers[k] = none := hkoffer
        simp only [hoffers] at hset
        rw [offers_set_self] at hset
        exact absurd hset nofun
      · exact hlower k hk hkn ⟨hkallows, (hfree k hkn).symm.trans hkoffer, hkstate⟩
    have hjudge' := Plan.judge_one hnomark (Plan.lineFor_of_finds hfound) hfirst'
    have hused : x.id ∉ plan.used := by
      rw [hjudge]
      simpa [Part.planned] using hids x (by simp)
    rw [Part.decideFrom_cons hused, hjudge'] at hexec
    exact ⟨_, hexec, offers_set_self _ _ _⟩

end Sys2Proof.Machine
end

section
/-! PROOFS. Requests and withdrawals (R65 to R74). -/

namespace Sys2Proof.Machine

/-! ### What operations of the queue make -/

theorem Part.removeRecord_makes (id : Nat) (p : Part) : p.makes [] [] (p.removeRecord id) := Part.setRecords_makes _ p

theorem Part.droppedLog_of_mirrors {p q : Part} (h : q.mirrors = p.mirrors) (kind : LogKind) (r : Record) :
    q.droppedLog kind r = p.droppedLog kind r := by
  rw [Part.droppedLog, Part.resolve_of_mirrors h, Part.droppedLog]

theorem Part.withdraw_makes (r : Record) (p : Part) :
    p.makes [p.droppedLog .withdrawn r] [.notice .withdrawal r.point] (p.withdraw r) :=
  ((p.removeRecord_makes r.id).trans (Part.makeLog_makes _ _)).trans (Part.tell_makes _ _)

theorem Part.withdraw_records (r : Record) (p : Part) :
    (p.withdraw r).queue = { p.queue with records := p.queue.records.filter (·.id ≠ r.id) } := by
  rw [Part.withdraw, Part.tell_queue, Part.makeLog_queue, Part.removeRecord, Part.setRecords_queue]

/-- Every WAITING and HELD record of a point is withdrawn (R74). -/
theorem Part.withdrawPoint_makes (i : PointNo) (p : Part) :
    p.makes ((p.queue.chain i).map (p.droppedLog .withdrawn)) ((p.queue.chain i).map fun _ => .notice .withdrawal i)
      (p.withdrawPoint i) := by
  have hmakes := Part.makes_foldl (f := fun q (r : Record) => q.withdraw r) (logs := fun r => [p.droppedLog .withdrawn r])
    (work := fun _ => [.notice .withdrawal i]) (p := p) (l := p.queue.chain i) fun q hq r hr => by
      have hpoint : r.point = i := by
        have h := (List.mem_filter.mp hr).2
        rw [decide_eq_true_eq] at h
        exact h.1
      have hstep := q.withdraw_makes r
      rw [Part.droppedLog_of_mirrors hq.mirrors, hpoint] at hstep
      exact hstep
  rw [← List.map_eq_flatMap, ← List.map_eq_flatMap] at hmakes
  exact hmakes

theorem Part.withdraw_foldl_records (l : List Record) (p : Part) : (l.foldl (fun q r => q.withdraw r) p).queue =
    { p.queue with records := p.queue.records.filter fun z => l.all fun r => decide (z.id ≠ r.id) } := by
  induction l generalizing p with
  | nil => simp
  | cons r l ih =>
    rw [List.foldl_cons, ih, Part.withdraw_records]
    refine congrArg (fun rs => ({ p.queue with records := rs } : Queue)) ?_
    rw [List.filter_filter]
    exact List.filter_congr fun z _ => by rw [List.all_cons, Bool.and_comm]

/-- Withdrawal leaves the records of the other points and those in calls (R74). -/
theorem Part.withdrawPoint_records {p : Part} (h : p.queue.told) (i : PointNo) : (p.withdrawPoint i).queue =
    { p.queue with records := p.queue.records.filter fun r => !(decide (r.point = i) && r.chained) } := by
  rw [Part.withdrawPoint, Part.withdraw_foldl_records]
  refine congrArg (fun rs => ({ p.queue with records := rs } : Queue)) (List.filter_congr fun z hz => ?_)
  rw [Bool.eq_iff_iff]
  simp only [List.all_eq_true, decide_eq_true_eq, Bool.not_eq_true', Bool.and_eq_false_iff, decide_eq_false_iff_not]
  constructor
  · intro hall
    by_contra hnot
    push Not at hnot
    refine hall z (List.mem_filter.mpr ⟨hz, ?_⟩) rfl
    simpa using hnot
  · intro hnot r hr hid
    obtain ⟨hmem, hchain⟩ := List.mem_filter.mp hr
    rw [decide_eq_true_eq] at hchain
    rw [h.eq_of_id_eq hz hmem hid] at hnot
    rcases hnot with hnot | hnot
    · exact hnot hchain.1
    · rw [hchain.2] at hnot
      exact absurd hnot (by simp)

theorem Part.withdrawn_of {p : Part} (h : p.queue.told) (hm : p.mode.serving = true) (i : PointNo) :
    p.withdrawn i (p.withdrawPoint i) :=
  ⟨by rw [Part.withdrawPoint_records h], fun hh => (p.withdrawPoint_makes i).logged hm hh⟩

theorem Part.admission_makes (rq : Request) (p : Part) : p.makes [] [] (p.admission rq) := by
  have hnext : p.makes [] [] { p with queue := { p.queue with nextId := p.queue.nextId + 1 } } :=
    Part.makes_of_keeps (bs := [.queue]) (fun b hb => by cases b <;> simp [Block.same] at hb ⊢) (Bus.keepsButEntries_refl _) (by simp)
  exact (hnext.trans (Part.setRecords_makes (p.queue.records ++ [p.newRecord rq]) _)).trans (Part.occasion_makes _)

theorem Part.foldTold_makes (x : Record) (p : Part) : p.makes [] [] (p.foldTold x) := by
  unfold Part.foldTold
  split
  · exact p.occasion_makes
  · exact p.makes_refl

theorem Part.changeRecord_makes (id : Nat) (f : Record → Record) (p : Part) : p.makes [] [] (p.changeRecord id f) :=
  Part.setRecords_makes _ p

theorem Part.foldl_makeLog_makes (logs : List LogRecord) (p : Part) :
    p.makes logs [] (logs.foldl (fun q l => q.makeLog l) p) := by
  have hmakes := Part.makes_foldl (f := fun q (l : LogRecord) => q.makeLog l) (logs := fun l => [l]) (work := fun _ => [])
    (p := p) (l := logs) fun q _ l _ => Part.makeLog_makes l q
  rw [← List.map_eq_flatMap, List.map_id', List.flatMap_eq_nil_iff.mpr fun _ _ => rfl] at hmakes
  exact hmakes

/-- The records evicted, in admission order (R72). -/
def Queue.gone (q : Queue) (v : Record) : List Record :=
  q.records.filter fun z => decide (z.point = v.point ∧ v.id ≤ z.id) && z.chained

theorem Queue.victims_eq (q : Queue) (v : Record) : q.victims v = q.gone v := by
  rw [Queue.victims, Queue.chain, List.filter_filter, Queue.gone]
  exact List.filter_congr fun z _ => by
    by_cases h₁ : z.point = v.point <;> by_cases h₂ : v.id ≤ z.id <;> simp [h₁, h₂]

theorem Part.evicted_makes (v : Record) (p : Part) :
    p.makes ((p.queue.gone v).map (p.droppedLog .evicted)) [.notice .eviction v.point] (p.evicted v) ∧
      p.causeSet .queue (p.evicted v) ∧ (p.evicted v).arbiter = p.arbiter := by
  have hrecords := Part.setRecords_makes (p.queue.records.filter (· ∉ p.queue.victims v)) p
  have hlogs := Part.foldl_makeLog_makes ((p.queue.victims v).map (p.droppedLog .evicted))
    (p.setRecords (p.queue.records.filter (· ∉ p.queue.victims v)))
  have hraise := Part.raise_makes .queue (((p.queue.victims v).map (p.droppedLog .evicted)).foldl (fun q l => q.makeLog l)
    (p.setRecords (p.queue.records.filter (· ∉ p.queue.victims v))))
  have htell := Part.tell_makes (.notice .eviction v.point) (Part.raise .queue
    (((p.queue.victims v).map (p.droppedLog .evicted)).foldl (fun q l => q.makeLog l)
      (p.setRecords (p.queue.records.filter (· ∉ p.queue.victims v)))))
  refine ⟨?_, fun hen => ?_, ?_⟩
  · rw [← Queue.victims_eq]
    have hall := ((hrecords.trans hlogs).trans hraise).trans htell
    simp only [List.nil_append, List.append_nil] at hall
    exact hall
  · refine Part.raise_causeSet .queue _ ?_
    rwa [Part.causeEnable, Part.mirror_of_mirrors (hrecords.trans hlogs).keeps.mirrors]
  · rw [Part.evicted, Part.tell_arbiter, Part.raise_arbiter, foldl_keeps Part.arbiter _ (fun q l => Part.makeLog_arbiter l q),
      Part.setRecords_arbiter]

/-- The log record of a refusal (R85). -/
def Part.refusedLog (rq : Request) (p : Part) : LogRecord :=
  { kind := .refused, dest := BitVec.ofNat 3 (p.primaryDest rq.route).val, sense := rq.sense.code
    point := BitVec.ofNat 9 rq.point.val, code := rq.code }

theorem Part.refuse_makes (rq : Request) (p : Part) : p.makes [(p.refusedLog rq).stamp p.now] [] (p.refuse rq) ∧
    p.causeSet .queue (p.refuse rq) ∧ (p.refuse rq).queue = p.queue ∧ (p.refuse rq).arbiter = p.arbiter := by
  have hlog := Part.logNow_makes (p.refusedLog rq) p
  refine ⟨hlog.trans (Part.raise_makes _ _), fun hen => ?_, ?_, ?_⟩
  · refine Part.raise_causeSet .queue (p.logNow (p.refusedLog rq)) ?_
    rwa [Part.causeEnable, Part.mirror_of_mirrors hlog.keeps.mirrors]
  · exact (Part.raise_queue _ _).trans (Part.logNow_keeps (p.refusedLog rq) p).queue
  · exact (Part.raise_arbiter _ _).trans (Part.logNow_keeps (p.refusedLog rq) p).arbiter

/-! ### The victim -/

/-- The victim of a full queue is the record that gives way (R71). -/
theorem Queue.victim_of_givesWay {q : Queue} (h : q.sound) {v : Record} (hv : q.givesWay v) : q.victim = some v := by
  obtain ⟨hmem, hchained, hlast⟩ := hv
  have hrising : (q.records.filter (·.chained)).Pairwise fun a b => a.id < b.id :=
    (List.pairwise_map.mp h.2.1).filter _
  have hin : v ∈ q.records.filter (·.chained) := List.mem_filter.mpr ⟨hmem, hchained⟩
  have hall : ∀ z ∈ q.records.filter (·.chained), z.priority < v.priority ∨ (z.priority = v.priority ∧ z.id ≤ v.id) :=
    fun z hz => hlast z (List.mem_filter.mp hz).1 (List.mem_filter.mp hz).2
  obtain ⟨pre, post, hsplit⟩ := List.append_of_mem hin
  rw [Queue.victim, hsplit]
  rw [hsplit] at hrising hall
  have hpost : ∀ z ∈ post, ¬ v.priority ≤ z.priority := fun z hz hle => by
    have hlater : v.id < z.id := (List.pairwise_cons.mp (List.pairwise_append.mp hrising).2.1).1 z hz
    rcases hall z (by simp [hz]) with hlt | ⟨-, hid⟩
    · exact absurd (lt_of_lt_of_le hlt hle) (lt_irrefl _)
    · omega
  rw [List.foldl_append, List.foldl_cons]
  have hbest : ∀ best : Option Record, (∀ b, best = some b → b.priority ≤ v.priority) →
      (match best with
        | some b => if b.priority ≤ v.priority then some v else some b
        | none => some v) = some v := fun best hle => by
    cases best with
    | none => rfl
    | some b => exact if_pos (hle b rfl)
  refine (congrArg (fun best => post.foldl _ best) (hbest _ fun b hb => ?_)).trans
    (List.foldl_of_fixed fun z hz => if_neg (hpost z hz))
  · rcases victim_foldl hb with hb | hb
    · rcases hall b (by simp [hb]) with hlt | ⟨heq, -⟩
      · exact le_of_lt hlt
      · exact le_of_eq heq
    · exact absurd hb nofun

/-! ### Admissions -/

/-- A request admitted behind the records that stay (R60, R68). -/
theorem Part.admittedAfter_of {p q : Part} {rq : Request} {stay : List Record} (hrecords : q.queue.records = stay)
    (hcount : q.queue.count < Config.queuePlaces) (hkeeps : p.keepsBut [.bus, .notice, .points, .queue, .arbiter] q) :
    p.admittedAfter rq stay (q.admission rq) := by
  obtain ⟨hfree, hlower⟩ := Queue.freeSlot_spec hcount
  have hmirror := Part.mirror_of_mirrors hkeeps.mirrors
  have hlast : (q.route rq.route).lastLeg = (p.route rq.route).lastLeg := by rw [Part.route, hkeeps.routes, Part.route]
  refine ⟨q.newRecord rq, ?_, rfl, rfl, rfl, rfl, rfl, rfl, rfl, rfl, ?_, rfl, rfl, rfl, rfl, ?_, rfl, ?_, ?_, rfl⟩
  · rw [Part.admission_queue, hrecords]
  · rw [Part.newRecord, Part.stickyLeg, hmirror, hlast, Part.stickyLeg]
  · show q.now = p.now
    rw [Part.now, hkeeps.time, Part.now]
  · rw [← hrecords]
    exact hfree
  · rw [← hrecords]
    exact hlower

/-- What happens in the same step after a request leaves of it. -/
structure Part.follows (later : List LogRecord) (p q : Part) : Prop where
  queue : q.queue = p.queue
  arbiter : q.arbiter = p.arbiter
  work : q.points.work = p.points.work
  logged : p.logsMade later q
  causes : ∀ i, p.notice.causes.getLsbD i = true → q.notice.causes.getLsbD i = true

/-- The log records of a request and of what follows it. -/
theorem Part.makes.followed {logs later : List LogRecord} {work : List Work} {p q r : Part} (h : p.makes logs work q)
    (k : q.follows later r) : p.logsMade (logs ++ later) r := fun hm hh => by
  rw [k.logged (by rw [h.keeps.mode]; exact hm) (by rw [h.heads]; exact hh), h.logged hm hh, List.append_assoc]

theorem Part.causeSet.followed {later : List LogRecord} {p q r : Part} {c : Cause} (h : p.causeSet c q) (k : q.follows later r) :
    p.causeSet c r := fun hen => k.causes _ (h hen)

/-- A request that the table of R65 lets be appended (R68, R71 to R73). -/
theorem Part.placed_of_append {p q : Part} {rq : Request} {later : List LogRecord} (hs : p.queue.sound)
    (hwork : p.points.work = []) (happend : placement rq.sense (p.queue.chain rq.point) = .append)
    (hq : (p.request rq).1.follows later q)
    (howed : (p.request rq).2 = .refused → rq.point.val < 263 → (q.shadow rq.point).owed = true) : p.placed rq later q := by
  unfold Part.placed
  by_cases hroom : p.queue.count < Config.queuePlaces
  · have hrequest : p.request rq = (p.admission rq, .admitted) := by simp [Part.request, happend, hroom]
    rw [hrequest] at hq
    rw [if_pos hroom]
    have hmakes := p.admission_makes rq
    obtain ⟨r, hr⟩ := Part.admittedAfter_of (p := p) (rq := rq) rfl hroom (Part.keepsBut_refl _ p)
    refine ⟨⟨r, ?_⟩, by simpa using hmakes.followed hq, ?_⟩
    · rw [hq.queue, hq.arbiter]
      exact hr
    · rw [hq.work, hmakes.points, hwork]
      rfl
  · rw [if_neg hroom]
    intro v hv
    have hvictim := Queue.victim_of_givesWay hs hv
    by_cases hless : rq.priority < v.priority ∧ v.point ≠ rq.point
    · have hrequest : p.request rq = (p.evict v rq, .admitted) := by simp [Part.request, happend, hroom, hvictim, hless]
      rw [hrequest, Part.evict_eq] at hq
      rw [if_pos hless]
      obtain ⟨hevicted, hcause, -⟩ := p.evicted_makes v
      have hmakes := hevicted.trans ((p.evicted v).admission_makes rq)
      have hcount := Part.evicted_count hs hv.1 hv.2.1
      obtain ⟨r, hr⟩ := Part.admittedAfter_of (p := p) (rq := rq) (stay := p.queue.records.filter (· ∉ p.queue.gone v))
        (by rw [Part.evicted_queue, Queue.victims_eq]) hcount hevicted.keeps
      refine ⟨(hcause.trans_makes ((p.evicted v).admission_makes rq)).followed hq, ⟨r, ?_⟩, ?_, ?_⟩
      · rw [hq.queue, hq.arbiter]
        exact hr
      · have hlogs := hmakes.followed hq
        rw [List.append_nil] at hlogs
        exact hlogs
      · rw [hq.work, hmakes.points, hwork]
        rfl
    · have hrequest : p.request rq = (p.refuse rq, .refused) := by
        simp only [Part.request, happend, hroom, if_false, hvictim]
        exact if_neg hless
      rw [hrequest] at hq howed
      rw [if_neg hless]
      obtain ⟨hmakes, hcause, hqueue, harbiter⟩ := p.refuse_makes rq
      exact ⟨hcause.followed hq, hq.queue.trans hqueue, hq.arbiter.trans harbiter, by rw [hq.work, hmakes.points, hwork]; rfl,
        howed rfl, hmakes.followed hq⟩

/-! ### Folds -/

theorem Record.fold1_eq (rq : Request) (x : Record) : x.fold1 rq 0 = x.foldedOnce rq := by
  obtain ⟨point, sense, code, priority, route, unrouted⟩ := rq
  cases sense <;> rfl

theorem Record.fold2_eq (rq : Request) (x : Record) : x.fold2 rq 0 = x.foldedTwice rq := by
  obtain ⟨point, sense, code, priority, route, unrouted⟩ := rq
  cases sense <;> rfl

theorem Part.foldTold_arbiter (x : Record) (p : Part) : (p.foldTold x).arbiter.decisionPending =
    (p.arbiter.decisionPending || decide (x.state = .waiting)) := by
  unfold Part.foldTold
  split <;> rename_i h <;> simp [h]

theorem Part.foldTold_queue (x : Record) (p : Part) : (p.foldTold x).queue = p.queue := by
  unfold Part.foldTold
  split <;> rfl

/-- A request folded once (R66, R69). -/
theorem Part.foldedInto_of_fold {p q : Part} {rq : Request} {later : List LogRecord} {x : Record} (h : p.queue.told)
    (hwork : p.points.work = []) (hx : x ∈ p.queue.records) (hfold : placement rq.sense (p.queue.chain rq.point) = .fold x)
    (hq : (p.request rq).1.follows later q) : p.foldedInto x (x.foldedOnce rq) [] later q := by
  have hrequest : p.request rq = ((p.changeRecord x.id (Record.fold1 rq 0)).foldTold x, .folded) := by
    simp only [Part.request, hfold]
  rw [hrequest] at hq
  have hmakes := (p.changeRecord_makes x.id (Record.fold1 rq 0)).trans (Part.foldTold_makes x _)
  refine ⟨?_, hmakes.followed hq, ?_, ?_⟩
  · rw [hq.queue, Part.foldTold_queue, Part.changeRecord_of_told h hx, Record.fold1_eq]
    simp
  · rw [hq.work, hmakes.points, hwork]
    rfl
  · rw [hq.arbiter, Part.foldTold_arbiter, (Part.changeRecord_keeps _ _ p).arbiter]

theorem Queue.told.filter {q : Queue} (h : q.told) (P : Record → Bool) : ({ q with records := q.records.filter P } : Queue).told :=
  ⟨h.1.sublist (List.filter_sublist.map _), h.2.sublist (List.filter_sublist.map _)⟩

/-- A request folded twice over (R67, R74). -/
theorem Part.foldedInto_of_foldTwice {p q : Part} {rq : Request} {later : List LogRecord} {x y : Record} (h : p.queue.told)
    (hwork : p.points.work = []) (hx : x ∈ p.queue.records) (hy : y ∈ p.queue.records) (hxy : x ≠ y)
    (hfold : placement rq.sense (p.queue.chain rq.point) = .foldTwice x y)
    (hq : (p.request rq).1.follows later q) : p.foldedInto x (x.foldedTwice rq) [y] later q := by
  have hrequest : p.request rq = (((p.withdraw y).changeRecord x.id (Record.fold2 rq 0)).foldTold x, .folded) := by
    simp only [Part.request, hfold]
  rw [hrequest] at hq
  have hmakes := ((p.withdraw_makes y).trans (Part.changeRecord_makes x.id (Record.fold2 rq 0) _)).trans (Part.foldTold_makes x _)
  have hleft : (p.withdraw y).queue = { p.queue with records := p.queue.records.filter (· ∉ [y]) } := by
    rw [Part.withdraw_records]
    refine congrArg (fun rs => ({ p.queue with records := rs } : Queue)) (List.filter_congr fun z hz => ?_)
    refine decide_eq_decide.mpr ⟨fun hid hmem => hid (by rw [List.mem_singleton.mp hmem]), fun hmem hid =>
      hmem (List.mem_singleton.mpr (h.eq_of_id_eq hz hy hid))⟩
  have htold : (p.withdraw y).queue.told := hleft ▸ h.filter _
  have hmem : x ∈ (p.withdraw y).queue.records := by
    rw [hleft]
    exact List.mem_filter.mpr ⟨hx, by simpa using hxy⟩
  refine ⟨?_, ?_, ?_, ?_⟩
  · rw [hq.queue, Part.foldTold_queue, Part.changeRecord_of_told htold hmem, Record.fold2_eq, hleft]
  · have hlogs := hmakes.followed hq
    simp only [List.append_nil] at hlogs
    exact hlogs
  · rw [hq.work, hmakes.points, hwork]
    rfl
  · rw [hq.arbiter, Part.foldTold_arbiter, (Part.changeRecord_keeps _ _ _).arbiter, Part.withdraw_arbiter]

/-- What the table of R65 makes of a request, with the point's report status derived again (R41, R65). -/
theorem Part.requested_of {p q : Part} {rq : Request} {later : List LogRecord} (hs : p.queue.sound)
    (hwork : p.points.work = []) (hq : (p.request rq).1.follows later q)
    (hstatus : (q.shadow rq.point).status = q.derivedStatus rq.point)
    (howed : (p.request rq).2 = .refused → rq.point.val < 263 → (q.shadow rq.point).owed = true) : p.requested rq later q := by
  refine ⟨hstatus, ?_⟩
  have hmem : ∀ z ∈ p.queue.chain rq.point, z ∈ p.queue.records := fun z hz => (List.mem_filter.mp hz).1
  have happend := fun h => Part.placed_of_append (rq := rq) (later := later) hs hwork h hq howed
  cases hchain : p.queue.chain rq.point with
  | nil => exact happend (by rw [hchain]; rfl)
  | cons x l =>
    have hx := hmem x (by simp [hchain])
    cases l with
    | nil =>
      simp only
      split <;> rename_i hsense
      · exact Part.foldedInto_of_fold hs.told hwork hx (by simp [hchain, placement, hsense]) hq
      · exact happend (by simp [hchain, placement, hsense])
    | cons y l =>
      have hy := hmem y (by simp [hchain])
      have hnodup : (p.queue.chain rq.point).Nodup := hs.records_nodup.filter _
      have hxy : x ≠ y := by
        rw [hchain, List.nodup_cons] at hnodup
        exact fun heq => hnodup.1 (by simp [heq])
      simp only
      split <;> rename_i hsense
      · exact Part.foldedInto_of_fold hs.told hwork hy (by simp [hchain, placement, hsense]) hq
      split <;> rename_i hsense'
      · exact Part.foldedInto_of_foldTwice hs.told hwork hx hy hxy (by simp [hchain, placement, hsense, hsense']) hq
      · exact happend (by simp [hchain, placement, hsense, hsense'])

end Sys2Proof.Machine
end

section
/-! PROOFS. Pieces of work of the Point Engine: how they are taken, disables, enables and group writes (03). -/

namespace Sys2Proof.Machine

/-! ### What a piece of work at one point changes -/

/-- An operation of the Point Engine at one point: what it may change. -/
structure Part.concerns (i : PointNo) (p q : Part) : Prop where
  keeps : p.keepsBut [.bus, .notice, .points, .queue, .arbiter] q
  others : p.keepsOtherShadows i q
  points : q.points = { p.points with shadows := q.points.shadows, work := q.points.work }
  work : ∀ w ∈ q.points.work, w ∈ p.points.work ∨ ∃ k j, w = .notice k j

theorem Part.concerns_of_touches {i : PointNo} {p q : Part} (h : p.touches i q) : p.concerns i q := by
  obtain ⟨hkeeps, -, hothers, hpoints⟩ := h
  have hwork : q.points.work = p.points.work := by rw [hpoints]
  refine ⟨Part.keepsBut_mono hkeeps (by simp), hothers, hpoints.trans (by rw [hwork]), fun w hw => .inl (hwork ▸ hw)⟩

theorem Part.concerns_refl (i : PointNo) (p : Part) : p.concerns i p := Part.concerns_of_touches (Part.touches_refl i p)

theorem Part.concerns_of_makes {logs : List LogRecord} {work : List Work} {p q : Part} (h : p.makes logs work q)
    (hwork : ∀ w ∈ work, ∃ k j, w = .notice k j) (i : PointNo) : p.concerns i q := by
  have hshadows : q.points.shadows = p.points.shadows := by rw [h.points]
  refine ⟨h.keeps, fun j _ => (congrArg (fun x : Points => x.shadows[j]) h.points).trans rfl, ?_, fun w hw => ?_⟩
  · rw [hshadows]
    conv_lhs => rw [h.points]
    rw [h.points]
  · rw [h.points] at hw
    exact (List.mem_append.mp hw).imp_right (hwork w)

theorem Part.concerns.trans {i : PointNo} {p q r : Part} (h : p.concerns i q) (k : q.concerns i r) : p.concerns i r := by
  refine ⟨Part.keepsBut_trans h.keeps k.keeps, fun j hj => (k.others j hj).trans (h.others j hj),
    k.points.trans (by rw [h.points]), fun w hw => ?_⟩
  rcases k.work w hw with hw | hw
  · exact h.work w hw
  · exact .inr hw

theorem Part.withdrawPoint_concerns (i j : PointNo) (p : Part) : p.concerns j (p.withdrawPoint i) :=
  Part.concerns_of_makes (p.withdrawPoint_makes i) (fun w hw => by
    obtain ⟨-, -, rfl⟩ := List.mem_map.mp hw
    exact ⟨_, _, rfl⟩) j

theorem Part.shadow_withdrawPoint (i j : PointNo) (p : Part) : (p.withdrawPoint i).shadow j = p.shadow j :=
  (congrArg (fun x : Points => x.shadows[j]) (p.withdrawPoint_makes i).points).trans rfl

/-! ### A piece of work taken -/

/-- The engine has taken the only piece of work that waits. -/
def Part.workTaken (p : Part) : Part := { p with points := { p.points with work := [] } }

theorem Part.workTaken_keeps (p : Part) : p.keepsBut [.points] p.workTaken := by
  intro b hb
  cases b <;> simp [Block.same, Part.workTaken] at hb ⊢

/-- The engine does not pass over to another piece by itself when only notices wait. -/
theorem Part.pump_of_notices {p : Part} (h : ∀ w ∈ p.points.work, ∃ k j, w = .notice k j) : p.pump = p := by
  have hhead : ∀ w ws, p.points.work = w :: ws → ∃ k j, w = .notice k j := fun w ws hw => h w (by simp [hw])
  unfold Part.pump
  split
  · split
    · rename_i ws hw
      obtain ⟨k, j, hk⟩ := hhead _ _ hw
      exact absurd hk nofun
    · rename_i ws hw
      obtain ⟨k, j, hk⟩ := hhead _ _ hw
      exact absurd hk nofun
    · rfl
  · rfl

theorem Part.pump_of_concerns {i : PointNo} {p q : Part} (h : p.concerns i q) (hp : p.points.work = []) : q.pump = q :=
  Part.pump_of_notices fun w hw => (h.work w hw).resolve_left (by simp [hp])

/-- The engine takes the piece of work that is next. -/
theorem Part.takeWork_of {p : Part} {w : Work} {f : Work → Option (Part → Part)} {g : Part → Part} (hnext : p.nextIs w)
    (hf : f w = some g) (hpump : (g p.workTaken).pump = g p.workTaken) : p.takeWork f = g p.workTaken := by
  obtain ⟨hfree, hwork⟩ := hnext
  rw [Part.takeWork, if_pos hfree, hwork]
  simp only [hf]
  exact hpump

theorem Part.engineWaits_of_free {p : Part} (h : p.engineFree = true) : p.engineWaits = false ∧ p.points.todo = [] := by
  simp only [Part.engineFree, Bool.and_eq_true, List.isEmpty_iff, Bool.not_eq_true'] at h
  exact ⟨h.2, h.1⟩

/-! ### What a step shows of a point -/

theorem Part.shadow_settle (old p : Part) (i : PointNo) : (Part.settle old p).shadow i = p.shadow i :=
  Part.shadow_of_points (Part.settle_points old p) i

theorem Part.derivedStatus_settle (old p : Part) (i : PointNo) : (Part.settle old p).derivedStatus i = p.derivedStatus i :=
  Part.derivedStatus_congr (by rw [Part.settle_queue]) (Part.settle_mirrors old p) (by rw [Part.shadow_settle])

theorem Part.derivedStatus_of_disabled {p : Part} {i : PointNo} (h : p.pointEnabled i = false) : p.derivedStatus i = 5 := by
  simp [Part.derivedStatus, h]

theorem Part.pointEnabled_of_mirrors {p q : Part} (h : q.mirrors = p.mirrors) (i : PointNo) : q.pointEnabled i = p.pointEnabled i := by
  simp only [Part.pointEnabled, Part.virtualEnabled, Part.mirror, h]

theorem Part.settle_concerns {i : PointNo} {p q : Part} (h : p.concerns i q) (old : Part) : p.concerns i (Part.settle old q) := by
  refine ⟨Part.keepsBut_trans h.keeps (Part.keepsBut_mono (Part.settle_keeps old q) (by simp)), fun j hj => ?_, ?_, fun w hw => ?_⟩
  · rw [Part.shadow_settle, h.others j hj]
  · rw [Part.settle_points]
    exact h.points
  · rw [Part.settle_points] at hw
    exact h.work w hw

/-- What the arbiter keeps besides. -/
theorem Part.keepsBut_arbiter {bs : List Block} {p q : Part} (h : p.keepsBut (.arbiter :: bs) q) (ha : q.arbiter = p.arbiter) :
    p.keepsBut bs q := by
  intro b hb
  by_cases hba : b = .arbiter
  · subst hba
    exact ha
  · exact h b (by simp [hb, hba])

/-- A withdrawal, said of the state before the piece of work was taken and of the state after the step. -/
theorem Part.withdrawn_frame {i : PointNo} {p p' q q' : Part} (hqueue : p'.queue = p.queue) (hbus : p'.bus.logged = p.bus.logged)
    (hmirrors : p'.mirrors = p.mirrors) (hnotice : p'.notice.heads = p.notice.heads) (h : p'.withdrawn i q)
    (hrecords : q'.queue.records = q.queue.records) (hlogged : q'.bus.logged = q.bus.logged) : p.withdrawn i q' := by
  obtain ⟨hr, hl⟩ := h
  refine ⟨by rw [hrecords, hr, hqueue], fun hh => ?_⟩
  rw [hlogged, hl (by rw [hnotice]; exact hh), hbus, hqueue]
  exact congrArg _ (List.map_congr_left fun r _ => Part.droppedLog_of_mirrors hmirrors _ r)

/-! ### POINT_DISABLE and POINT_ENABLE -/

theorem Part.reloadForgets_of {p : Part} (h : p.mirrors.waitsSince = none) (i : PointNo) : p.reloadForgets i = p := by
  unfold Part.reloadForgets
  split
  · rename_i hreload
    simp [Mirrors.waitsSince, hreload] at h
  · rfl

/-- What a disabled point has become before its records are withdrawn (R54). -/
def Part.disabled (i : PointNo) (p : Part) : Part := (p.setFifo (p.points.fifo.filter (·.point ≠ i))).setOwed i false

theorem Part.disablePoint_eq (i : PointNo) (p : Part) : p.disablePoint i = ((p.disabled i).withdrawPoint i).restatus i := rfl

/-! ### Withdrawals -/

/-- The records of a point have been withdrawn, and its report status derived again (R41, R74). -/
structure Part.withdraws (i : PointNo) (p q : Part) : Prop where
  keeps : p.keepsBut [.bus, .notice, .points, .queue] q
  others : p.keepsOtherShadows i q
  points : q.points = { p.points with
    shadows := q.points.shadows, work := p.points.work ++ (p.queue.chain i).map fun _ => .notice .withdrawal i }
  shadow : q.shadow i = { p.shadow i with status := q.derivedStatus i }
  records : p.queue.told → p.mode.serving = true → p.withdrawn i q

theorem Part.withdraws_restatus (i : PointNo) (p : Part) : p.withdraws i ((p.withdrawPoint i).restatus i) := by
  have hmakes := p.withdrawPoint_makes i
  obtain ⟨hkeeps, hentries, hothers, hpoints⟩ := Part.restatus_touches i (p.withdrawPoint i)
  refine ⟨?_, fun j hj => (hothers j hj).trans (Part.shadow_withdrawPoint i j p), ?_, ?_, fun htold hm => ?_⟩
  · refine Part.keepsBut_trans (Part.keepsBut_arbiter (Part.keepsBut_mono hmakes.keeps (by simp)) ?_)
      (Part.keepsBut_mono hkeeps (by simp))
    exact Part.withdrawPoint_arbiter i p
  · rw [hpoints, hmakes.points]
  · rw [← Part.restatus_current, Part.shadow_restatus, Part.shadow_withdrawPoint]
  · exact Part.withdrawn_frame rfl rfl rfl rfl (Part.withdrawn_of htold hm i) (by rw [Part.restatus_queue]) hentries.logged

theorem Part.settle_withdraws {i : PointNo} {p q : Part} (h : p.withdraws i q) (old : Part) :
    p.withdraws i (Part.settle old q) := by
  refine ⟨Part.keepsBut_trans h.keeps (Part.keepsBut_mono (Part.settle_keeps old q) (by simp)), fun j hj => ?_, ?_, ?_,
    fun htold hm => ?_⟩
  · rw [Part.shadow_settle, h.others j hj]
  · rw [Part.settle_points]
    exact h.points
  · rw [Part.shadow_settle, Part.derivedStatus_settle]
    exact h.shadow
  · exact Part.withdrawn_frame rfl rfl rfl rfl (h.records htold hm) (by rw [Part.settle_queue]) (Part.settle_entries old q).logged

theorem Part.disabled_keeps (i : PointNo) (p : Part) : p.keepsBut [.points] (p.disabled i) := by
  intro b hb
  cases b <;> simp [Block.same, Part.disabled, Part.setFifo] at hb ⊢

theorem Part.withdraws_disablePoint (i : PointNo) (p : Part) : (p.disabled i).withdraws i (p.disablePoint i) :=
  Part.withdraws_restatus i _

theorem Part.disabled_work (i : PointNo) (p : Part) : (p.disabled i).points.work = p.points.work := rfl

/-- POINT_DISABLE where no capture of RELOAD waits (R54). -/
theorem Part.pointDisable_spec {i : PointNo} {p : Part} (hm : p.mode.serving = true) (hnext : p.nextIs (.disable i))
    (hwaits : p.mirrors.waitsSince = none) :
    let t := p.serve fun p => (p.takeWork fun
      | .disable i => some fun q => (q.disablePoint i).reloadForgets i
      | _ => none).reloadResume
    (p.workTaken.disabled i).withdraws i t := by
  have hdisable := Part.withdraws_disablePoint i p.workTaken
  have hmirrors : (p.workTaken.disablePoint i).mirrors = p.mirrors := hdisable.keeps.mirrors
  have hforgets : (p.workTaken.disablePoint i).reloadForgets i = p.workTaken.disablePoint i :=
    Part.reloadForgets_of (by rw [hmirrors, hwaits]) i
  have htake : p.takeWork (fun
      | .disable i => some fun q => (q.disablePoint i).reloadForgets i
      | _ => none) = p.workTaken.disablePoint i := by
    refine (Part.takeWork_of (g := fun q => (q.disablePoint i).reloadForgets i) hnext rfl ?_).trans hforgets
    rw [hforgets]
    refine Part.pump_of_notices fun w hw => ?_
    rw [hdisable.points] at hw
    obtain ⟨-, -, rfl⟩ := List.mem_map.mp hw
    exact ⟨_, _, rfl⟩
  intro t
  have ht : t = Part.settle p (p.workTaken.disablePoint i) := by
    refine (Part.serve_of_serving hm).trans (congrArg (Part.settle p) ?_)
    refine (congrArg Part.reloadResume htake).trans ?_
    exact Part.reloadResume_of (by rw [hmirrors, hwaits])
  rw [ht]
  exact Part.settle_withdraws hdisable p

/-- A step that touches one point, said of the state after it. -/
theorem Part.touches_settle {i : PointNo} {p q : Part} (h : p.touches i q) (old : Part) :
    let t := Part.settle old q
    p.keepsBut [.bus, .notice, .points] t ∧ p.keepsOtherShadows i t ∧ t.points = { p.points with shadows := t.points.shadows } ∧
      t.shadow i = q.shadow i ∧ t.derivedStatus i = q.derivedStatus i := by
  obtain ⟨hkeeps, -, hothers, hpoints⟩ := h
  refine ⟨Part.keepsBut_trans (Part.keepsBut_mono hkeeps (by simp)) (Part.keepsBut_mono (Part.settle_keeps old q) (by simp)),
    fun j hj => ?_, ?_, Part.shadow_settle old q i, Part.derivedStatus_settle old q i⟩
  · rw [Part.shadow_settle, hothers j hj]
  · rw [Part.settle_points]
    exact hpoints

/-- A piece of work that touches one point. -/
theorem State.work_touches {f : Work → Option (Part → Part)} {g : Part → Part} {i : PointNo} {w : Work} {s : State}
    (hm : s.part.mode.serving = true) (hnext : s.part.nextIs w) (hf : f w = some g)
    (h : s.part.workTaken.touches i (g s.part.workTaken)) :
    s.part.serve (Part.takeWork f) = Part.settle s.part (g s.part.workTaken) ∧
      s.quietBut [.points] { s with part := s.part.serve (Part.takeWork f) } := by
  have htake : s.part.takeWork f = g s.part.workTaken :=
    Part.takeWork_of hnext hf (Part.pump_of_concerns (Part.concerns_of_touches h) rfl)
  obtain ⟨hkeeps, hentries, -, -⟩ := h
  refine ⟨by rw [Part.serve_of_serving hm, htake], State.quietBut_serve hm ?_ ?_ (by simp)⟩
  · rw [htake]
    exact Part.keepsBut_trans (Part.keepsBut_mono s.part.workTaken_keeps (by simp)) hkeeps
  · rw [htake]
    exact hentries

theorem Part.refresh_touches (ignored : Option Intended) (i : PointNo) (p : Part) : p.touches i (p.refresh ignored i) := by
  unfold Part.refresh
  split
  · exact Part.onShadow_touches i _ p
  split
  · exact Part.onShadow_touches i _ p
  · exact Part.touches_refl i p

/-- What intended is set to afresh (R54, R57, R59). -/
theorem Part.shadow_refresh (ignored : Option Intended) (i : PointNo) (p : Part) : (p.refresh ignored i).shadow i =
    { p.shadow i with
      processed := if i.val < 256 then p.stateCode i else (p.shadow i).processed
      intended :=
        if i.val < 256 then (p.translated i (p.stateCode i)).getD (ignored.getD (p.shadow i).intended)
        else if i.val < 263 then p.virtualIntended i (p.condition i) else (p.shadow i).intended } := by
  have hreal : isReal i = decide (i.val < 256) := rfl
  unfold Part.refresh
  by_cases h : i.val < 256
  · rw [if_pos (by simpa [hreal] using h), Part.shadow_onShadow, if_pos h, if_pos h]
    rfl
  · rw [if_neg (by simpa [hreal] using h), if_neg h, if_neg h]
    by_cases h' : i.val < 263
    · rw [if_pos h', if_pos h', Part.shadow_onShadow]
    · rw [if_neg h', if_neg h']

theorem Part.enablePoint_touches (i : PointNo) (p : Part) : p.touches i (p.enablePoint i) :=
  (Part.refresh_touches _ i p).trans (Part.oweNow_touches i _)

theorem Part.shadow_enablePoint (i : PointNo) (p : Part) : (p.enablePoint i).shadow i =
    { (p.refresh (some Intended.none) i).shadow i with
      owed := decide (i.val < 263), status := ((p.refresh (some Intended.none) i).setOwed i true).derivedStatus i } :=
  Part.shadow_oweNow i _

theorem Part.enablePoint_current (i : PointNo) (p : Part) :
    ((p.enablePoint i).shadow i).status = (p.enablePoint i).derivedStatus i := Part.oweNow_current i _

/-- Settles O42: POINT_DISABLE withdraws, POINT_ENABLE sets intended afresh and marks the point OWED. -/
theorem disableWithdrawsAndEnableOwes : Obligations.DisableWithdrawsAndEnableOwes := by
  refine ⟨fun i s hm hnext hs hwaits => ⟨_, rfl, ?_⟩, fun i s hm hnext => ⟨_, rfl, ?_⟩⟩
  · have hspec := Part.pointDisable_spec hm hnext hwaits
    generalize (s.part.serve fun p => (p.takeWork fun
      | .disable i => some fun q => (q.disablePoint i).reloadForgets i
      | _ => none).reloadResume) = t at hspec ⊢
    have hgone := hspec.records hs.told hm
    have hdisabled : (s.part.workTaken.disabled i).shadow i = { s.part.shadow i with owed := false } :=
      Part.shadow_setOwed i false _
    have hkept : s.part.keepsBut [.bus, .notice, .points, .queue] (s.part.workTaken.disabled i) :=
      Part.keepsBut_trans (Part.keepsBut_mono s.part.workTaken_keeps (by simp))
        (Part.keepsBut_mono (Part.disabled_keeps i _) (by simp))
    have hpoints := hspec.points
    have hshadow := hspec.shadow
    rw [hdisabled] at hshadow
    have hothers : s.part.keepsOtherShadows i t := fun j hj =>
      (hspec.others j hj).trans (Part.shadow_onShadow_ne hj _ _)
    refine ⟨⟨rfl, rfl, rfl, Part.keepsBut_trans hkept hspec.keeps⟩, hgone, ?_, ?_, ?_, ?_, ?_, fun hoff => ?_, ?_, ?_, hothers⟩
    · rw [hpoints]; rfl
    · rw [hpoints]; rfl
    · rw [hpoints]; rfl
    · rw [hshadow]
    · rw [hshadow]
    · rw [hshadow]
      exact Part.derivedStatus_of_disabled
        ((Part.pointEnabled_of_mirrors (hspec.keeps.mirrors.trans hkept.mirrors) i).trans hoff)
    · rw [hshadow]
    · rw [hshadow]
  · have htouches := s.part.workTaken.enablePoint_touches i
    obtain ⟨hserve, hquiet⟩ := State.work_touches (f := fun
      | .enable i => some (Part.enablePoint i)
      | _ => Option.none) hm hnext rfl htouches
    obtain ⟨-, hothers, hpoints, hshadow, hstatus⟩ := Part.touches_settle htouches s.part
    have hcurrent := s.part.workTaken.enablePoint_current i
    rw [← hserve] at hothers hpoints hshadow hstatus
    rw [← hshadow, ← hstatus] at hcurrent
    rw [Part.shadow_enablePoint, Part.shadow_refresh] at hshadow
    refine ⟨hquiet, ?_, ?_, ?_, hcurrent, ?_, fun h => ⟨?_, ?_⟩, fun h h' => ?_, hothers⟩
    · exact (congrArg Points.fifo hpoints).trans rfl
    · exact (congrArg Points.work hpoints).trans rfl
    · exact (congrArg Shadow.owed hshadow).trans rfl
    · exact (congrArg Shadow.delivered hshadow).trans rfl
    · refine (congrArg Shadow.processed hshadow).trans (if_pos h)
    · refine (congrArg Shadow.intended hshadow).trans (if_pos h)
    · refine (congrArg Shadow.intended hshadow).trans ((if_neg (by omega)).trans (if_pos h'))

/-! ### ISOLATE, DEISOLATE and RESCAN -/

/-- A group write on one point is one group action (R24, R55, R56). -/
theorem Part.takeGroup_one {a : GroupAction} {i : PointNo} {p : Part} (hfree : p.engineFree = true)
    (htodo : (p.groupPoint a i).points.todo = []) : p.takeGroup a [i] = p.groupPoint a i := by
  obtain ⟨hwaits, -⟩ := Part.engineWaits_of_free hfree
  have hop : ¬ (PointOp.group a i = .drainFifo ∧ (p.doOp (.group a i)).points.fifo ≠ []) := fun h => absurd h.1 nofun
  rw [Part.takeGroup, List.map_singleton, Part.runOps, if_neg (by rw [hwaits]; exact Bool.false_ne_true), if_neg hop, Part.runOps]
  show { p.groupPoint a i with points := { (p.groupPoint a i).points with todo := [] } } = p.groupPoint a i
  rw [← htodo]

/-- A point before its records are withdrawn because it has been isolated (R55). -/
def Part.isolating (i : PointNo) (p : Part) : Part := (p.setIsolated i true).setOwed i false

theorem Part.isolating_touches (i : PointNo) (p : Part) : p.touches i (p.isolating i) :=
  (Part.setIsolated_touches i true p).trans (Part.setOwed_touches i false _)

theorem Part.isolatePoint_of {i : PointNo} {p : Part} (h : ¬ (p.classLocked (p.pointClass i) = true ∨ (p.shadow i).isolated = true)) :
    (p.isolating i).withdraws i (p.isolatePoint i) := by
  have hisolate : p.isolatePoint i = ((p.isolating i).withdrawPoint i).restatus i := if_neg (by simpa using h)
  rw [hisolate]
  exact Part.withdraws_restatus i _

/-- A point whose isolation has been ended (R56). -/
def Part.deisolating (i : PointNo) (p : Part) : Part := if (p.shadow i).isolated then p.setIsolated i false else p

theorem Part.deisolatePoint_eq (i : PointNo) (p : Part) : p.deisolatePoint i =
    if (p.deisolating i).pointEnabled i then (p.deisolating i).oweNow i else p.deisolating i := rfl

theorem Part.deisolating_touches (i : PointNo) (p : Part) : p.touches i (p.deisolating i) := by
  unfold Part.deisolating
  split
  · exact Part.setIsolated_touches i false p
  · exact Part.touches_refl i p

theorem Part.shadow_deisolating (i : PointNo) (p : Part) :
    (p.deisolating i).shadow i = { p.shadow i with isolated := false } := by
  unfold Part.deisolating
  split
  · exact Part.shadow_setIsolated i false p
  · rename_i h
    rw [← Bool.eq_false_of_not_eq_true h]

theorem Part.deisolatePoint_touches (i : PointNo) (p : Part) : p.touches i (p.deisolatePoint i) := by
  rw [Part.deisolatePoint_eq]
  split
  · exact (p.deisolating_touches i).trans (Part.oweNow_touches i _)
  · exact p.deisolating_touches i

theorem Part.rescanPoint_touches (i : PointNo) (p : Part) : p.touches i (p.rescanPoint i) := by
  unfold Part.rescanPoint
  split
  · exact Part.oweNow_touches i p
  · exact Part.touches_refl i p

theorem Part.touches.mirrors {i : PointNo} {p q : Part} (h : p.touches i q) : q.mirrors = p.mirrors := h.1.mirrors

/-- What DEISOLATE leaves of the point (R56). -/
theorem Part.deisolatePoint_spec (i : PointNo) (p : Part) :
    let q := p.deisolatePoint i
    (q.shadow i).isolated = false ∧
      (q.shadow i).owed = (if p.pointEnabled i then decide (i.val < 263) else (p.shadow i).owed) ∧
      (p.pointEnabled i = true → (q.shadow i).status = q.derivedStatus i) ∧
      (q.shadow i).intended = (p.shadow i).intended := by
  intro q
  have hq : q = _ := p.deisolatePoint_eq i
  have hshadow := p.shadow_deisolating i
  rw [Part.pointEnabled_of_mirrors (p.deisolating_touches i).mirrors] at hq
  rw [hq]
  by_cases hon : p.pointEnabled i = true
  · rw [if_pos hon, if_pos hon]
    refine ⟨?_, ?_, fun _ => Part.oweNow_current i _, ?_⟩ <;> rw [Part.shadow_oweNow, hshadow]
  · rw [if_neg hon, if_neg hon, hshadow]
    exact ⟨rfl, rfl, fun h => absurd h hon, rfl⟩

/-- The engine has taken a group write on one point. -/
theorem Part.serve_group {a : GroupAction} {i : PointNo} {p : Part} {f : Work → Option (Part → Part)} (hm : p.mode.serving = true)
    (hnext : p.nextIs (.group a [i])) (hf : f (.group a [i]) = some (Part.takeGroup a [i]))
    (htodo : (p.workTaken.groupPoint a i).points.todo = p.points.todo)
    (hwork : ∀ w ∈ (p.workTaken.groupPoint a i).points.work, ∃ k j, w = .notice k j) :
    p.serve (Part.takeWork f) = Part.settle p (p.workTaken.groupPoint a i) := by
  obtain ⟨-, htodo'⟩ := Part.engineWaits_of_free hnext.1
  have hone : p.workTaken.takeGroup a [i] = p.workTaken.groupPoint a i := Part.takeGroup_one hnext.1 (htodo.trans htodo')
  rw [Part.serve_of_serving hm, Part.takeWork_of hnext hf (by rw [hone, Part.pump_of_notices hwork]), hone]

theorem Part.withdraws.notices {i : PointNo} {p q : Part} (h : p.withdraws i q) (hp : p.points.work = []) :
    ∀ w ∈ q.points.work, ∃ k j, w = .notice k j := by
  intro w hw
  rw [h.points, hp] at hw
  obtain ⟨-, -, rfl⟩ := List.mem_map.mp hw
  exact ⟨_, _, rfl⟩

theorem Part.touches.notices {i : PointNo} {p q : Part} (h : p.touches i q) (hp : p.points.work = []) :
    ∀ w ∈ q.points.work, ∃ k j, w = .notice k j := fun w hw =>
  ((Part.concerns_of_touches h).work w hw).resolve_left (by simp [hp])

theorem Part.isolatePoint_refused {i : PointNo} {p : Part}
    (h : p.classLocked (p.pointClass i) = true ∨ (p.shadow i).isolated = true) : p.isolatePoint i = p := if_pos (by simpa using h)

theorem Part.serve_isolate {i : PointNo} {p : Part} {f : Work → Option (Part → Part)} (hm : p.mode.serving = true)
    (hnext : p.nextIs (.group .isolate [i])) (hf : f (.group .isolate [i]) = some (Part.takeGroup .isolate [i])) :
    p.serve (Part.takeWork f) = Part.settle p (p.workTaken.isolatePoint i) := by
  by_cases h : p.classLocked (p.pointClass i) = true ∨ (p.shadow i).isolated = true
  · have hsame : p.workTaken.groupPoint .isolate i = p.workTaken := Part.isolatePoint_refused h
    exact Part.serve_group hm hnext hf (by rw [hsame]; rfl) (fun w hw => by rw [hsame] at hw; exact absurd hw (by simp [Part.workTaken]))
  · have hwithdraws := Part.isolatePoint_of (p := p.workTaken) (i := i) h
    have hpoints : (p.workTaken.isolating i).points =
      { p.points with work := [], shadows := (p.workTaken.isolating i).points.shadows } :=
        (Part.isolating_touches i p.workTaken).2.2.2
    have hpoints' := hwithdraws.points
    exact Part.serve_group hm hnext hf ((congrArg Points.todo hpoints').trans ((congrArg Points.todo hpoints).trans rfl))
      (hwithdraws.notices (congrArg Points.work hpoints))

/-- A group action that touches the point. -/
theorem State.serve_groupTouches {a : GroupAction} {i : PointNo} {s : State} {f : Work → Option (Part → Part)}
    (hm : s.part.mode.serving = true) (hnext : s.part.nextIs (.group a [i]))
    (hf : f (.group a [i]) = some (Part.takeGroup a [i])) (h : s.part.workTaken.touches i (s.part.workTaken.groupPoint a i)) :
    s.part.serve (Part.takeWork f) = Part.settle s.part (s.part.workTaken.groupPoint a i) ∧
      s.quietBut [.points] { s with part := s.part.serve (Part.takeWork f) } := by
  obtain ⟨-, htodo⟩ := Part.engineWaits_of_free hnext.1
  have htodo' : (s.part.workTaken.groupPoint a i).points.todo = [] := (congrArg Points.todo h.2.2.2).trans htodo
  have hone : s.part.workTaken.takeGroup a [i] = s.part.workTaken.groupPoint a i := Part.takeGroup_one hnext.1 htodo'
  rw [← hone] at h ⊢
  exact State.work_touches hm hnext hf h

/-- Settles O43: each group action on one point is judged by its own conditions. -/
theorem groupActionsOnASelectedPoint : Obligations.GroupActionsOnASelectedPoint := by
  refine fun i s hm hs => ⟨fun hnext => ⟨_, rfl, ?_⟩, fun hnext => ⟨_, rfl, ?_⟩, fun hnext => ⟨_, rfl, ?_⟩⟩
  · have hserve := Part.serve_isolate (f := fun
      | .group .isolate is => some (Part.takeGroup .isolate is)
      | _ => Option.none) hm hnext rfl
    generalize s.part.serve (Part.takeWork fun
      | .group .isolate is => some (Part.takeGroup .isolate is)
      | _ => Option.none) = t at hserve ⊢
    by_cases h : s.part.classLocked (s.part.pointClass i) = true ∨ (s.part.shadow i).isolated = true
    · rw [Part.isolatePoint_refused (p := s.part.workTaken) h] at hserve
      obtain ⟨hkeeps, hothers, hpoints, hshadow, -⟩ := Part.touches_settle (Part.touches_refl i s.part.workTaken) s.part
      rw [← hserve] at hkeeps hothers hpoints hshadow
      refine ⟨⟨rfl, rfl, rfl, Part.keepsBut_trans (Part.keepsBut_mono s.part.workTaken_keeps (by simp))
        (Part.keepsBut_mono hkeeps (by simp))⟩, hothers, (congrArg Points.fifo hpoints).trans rfl, ?_⟩
      rw [if_pos h]
      exact ⟨hshadow, hkeeps.queue, (congrArg Points.work hpoints).trans rfl⟩
    · have hspec := Part.settle_withdraws (Part.isolatePoint_of (p := s.part.workTaken) (i := i) h) s.part
      rw [← hserve] at hspec
      obtain ⟨hkeeps, hentries, hothers, hpoints⟩ := Part.isolating_touches i s.part.workTaken
      have hlogged : (s.part.workTaken.isolating i).bus.logged = s.part.bus.logged := hentries.logged
      have hshadow : t.shadow i = { s.part.shadow i with isolated := true, owed := false, status := t.derivedStatus i } := by
        rw [hspec.shadow, Part.isolating, Part.shadow_setOwed, Part.shadow_setIsolated]
        rfl
      have hkept : s.part.keepsBut [.bus, .notice, .points, .queue] (s.part.workTaken.isolating i) :=
        Part.keepsBut_trans (Part.keepsBut_mono s.part.workTaken_keeps (by simp)) (Part.keepsBut_mono hkeeps (by simp))
      have hqueue : (s.part.workTaken.isolating i).queue = s.part.queue := hkeeps.queue
      refine ⟨⟨rfl, rfl, rfl, Part.keepsBut_trans hkept hspec.keeps⟩, fun j hj => (hspec.others j hj).trans (hothers j hj),
        (congrArg Points.fifo hspec.points).trans ((congrArg Points.fifo hpoints).trans rfl), ?_⟩
      rw [if_neg h, hshadow]
      refine ⟨rfl, rfl, rfl, ?_, ?_⟩
      · refine Part.withdrawn_frame hqueue hlogged hkeeps.mirrors (by rw [hkeeps.notice]; rfl)
          (hspec.records (by rw [hqueue]; exact hs.told) (by rw [hkeeps.mode]; exact hm)) rfl rfl
      · rw [hspec.points, hpoints, hqueue]
        rfl
  · have htouches : s.part.workTaken.touches i (s.part.workTaken.groupPoint .deisolate i) := Part.deisolatePoint_touches i _
    obtain ⟨hserve, hquiet⟩ := State.serve_groupTouches (f := fun
      | .group .deisolate is => some (Part.takeGroup .deisolate is)
      | _ => Option.none) hm hnext rfl htouches
    obtain ⟨-, hothers, hpoints, hshadow, hstatus⟩ := Part.touches_settle htouches s.part
    rw [← hserve] at hothers hpoints hshadow hstatus
    obtain ⟨hisolated, howed, hcurrent, hintended⟩ := Part.deisolatePoint_spec i s.part.workTaken
    have hpoint : s.part.workTaken.groupPoint .deisolate i = s.part.workTaken.deisolatePoint i := rfl
    rw [← hpoint, ← hshadow] at hisolated howed hcurrent hintended
    rw [← hstatus] at hcurrent
    exact ⟨hquiet, hothers, (congrArg Points.work hpoints).trans rfl, (congrArg Points.fifo hpoints).trans rfl, hisolated, howed,
      hcurrent, hintended⟩
  · have htouches : s.part.workTaken.touches i (s.part.workTaken.groupPoint .rescan i) := Part.rescanPoint_touches i _
    obtain ⟨hserve, hquiet⟩ := State.serve_groupTouches (f := fun
      | .group .rescan is => some (Part.takeGroup .rescan is)
      | _ => Option.none) hm hnext rfl htouches
    obtain ⟨-, hothers, hpoints, hshadow, hstatus⟩ := Part.touches_settle htouches s.part
    rw [← hserve] at hothers hpoints hshadow hstatus
    refine ⟨hquiet, hothers, (congrArg Points.work hpoints).trans rfl, (congrArg Points.fifo hpoints).trans rfl, ?_⟩
    by_cases h : s.part.pointEnabled i = true ∧ (s.part.shadow i).isolated = false
    · have hrescan : s.part.workTaken.groupPoint .rescan i = s.part.workTaken.oweNow i :=
        if_pos (Bool.and_eq_true_iff.mpr ⟨h.1, by rw [Bool.not_eq_true']; exact h.2⟩)
      rw [if_pos h]
      rw [hrescan] at hshadow hstatus
      refine ⟨(congrArg Shadow.owed hshadow).trans (by rw [Part.shadow_oweNow]), ?_⟩
      exact (congrArg Shadow.status hshadow).trans ((Part.oweNow_current i _).trans hstatus.symm)
    · have hrescan : s.part.workTaken.groupPoint .rescan i = s.part.workTaken :=
        if_neg fun hb => h (by rwa [Bool.and_eq_true_iff, Bool.not_eq_true'] at hb)
      rw [if_neg h]
      exact hshadow.trans ((congrArg (Part.shadow · i) hrescan).trans rfl)

end Sys2Proof.Machine
end

section
/-! PROOFS. The requests the Point Engine makes (R40, R47 to R49, R52, R57). -/

namespace Sys2Proof.Machine

/-! ### What a request leaves -/

theorem Part.request_makes (rq : Request) (p : Part) :
    ∃ logs work, p.makes logs work (p.request rq).1 ∧ ∀ w ∈ work, ∃ k j, w = .notice k j := by
  unfold Part.request
  split
  · exact ⟨_, _, (p.changeRecord_makes _ _).trans (Part.foldTold_makes _ _), by simp⟩
  · exact ⟨_, _, ((p.withdraw_makes _).trans (Part.changeRecord_makes _ _ _)).trans (Part.foldTold_makes _ _), by simp⟩
  · split
    · exact ⟨_, _, p.admission_makes rq, by simp⟩
    split
    · split
      · refine ⟨_, _, Part.evict_eq _ rq p ▸ (p.evicted_makes _).1.trans (Part.admission_makes rq _), by simp⟩
      · exact ⟨_, _, (p.refuse_makes rq).1, by simp⟩
    · exact ⟨_, _, (p.refuse_makes rq).1, by simp⟩

theorem Part.request_concerns (rq : Request) (i : PointNo) (p : Part) : p.concerns i (p.request rq).1 := by
  obtain ⟨logs, work, hmakes, hwork⟩ := p.request_makes rq
  exact Part.concerns_of_makes hmakes hwork i

theorem Part.shadow_request (rq : Request) (j : PointNo) (p : Part) : (p.request rq).1.shadow j = p.shadow j := by
  obtain ⟨logs, work, hmakes, -⟩ := p.request_makes rq
  exact (congrArg (fun x : Points => x.shadows[j]) hmakes.points).trans rfl

/-- A request is refused only where the queue is full (R73). -/
theorem Part.request_of_room {p : Part} (h : p.queue.count < Config.queuePlaces) (rq : Request) :
    (p.request rq).2 ≠ .refused := by
  unfold Part.request
  split
  · exact nofun
  · exact nofun
  · rw [if_pos h]
    exact nofun

theorem Part.callsFor_point {p : Part} {i : PointNo} {rq : Request} (h : p.callsFor i = some rq) : rq.point = i := by
  unfold Part.callsFor at h
  simp only at h
  split_ifs at h <;> cases h <;> rfl

theorem Part.makeRequest_of {p : Part} {i : PointNo} {rq : Request} (h : p.callsFor i = some rq) : p.makeRequest i =
    if (p.request rq).2 = .refused then (p.request rq).1.oweNow i else (p.request rq).1.restatus i := by
  cases hr : p.request rq with
  | mk q a => cases a <;> simp [Part.makeRequest, h, hr]

theorem Part.makeRequest_none {p : Part} {i : PointNo} (h : p.callsFor i = none) : p.makeRequest i = p := by
  simp only [Part.makeRequest, h]

theorem Part.makeRequest_touches {p : Part} {i : PointNo} {rq : Request} (h : p.callsFor i = some rq) :
    (p.request rq).1.touches i (p.makeRequest i) := by
  rw [Part.makeRequest_of h]
  split
  · exact Part.oweNow_touches i _
  · exact Part.restatus_touches i _

theorem Part.makeRequest_current {p : Part} {i : PointNo} {rq : Request} (h : p.callsFor i = some rq) :
    ((p.makeRequest i).shadow i).status = (p.makeRequest i).derivedStatus i := by
  rw [Part.makeRequest_of h]
  split
  · exact Part.oweNow_current i _
  · exact Part.restatus_current i _

theorem Part.makeRequest_concerns (i : PointNo) (p : Part) : p.concerns i (p.makeRequest i) := by
  cases h : p.callsFor i with
  | none =>
    rw [Part.makeRequest_none h]
    exact Part.concerns_refl i p
  | some rq => exact (p.request_concerns rq i).trans (Part.concerns_of_touches (Part.makeRequest_touches h))

/-- A request changes of its point only whether it is owed, and its status. -/
theorem Part.shadow_makeRequest (i : PointNo) (p : Part) : (p.makeRequest i).shadow i =
    { p.shadow i with owed := ((p.makeRequest i).shadow i).owed, status := ((p.makeRequest i).shadow i).status } := by
  cases h : p.callsFor i with
  | none => rw [Part.makeRequest_none h]
  | some rq =>
    rw [Part.makeRequest_of h]
    split
    · rw [Part.shadow_oweNow, Part.shadow_request]
    · rw [Part.shadow_restatus, Part.shadow_request]

theorem Part.makeRequest_refused {p : Part} {i : PointNo} {rq : Request} (h : p.callsFor i = some rq)
    (hrefused : (p.request rq).2 = .refused) : ((p.makeRequest i).shadow i).owed = decide (i.val < 263) := by
  rw [Part.makeRequest_of h, if_pos hrefused, Part.shadow_oweNow]

/-- A point is not marked OWED where the queue has a place for its request (R49). -/
theorem Part.makeRequest_owed {p : Part} (h : p.queue.count < Config.queuePlaces) (i : PointNo) :
    ((p.makeRequest i).shadow i).owed = (p.shadow i).owed := by
  cases hcalls : p.callsFor i with
  | none => rw [Part.makeRequest_none hcalls]
  | some rq => rw [Part.makeRequest_of hcalls, if_neg (Part.request_of_room h rq), Part.shadow_restatus, Part.shadow_request]

/-! ### What follows a request -/

theorem Part.follows_of_touches {i : PointNo} {p q : Part} (h : p.touches i q) : p.follows [] q := by
  obtain ⟨hkeeps, hentries, -, hpoints⟩ := h
  refine ⟨hkeeps.queue, hkeeps.arbiter, by rw [hpoints], fun _ _ => by rw [hentries.logged, List.append_nil], fun i hi => ?_⟩
  rw [hkeeps.notice]
  exact hi

theorem Part.follows_settle {later : List LogRecord} {p q : Part} (h : p.follows later q) (old : Part) :
    p.follows later (Part.settle old q) := by
  refine ⟨by rw [Part.settle_queue, h.queue], by rw [Part.settle_arbiter, h.arbiter], by rw [Part.settle_points, h.work],
    fun hm hh => ?_, fun i hi => ?_⟩
  · rw [(Part.settle_entries old q).logged, h.logged hm hh]
  · rw [(Part.settle_trouble old q).2.1]
    exact h.causes i hi

theorem Part.follows.after_touches {later : List LogRecord} {i : PointNo} {p q r : Part} (h : p.touches i q) (k : q.follows later r) :
    p.follows later r := by
  obtain ⟨hkeeps, hentries, -, hpoints⟩ := h
  refine ⟨k.queue.trans hkeeps.queue, k.arbiter.trans hkeeps.arbiter, k.work.trans (by rw [hpoints]), fun hm hh => ?_, fun j hj => ?_⟩
  · rw [k.logged (by rw [hkeeps.mode]; exact hm) (by rw [hkeeps.notice]; exact hh), hentries.logged]
  · exact k.causes j (by rw [hkeeps.notice]; exact hj)

/-! ### The state before a request -/

/-- The mirrors are the same but for the one of the command word. -/
structure Part.sameConfig (p q : Part) : Prop where
  mirror : ∀ a, a ≠ 0x010 → q.mirror a = p.mirror a
  valid : q.mirrors.valid = p.mirrors.valid

theorem Part.sameConfig_of_mirrors {p q : Part} (h : q.mirrors = p.mirrors) : p.sameConfig q :=
  ⟨fun a _ => Part.mirror_of_mirrors h a, by rw [h]⟩

/-- A statement about `p` says of requests and withdrawals what holds of `q`: the mirror of the command word, the shadow
entries, the entries in the queue and the command in progress may differ. -/
structure Part.readsAs (p q : Part) : Prop extends Part.sameConfig p q where
  mode : q.mode = p.mode
  queue : q.queue = p.queue
  arbiter : q.arbiter = p.arbiter
  routes : q.routes = p.routes
  time : q.time = p.time
  heads : q.notice.heads.isSome = p.notice.heads.isSome
  logged : q.bus.logged = p.bus.logged

theorem Part.readsAs_of_keeps {p q : Part} (h : p.keepsBut [.bus, .points] q) (hlogged : q.bus.logged = p.bus.logged) :
    p.readsAs q :=
  ⟨Part.sameConfig_of_mirrors h.mirrors, h.mode, h.queue, h.arbiter, h.routes, h.time, by rw [h.notice], hlogged⟩

theorem Part.readsAs.trans {p q r : Part} (h : p.readsAs q) (k : q.readsAs r) : p.readsAs r :=
  ⟨⟨fun a ha => (k.mirror a ha).trans (h.mirror a ha), k.valid.trans h.valid⟩, k.mode.trans h.mode, k.queue.trans h.queue,
    k.arbiter.trans h.arbiter, k.routes.trans h.routes, k.time.trans h.time, k.heads.trans h.heads, k.logged.trans h.logged⟩

theorem routeOffset_ne_command (r w : Nat) : routeOffset r w ≠ 0x010 := by
  unfold routeOffset
  omega

theorem Part.readsAs.logsMade {p q : Part} (h : p.readsAs q) : q.logsMade = p.logsMade := by
  funext logs r
  rw [Part.logsMade, Part.logsMade, h.mode, h.heads, h.logged]

theorem Part.readsAs.causeSet {p q : Part} (h : p.readsAs q) : q.causeSet = p.causeSet := by
  funext c r
  rw [Part.causeSet, Part.causeSet, Part.causeEnable, h.mirror _ (by decide), Part.causeEnable]

theorem Part.readsAs.now {p q : Part} (h : p.readsAs q) : q.now = p.now := by rw [Part.now, h.time, Part.now]

theorem Part.sameConfig.primaryDest {p q : Part} (h : p.sameConfig q) (r : RouteNo) : q.primaryDest r = p.primaryDest r := by
  rw [Part.primaryDest, h.mirror _ (routeOffset_ne_command _ _), Part.primaryDest]

theorem Part.sameConfig.resolve {p q : Part} (h : p.sameConfig q) (r : RouteNo) (l : Leg) : q.resolve r l = p.resolve r l := by
  cases l with
  | primary => exact h.primaryDest r
  | backup =>
    have hbackup : q.backupDest r = p.backupDest r := by
      simp only [Part.backupDest, h.mirror _ (routeOffset_ne_command _ _)]
    simp only [Part.resolve, hbackup, h.primaryDest r]

theorem Part.sameConfig.droppedLog {p q : Part} (h : p.sameConfig q) (kind : LogKind) : q.droppedLog kind = p.droppedLog kind := by
  funext r
  rw [Part.droppedLog, h.resolve, Part.droppedLog]

theorem Part.readsAs.admittedAfter {p q : Part} (h : p.readsAs q) (rq : Request) (stay : List Record) :
    Part.admittedAfter rq stay q = Part.admittedAfter rq stay p := by
  funext r
  have hsticky : q.stickyLeg rq.route = p.stickyLeg rq.route := by
    rw [Part.stickyLeg, h.mirror _ (routeOffset_ne_command _ _), Part.stickyLeg]
  have hroute : q.route rq.route = p.route rq.route := by rw [Part.route, h.routes, Part.route]
  unfold Part.admittedAfter
  rw [hsticky, hroute, h.now]

/-- A request made by a state that reads as the one the statement speaks of. -/
theorem Part.requested_before {p p' q : Part} {rq : Request} {later : List LogRecord} (hreads : p.readsAs p')
    (h : p'.requested rq later q) : p.requested rq later q := by
  unfold Part.requested Part.placed Part.foldedInto at h ⊢
  simp only [hreads.logsMade, hreads.causeSet, hreads.droppedLog, hreads.admittedAfter, hreads.queue, hreads.arbiter, hreads.now,
    hreads.primaryDest] at h
  exact h

/-- Committed depends on the records, the deliveries that wait and what has been delivered (R40). -/
theorem Part.committed_congr {p q : Part} {i : PointNo} (hqueue : q.queue = p.queue)
    (hwork : q.points.work.reverse.findSome? (Work.delivers i) = p.points.work.reverse.findSome? (Work.delivers i))
    (hdelivered : (q.shadow i).delivered = (p.shadow i).delivered) : q.committed i = p.committed i := by
  have hpoints : q.points.delivered i = p.points.delivered i := by
    have h : q.points.shadows[i].delivered = p.points.shadows[i].delivered := hdelivered
    rw [Points.delivered, hwork, h, Points.delivered]
  rw [Part.committed, hqueue, hpoints, Part.committed]

/-! ### The report intended calls for -/

/-- What intended calls for has been requested (R40). -/
structure Part.reports (i : PointNo) (n : Intended) (later : List LogRecord) (p q : Part) : Prop where
  active : n.sense = 1 → p.committed i ≠ (1, n.code) →
    p.requested { point := i, sense := .active, code := n.code, priority := n.priority, route := n.route, unrouted := n.unrouted }
      later q
  normal : n.sense = 2 → (p.committed i).1 = 1 →
    p.requested
      { point := i, sense := .normal, code := (p.committed i).2, priority := n.priority, route := n.route
        unrouted := n.unrouted } later q
  activeSame : n.sense = 1 → p.committed i = (1, n.code) → q.queue = p.queue
  normalSame : n.sense = 2 → (p.committed i).1 ≠ 1 → q.queue = p.queue
  nothing : n.sense = 0 → q.queue = p.queue

theorem Part.callsFor_active {p : Part} {i : PointNo} {n : Intended} (hn : (p.shadow i).intended = n) (hsense : n.sense = 1)
    (hc : p.committed i ≠ (1, n.code)) : p.callsFor i =
      some { point := i, sense := .active, code := n.code, priority := n.priority, route := n.route, unrouted := n.unrouted } := by
  have hne : (p.committed i).1 ≠ 1 ∨ (p.committed i).2 ≠ n.code := by
    by_contra hnot
    push Not at hnot
    exact hc (Prod.ext hnot.1 hnot.2)
  simp only [Part.callsFor, hn, hsense, hne, if_true]

theorem Part.callsFor_normal {p : Part} {i : PointNo} {n : Intended} (hn : (p.shadow i).intended = n) (hsense : n.sense = 2)
    (hc : (p.committed i).1 = 1) : p.callsFor i =
      some
        { point := i, sense := .normal, code := (p.committed i).2, priority := n.priority, route := n.route
          unrouted := n.unrouted } := by
  simp [Part.callsFor, hn, hsense, hc]

theorem Part.callsFor_none {p : Part} {i : PointNo} {n : Intended} (hn : (p.shadow i).intended = n)
    (h : n.sense = 0 ∨ (n.sense = 1 ∧ p.committed i = (1, n.code)) ∨ (n.sense = 2 ∧ (p.committed i).1 ≠ 1)) :
    p.callsFor i = none := by
  rcases h with h | ⟨h, hc⟩ | ⟨h, hc⟩
  · simp [Part.callsFor, hn, h]
  · simp [Part.callsFor, hn, h, hc]
  · simp only [Part.callsFor, hn, h, if_neg hc]
    rfl

/-- What intended calls for is requested by a state that reads as the one the statement speaks of. -/
theorem Part.reports_of {p p' q : Part} {i : PointNo} {n : Intended} {later : List LogRecord} (hs : p.queue.sound)
    (hreads : p.readsAs p') (hwork : p'.points.work = []) (hcommitted : p'.committed i = p.committed i)
    (hn : (p'.shadow i).intended = n) (hq : (p'.makeRequest i).follows later q)
    (hcurrent : (p'.callsFor i).isSome = true → (q.shadow i).status = q.derivedStatus i)
    (howed : ((p'.makeRequest i).shadow i).owed = true → (q.shadow i).owed = true) : p.reports i n later q := by
  have hmade : ∀ rq, p'.callsFor i = some rq → p.requested rq later q := fun rq hcalls => by
    have hpoint := Part.callsFor_point hcalls
    refine Part.requested_before hreads (Part.requested_of (by rw [hreads.queue]; exact hs) hwork
      (Part.follows.after_touches (Part.makeRequest_touches hcalls) hq) ?_ fun hrefused hreal => ?_)
    · rw [hpoint]
      exact hcurrent (by rw [hcalls]; rfl)
    · rw [hpoint] at hreal ⊢
      exact howed (by rw [Part.makeRequest_refused hcalls hrefused]; exact decide_eq_true hreal)
  have hsame : p'.callsFor i = none → q.queue = p.queue := fun hcalls => by
    rw [hq.queue, Part.makeRequest_none hcalls, hreads.queue]
  refine ⟨fun hsense hc => hmade _ (Part.callsFor_active hn hsense (by rwa [hcommitted])), fun hsense hc => ?_,
    fun hsense hc => hsame (Part.callsFor_none hn (.inr (.inl ⟨hsense, by rw [hcommitted, hc]⟩))),
    fun hsense hc => hsame (Part.callsFor_none hn (.inr (.inr ⟨hsense, by rwa [hcommitted]⟩))),
    fun hsense => hsame (Part.callsFor_none hn (.inl hsense))⟩
  have hcalls := Part.callsFor_normal hn hsense (by rwa [hcommitted])
  rw [hcommitted] at hcalls
  exact hmade _ hcalls

end Sys2Proof.Machine
end

section
/-! PROOFS. FIFO entries, the owed sweep, condition changes and TEST requests (R46, R47, R52, R53, R57, R58). -/

namespace Sys2Proof.Machine

/-! ### FIFO_ENTRY_TAKEN -/

/-- The oldest FIFO entry has been taken and translated (R47). -/
def Part.fifoTaken (c : Capture) (rest : List Capture) (p : Part) : Part :=
  (p.setFifo rest).onShadow c.point (p.processedAs c.point c.code Option.none)

theorem Part.fifoTaken_keeps (c : Capture) (rest : List Capture) (p : Part) : p.keepsBut [.points] (p.fifoTaken c rest) := by
  intro b hb
  cases b <;> simp [Block.same, Part.fifoTaken, Part.setFifo] at hb ⊢

theorem Part.shadow_fifoTaken (c : Capture) (rest : List Capture) (p : Part) :
    (p.fifoTaken c rest).shadow c.point = p.processedAs c.point c.code Option.none (p.shadow c.point) :=
  Part.shadow_onShadow c.point _ _

theorem Part.fifoTaken_points (c : Capture) (rest : List Capture) (p : Part) : (p.fifoTaken c rest).points =
    { p.points with
      fifo := rest, overrun := p.points.overrun && !rest.isEmpty, shadows := (p.fifoTaken c rest).points.shadows } := rfl

theorem Part.takeFifo_of {p : Part} {c : Capture} {rest : List Capture} (h : p.points.fifo = c :: rest) : p.takeFifo =
    if (p.translated c.point c.code).isNone || (p.shadow c.point).isolated then p.fifoTaken c rest
    else (p.fifoTaken c rest).makeRequest c.point := by
  have hisolated : ((p.fifoTaken c rest).shadow c.point).isolated = (p.shadow c.point).isolated := by
    rw [Part.shadow_fifoTaken]
    rfl
  rw [← hisolated]
  simp only [Part.takeFifo, h]
  rfl

theorem Part.takeFifo_concerns {p : Part} {c : Capture} {rest : List Capture} (h : p.points.fifo = c :: rest) :
    (p.fifoTaken c rest).concerns c.point p.takeFifo ∧ p.takeFifo.shadow c.point =
      { (p.fifoTaken c rest).shadow c.point with
        owed := (p.takeFifo.shadow c.point).owed, status := (p.takeFifo.shadow c.point).status } := by
  rw [Part.takeFifo_of h]
  split
  · exact ⟨Part.concerns_refl _ _, rfl⟩
  · exact ⟨Part.makeRequest_concerns _ _, Part.shadow_makeRequest _ _⟩

theorem Part.serve_fifo {p : Part} {c : Capture} {rest : List Capture} (hm : p.mode.serving = true) (hidle : p.engineIdle)
    (h : p.points.fifo = c :: rest) (hwaits : p.mirrors.waitsSince = none) :
    p.serve (fun p => p.fifoStep.reloadResume) = Part.settle p p.takeFifo := by
  obtain ⟨hfree, hwork⟩ := hidle
  have hconcerns := (Part.takeFifo_concerns h).1
  have hstep : p.fifoStep = p.takeFifo := by
    rw [Part.fifoStep, if_pos hfree, Part.pump_of_concerns hconcerns hwork]
  have hmirrors : p.takeFifo.mirrors = p.mirrors := hconcerns.keeps.mirrors.trans (Part.fifoTaken_keeps c rest p).mirrors
  rw [Part.serve_of_serving hm, hstep, Part.reloadResume_of (by rw [hmirrors, hwaits])]

/-- Settles O44: the entry is translated, and the request intended calls for is made unless the point is isolated. -/
theorem fifoEntryIsTranslatedAndReported : Obligations.FifoEntryIsTranslatedAndReported := by
  refine fun c rest s hm hidle hfifo hwaits hs => ⟨_, rfl, ?_⟩
  have hserve := Part.serve_fifo hm hidle hfifo hwaits
  generalize s.part.serve (fun p => p.fifoStep.reloadResume) = t at hserve ⊢
  obtain ⟨hconcerns, hentry⟩ := Part.takeFifo_concerns hfifo
  have htaken := Part.fifoTaken_keeps c rest s.part
  have hsettled := Part.settle_concerns hconcerns s.part
  rw [← hserve] at hsettled
  have hshadow : t.shadow c.point =
      { s.part.processedAs c.point c.code Option.none (s.part.shadow c.point) with
        owed := (s.part.takeFifo.shadow c.point).owed, status := (s.part.takeFifo.shadow c.point).status } := by
    rw [hserve, Part.shadow_settle, hentry, Part.shadow_fifoTaken]
  have hqueue : (s.part.translated c.point c.code).isNone = true ∨ (s.part.shadow c.point).isolated = true →
      t.queue = s.part.queue := fun h => by
    rw [hserve, Part.settle_queue, Part.takeFifo_of hfifo, if_pos (by simpa using h), htaken.queue]
  refine ⟨⟨rfl, rfl, rfl, Part.keepsBut_trans (Part.keepsBut_mono htaken (by simp)) hsettled.keeps⟩,
    (congrArg Points.fifo hsettled.points).trans rfl, (congrArg Points.overrun hsettled.points).trans rfl, fun j hj => ?_,
    congrArg Shadow.processed hshadow, (congrArg Shadow.delivered hshadow).trans rfl, ?_⟩
  · exact (hsettled.others j hj).trans (Part.shadow_onShadow_ne hj _ _)
  · have hintended : (t.shadow c.point).intended =
        (s.part.translated c.point c.code).getD (s.part.shadow c.point).intended := congrArg Shadow.intended hshadow
    cases htranslated : s.part.translated c.point c.code with
    | none => exact ⟨by rw [hintended, htranslated]; rfl, hqueue (.inl (by rw [htranslated]; rfl))⟩
    | some n =>
      rw [htranslated] at hintended
      have hreports : (s.part.shadow c.point).isolated = false → s.part.reports c.point n [] t := fun hfree => by
        have hmade : s.part.takeFifo = (s.part.fifoTaken c rest).makeRequest c.point := by
          rw [Part.takeFifo_of hfifo, htranslated, hfree]
          rfl
        rw [hmade] at hserve
        refine Part.reports_of hs (Part.readsAs_of_keeps (Part.keepsBut_mono htaken (by simp)) rfl) hidle.2 ?_ ?_ ?_ (fun hcalls => ?_) (fun howed => ?_)
        · exact Part.committed_congr rfl rfl (by rw [Part.shadow_fifoTaken]; rfl)
        · rw [Part.shadow_fifoTaken, Part.processedAs, htranslated]
          rfl
        · rw [hserve]
          exact Part.follows_settle (Part.follows_of_touches (Part.touches_refl c.point _)) _
        · obtain ⟨rq, hrq⟩ := Option.isSome_iff_exists.mp hcalls
          rw [hserve, Part.shadow_settle, Part.derivedStatus_settle]
          exact Part.makeRequest_current hrq
        · rwa [hserve, Part.shadow_settle]
      refine ⟨hintended, fun h => hqueue (.inr h), fun hsense hc => ?_, fun hsense hc => ?_, fun h => ?_⟩
      · cases hisolated : (s.part.shadow c.point).isolated with
        | true => exact hqueue (.inr hisolated)
        | false => exact (hreports hisolated).activeSame hsense hc
      · cases hisolated : (s.part.shadow c.point).isolated with
        | true => exact hqueue (.inr hisolated)
        | false => exact (hreports hisolated).normalSame hsense hc
      · exact ⟨(hreports h).active, (hreports h).normal⟩

/-! ### OWED_SWEEP_STEP -/

/-- The next owed point is the one the sweep comes to first (R58). -/
theorem Points.nextOwed_of {q : Points} {i : PointNo} (howed : q.shadows[i].owed = true)
    (h : (q.sweepPos ≤ i.val ∧ ∀ j : PointNo, q.sweepPos ≤ j.val → j < i → q.shadows[j].owed = false) ∨
      ((∀ j : PointNo, q.sweepPos ≤ j.val → q.shadows[j].owed = false) ∧ ∀ j : PointNo, j < i → q.shadows[j].owed = false)) :
    q.nextOwed = some i := by
  unfold Points.nextOwed
  simp only
  rcases h with ⟨hpos, hbefore⟩ | ⟨hnone, hbefore⟩
  · have hfirst : (List.finRange 264).find? (fun j => decide (q.sweepPos ≤ j.val) && q.shadows[j].owed) = some i :=
      find?_finRange_eq_some.mpr ⟨by simpa using ⟨hpos, howed⟩, fun j hj => by
        by_cases hle : q.sweepPos ≤ j.val
        · rw [hbefore j hle hj, Bool.and_false]
        · rw [decide_eq_false hle, Bool.false_and]⟩
    rw [hfirst]
  · have hfirst : (List.finRange 264).find? (fun j => decide (q.sweepPos ≤ j.val) && q.shadows[j].owed) = none :=
      find?_finRange_eq_none.mpr fun j => by
        by_cases hle : q.sweepPos ≤ j.val
        · rw [hnone j hle, Bool.and_false]
        · rw [decide_eq_false hle, Bool.false_and]
    rw [hfirst]
    exact find?_finRange_eq_some.mpr ⟨howed, hbefore⟩

/-- The sweep has moved on (R58). -/
def Part.sweptTo (n : Nat) (p : Part) : Part := { p with points := { p.points with sweepPos := n } }

theorem Part.sweptTo_keeps (n : Nat) (p : Part) : p.keepsBut [.points] (p.sweptTo n) := by
  intro b hb
  cases b <;> simp [Block.same, Part.sweptTo] at hb ⊢

theorem Part.sweep_of {p : Part} {i : PointNo} (hmay : p.maySweep = true) (hnext : p.points.nextOwed = some i) :
    p.sweep = (p.sweepPoint i).sweptTo (if i.val < 262 then i.val + 1 else 0) := by
  simp only [Part.sweep, hmay, hnext]
  rfl

/-- A point the sweep has come to, before its request (R57). -/
def Part.sweeping (i : PointNo) (p : Part) : Part := (p.setOwed i false).refresh Option.none i

theorem Part.sweeping_touches (i : PointNo) (p : Part) : p.touches i (p.sweeping i) :=
  (Part.setOwed_touches i false p).trans (Part.refresh_touches _ i _)

theorem Part.shadow_sweeping (i : PointNo) (p : Part) : (p.sweeping i).shadow i =
    { p.shadow i with
      owed := false
      processed := if i.val < 256 then p.stateCode i else (p.shadow i).processed
      intended :=
        if i.val < 256 then (p.translated i (p.stateCode i)).getD (p.shadow i).intended
        else if i.val < 263 then p.virtualIntended i (p.condition i) else (p.shadow i).intended } := by
  rw [Part.sweeping, Part.shadow_refresh, Part.shadow_setOwed]
  rfl

theorem Part.sweepPoint_of {p : Part} {i : PointNo} (hon : p.pointEnabled i = true) (hfree : (p.shadow i).isolated = false) :
    p.sweepPoint i = ((p.sweeping i).makeRequest i).restatus i := by
  refine if_pos (Bool.and_eq_true_iff.mpr ⟨hon, ?_⟩)
  rw [Part.shadow_setOwed, Bool.not_eq_true']
  exact hfree

theorem Part.sweepPoint_none {p : Part} {i : PointNo} (h : p.pointEnabled i = false ∨ (p.shadow i).isolated = true) :
    p.sweepPoint i = (p.setOwed i false).restatus i := by
  refine if_neg fun hb => ?_
  obtain ⟨hon, hfree⟩ := Bool.and_eq_true_iff.mp hb
  rw [Part.shadow_setOwed, Bool.not_eq_true'] at hfree
  rcases h with h | h
  · exact absurd (h.symm.trans hon) Bool.false_ne_true
  · exact absurd (hfree.symm.trans h) Bool.false_ne_true

theorem Part.sweepPoint_concerns (i : PointNo) (p : Part) : p.concerns i (p.sweepPoint i) := by
  by_cases h : p.pointEnabled i = false ∨ (p.shadow i).isolated = true
  · rw [Part.sweepPoint_none h]
    exact Part.concerns_of_touches ((Part.setOwed_touches i false p).trans (Part.restatus_touches i _))
  · push Not at h
    rw [Part.sweepPoint_of (by simpa using h.1) (by simpa using h.2)]
    exact ((Part.concerns_of_touches (p.sweeping_touches i)).trans (Part.makeRequest_concerns i _)).trans
      (Part.concerns_of_touches (Part.restatus_touches i _))

theorem Part.sweepPoint_current (i : PointNo) (p : Part) :
    ((p.sweepPoint i).shadow i).status = (p.sweepPoint i).derivedStatus i := by
  by_cases h : p.pointEnabled i = false ∨ (p.shadow i).isolated = true
  · rw [Part.sweepPoint_none h]
    exact Part.restatus_current i _
  · push Not at h
    rw [Part.sweepPoint_of (by simpa using h.1) (by simpa using h.2)]
    exact Part.restatus_current i _

theorem Part.follows_sweptTo {later : List LogRecord} {p q : Part} (h : p.follows later q) (n : Nat) :
    p.follows later (q.sweptTo n) := ⟨h.queue, h.arbiter, h.work, h.logged, h.causes⟩

/-- The entry of a point that is enabled and not isolated, after the sweep has come to it. -/
theorem Part.shadow_sweepPoint {p : Part} {i : PointNo} (hroom : p.queue.count < Config.queuePlaces) (hon : p.pointEnabled i = true)
    (hfree : (p.shadow i).isolated = false) : (p.sweepPoint i).shadow i =
      { (p.sweeping i).shadow i with status := (p.sweepPoint i).derivedStatus i } := by
  have howed : (((p.sweeping i).makeRequest i).shadow i).owed = ((p.sweeping i).shadow i).owed :=
    Part.makeRequest_owed (by rw [(p.sweeping_touches i).1.queue]; exact hroom) i
  rw [← Part.sweepPoint_current, Part.sweepPoint_of hon hfree, Part.shadow_restatus, Part.shadow_makeRequest, howed]

/-- Settles O45: the next owed point is found, brought up to date and reported. -/
theorem sweepReconcilesTheNextOwedPoint : Obligations.SweepReconcilesTheNextOwedPoint := by
  refine fun i s hm hidle hfifo hroom howed hreal hs hnext => ⟨_, rfl, ?_⟩
  obtain ⟨hfree, hwork⟩ := hidle
  have hmay : s.part.maySweep = true := by
    simp [Part.maySweep, hfree, hwork, hfifo, hroom]
  have hserve : s.part.serve Part.sweep =
      Part.settle s.part ((s.part.sweepPoint i).sweptTo (if i.val < 262 then i.val + 1 else 0)) := by
    rw [Part.serve_of_serving hm, Part.sweep_of hmay (Points.nextOwed_of howed hnext)]
  generalize s.part.serve Part.sweep = t at hserve ⊢
  have hconcerns := s.part.sweepPoint_concerns i
  have hshadows : ∀ j, t.shadow j = (s.part.sweepPoint i).shadow j := fun j => by
    rw [hserve, Part.shadow_settle]
    rfl
  have hstatus : t.derivedStatus i = (s.part.sweepPoint i).derivedStatus i := by
    rw [hserve, Part.derivedStatus_settle]
    exact Part.derivedStatus_congr rfl rfl rfl
  have hpoints : t.points = { (s.part.sweepPoint i).points with sweepPos := if i.val < 262 then i.val + 1 else 0 } := by
    rw [hserve, Part.settle_points]
    rfl
  have hqueue : t.queue = (s.part.sweepPoint i).queue := by
    rw [hserve, Part.settle_queue]
    rfl
  refine ⟨⟨rfl, rfl, rfl, ?_⟩, fun j hj => (hshadows j).trans (hconcerns.others j hj), ?_, ?_, ?_, ?_, fun h => ?_, fun hon hnot => ?_⟩
  · rw [hserve]
    exact Part.keepsBut_trans hconcerns.keeps (Part.keepsBut_trans (Part.keepsBut_mono (Part.sweptTo_keeps _ _) (by simp))
      (Part.keepsBut_mono (Part.settle_keeps _ _) (by simp)))
  · refine (congrArg Shadow.owed (hshadows i)).trans ?_
    by_cases h : s.part.pointEnabled i = false ∨ (s.part.shadow i).isolated = true
    · rw [Part.sweepPoint_none h, Part.shadow_restatus, Part.shadow_setOwed, Bool.false_and]
    · push Not at h
      rw [Part.shadow_sweepPoint hroom (by simpa using h.1) (by simpa using h.2), Part.shadow_sweeping]
  · exact (congrArg Shadow.status (hshadows i)).trans ((Part.sweepPoint_current i _).trans hstatus.symm)
  · refine (congrArg Points.sweepPos hpoints).trans ?_
    by_cases h : i.val = 262
    · rw [if_pos h]
      exact if_neg (by omega)
    · rw [if_neg h]
      exact if_pos (by omega)
  · exact (congrArg Points.fifo hpoints).trans ((congrArg Points.fifo hconcerns.points).trans hfifo)
  · have hnone := Part.sweepPoint_none h
    refine ⟨?_, (congrArg Shadow.intended (hshadows i)).trans ?_⟩
    · refine hqueue.trans ?_
      rw [hnone, Part.restatus_queue, Part.setOwed_queue]
    · rw [hnone, Part.shadow_restatus, Part.shadow_setOwed]
  · have hshadow := (hshadows i).trans (Part.shadow_sweepPoint hroom hon hnot)
    have hintended : (t.shadow i).intended = ((s.part.sweeping i).shadow i).intended :=
      (congrArg Shadow.intended hshadow).trans rfl
    have htouches := s.part.sweeping_touches i
    have hreports : s.part.reports i (t.shadow i).intended [] t := by
      refine Part.reports_of hs (Part.readsAs_of_keeps (Part.keepsBut_mono htouches.1 (by simp)) htouches.2.1.logged) ?_ ?_ hintended.symm ?_ (fun _ => ?_)
        fun howed' => ?_
      · exact (congrArg Points.work htouches.2.2.2).trans hwork
      · exact Part.committed_congr htouches.1.queue (by rw [htouches.2.2.2]) (by rw [Part.shadow_sweeping])
      · have hlast := Part.follows_of_touches (Part.restatus_touches i ((s.part.sweeping i).makeRequest i))
        rw [← Part.sweepPoint_of hon hnot] at hlast
        rw [hserve]
        exact Part.follows_settle (Part.follows_sweptTo hlast _) _
      · exact (congrArg Shadow.status (hshadows i)).trans ((Part.sweepPoint_current i _).trans hstatus.symm)
      · rw [Part.makeRequest_owed (by rw [htouches.1.queue]; exact hroom), Part.shadow_sweeping] at howed'
        exact absurd howed' Bool.false_ne_true
    rw [Part.shadow_sweeping] at hshadow
    refine ⟨fun h => ⟨(congrArg Shadow.processed hshadow).trans (if_pos h), (congrArg Shadow.intended hshadow).trans (if_pos h)⟩,
      fun h => (congrArg Shadow.intended hshadow).trans ((if_neg (by omega)).trans (if_pos hreal)), hreports.active,
      hreports.normal, fun h => ?_⟩
    rcases h with h | ⟨h, hc⟩ | ⟨h, hc⟩
    · exact hreports.nothing h
    · exact hreports.activeSame h hc
    · exact hreports.normalSame h hc

/-! ### CONDITION_CHANGE -/

/-- The condition of a virtual point has changed (R52, R165). -/
def Part.conditionSet (i : PointNo) (active : Bool) (p : Part) : Part :=
  (p.onShadow i fun s => { s with intended := p.virtualIntended i active }).latchAs i active

theorem Part.latchAs_keeps (i : PointNo) (active : Bool) (p : Part) : p.keepsBut [.points] (p.latchAs i active) := by
  intro b hb
  unfold Part.latchAs
  split
  · cases b <;> simp [Block.same] at hb ⊢
  · exact Part.keepsBut_refl _ p b hb

theorem Part.latchAs_points (i : PointNo) (active : Bool) (p : Part) : (p.latchAs i active).points =
    { p.points with latch := if i = 262 then active else p.points.latch } := by
  unfold Part.latchAs
  split <;> rfl

theorem Part.shadow_latchAs (i j : PointNo) (active : Bool) (p : Part) : (p.latchAs i active).shadow j = p.shadow j :=
  (congrArg (fun x : Points => x.shadows[j]) (Part.latchAs_points i active p)).trans rfl

theorem Part.conditionSet_keeps (i : PointNo) (active : Bool) (p : Part) : p.keepsBut [.points] (p.conditionSet i active) :=
  Part.keepsBut_trans (Part.onShadow_keeps i _ p) (Part.latchAs_keeps i active _)

theorem Part.shadow_conditionSet (i : PointNo) (active : Bool) (p : Part) : (p.conditionSet i active).shadow i =
    { p.shadow i with intended := p.virtualIntended i active } :=
  (Part.shadow_latchAs i i active _).trans (Part.shadow_onShadow i _ p)

theorem Part.conditionSet_others (i : PointNo) (active : Bool) (p : Part) : p.keepsOtherShadows i (p.conditionSet i active) :=
  fun j hj => (Part.shadow_latchAs i j active _).trans (Part.shadow_onShadow_ne hj _ p)

theorem Part.conditionSet_points (i : PointNo) (active : Bool) (p : Part) : (p.conditionSet i active).points =
    { p.points with
      shadows := (p.conditionSet i active).points.shadows, latch := if i = 262 then active else p.points.latch } := by
  rw [Part.conditionSet, Part.latchAs_points]
  rfl

theorem Part.takeCondition_eq (i : PointNo) (active : Bool) (p : Part) : p.takeCondition i active =
    if p.pointEnabled i then (p.conditionSet i active).makeRequest i else p.conditionSet i active := by
  rw [← Part.pointEnabled_of_mirrors (Part.conditionSet_keeps i active p).mirrors]
  rfl

theorem Part.takeCondition_concerns (i : PointNo) (active : Bool) (p : Part) :
    (p.conditionSet i active).concerns i (p.takeCondition i active) ∧ (p.takeCondition i active).shadow i =
      { (p.conditionSet i active).shadow i with
        owed := ((p.takeCondition i active).shadow i).owed, status := ((p.takeCondition i active).shadow i).status } := by
  rw [Part.takeCondition_eq]
  split
  · exact ⟨Part.makeRequest_concerns _ _, Part.shadow_makeRequest _ _⟩
  · exact ⟨Part.concerns_refl _ _, rfl⟩

/-- The report a condition change of an enabled point calls for (R52). -/
theorem Part.takeCondition_reports {p p' q : Part} {i : PointNo} {active : Bool} {later : List LogRecord} (hs : p.queue.sound)
    (hreads : p.readsAs p') (hcommitted : p'.committed i = p.committed i) (hwork : p'.points.work = [])
    (hon : p'.pointEnabled i = true) (hq : (p'.takeCondition i active).follows later q)
    (hshadow : q.shadow i = (p'.takeCondition i active).shadow i)
    (hstatus : q.derivedStatus i = (p'.takeCondition i active).derivedStatus i) :
    p.reports i (p'.virtualIntended i active) later q := by
  have hset := Part.conditionSet_keeps i active p'
  have hpoints := Part.conditionSet_points i active p'
  rw [Part.takeCondition_eq, if_pos hon] at hq hshadow hstatus
  refine Part.reports_of hs (hreads.trans (Part.readsAs_of_keeps (Part.keepsBut_mono hset (by simp)) (by rw [hset.bus]))) ?_ ?_ ?_ hq
    (fun hcalls => ?_) (fun howed => ?_)
  · exact (congrArg Points.work hpoints).trans hwork
  · refine (Part.committed_congr hset.queue ?_ ?_).trans hcommitted
    · rw [hpoints]
    · rw [Part.shadow_conditionSet]
  · rw [Part.shadow_conditionSet]
  · obtain ⟨rq, hrq⟩ := Option.isSome_iff_exists.mp hcalls
    rw [hshadow, hstatus]
    exact Part.makeRequest_current hrq
  · rwa [hshadow]

/-- Committed does not change when the engine takes a piece of work that delivers nothing. -/
theorem Part.committed_workTaken {p : Part} {w : Work} (hwork : p.points.work = [w]) {i : PointNo} (h : w.delivers i = none) :
    p.workTaken.committed i = p.committed i :=
  Part.committed_congr rfl (by rw [hwork]; simp [Part.workTaken, h]) rfl

/-! ### TEST_REQUEST -/

/-- The log record of a TEST command that is done. -/
def Part.testDone (command : Bool) (p : Part) : List LogRecord :=
  match command, p.notice.inProgress with
  | true, some c => [commandLog p c.code c.tag .done]
  | _, _ => []

theorem Part.finalResult_makesLog (c : Command) (st : ResultStatus) (p : Part) :
    p.logsMade [commandLog p c.code c.tag st] (p.finalResult c st) := by
  intro hm hh
  have hraised := Part.raise_entries .command (p.setResult c.tag st)
  have hset : (p.setResult c.tag st).bus.logged = p.bus.logged :=
    Bus.keepsButEntries.logged (Part.enter_entries _ _ _)
  have hheads : (Part.raise .command (p.setResult c.tag st)).notice.heads.isSome = true := by
    rw [Part.raise_notice, Part.setResult_notice]
    exact hh
  rw [Part.finalResult, Part.logNow, Part.makeLog_logged (by simpa using hm) hheads, hraised.logged, hset]
  simp [commandLog, Part.now]

theorem Part.complete_none {p : Part} (h : p.notice.inProgress = none) (st : ResultStatus) : p.complete st = p := by
  simp only [Part.complete, h]

theorem Part.complete_makesLog {p : Part} {c : Command} (h : p.notice.inProgress = some c) (st : ResultStatus) :
    p.logsMade [commandLog p c.code c.tag st] (p.complete st) := by
  have hcomplete : p.complete st = Part.finalResult c st { p with notice := { p.notice with inProgress := none } } := by
    simp only [Part.complete, h]
  rw [hcomplete]
  exact Part.finalResult_makesLog c st { p with notice := { p.notice with inProgress := none } }

theorem Part.complete_causes (st : ResultStatus) (p : Part) (i : Nat) (h : p.notice.causes.getLsbD i = true) :
    (p.complete st).notice.causes.getLsbD i = true := by
  cases hc : p.notice.inProgress with
  | none => rwa [Part.complete_none hc]
  | some c =>
    have hcauses : (p.complete st).notice.causes = (Part.raise .command (Part.setResult c.tag st
        { p with notice := { p.notice with inProgress := none } })).notice.causes := by
      simp only [Part.complete, hc]
      rw [Part.finalResult_notice]
    rw [hcauses]
    refine (Part.raise_makes .command _).causes i ?_
    rw [Part.setResult_notice]
    exact h

theorem Part.follows_complete (p : Part) : p.follows (p.testDone true) (p.complete .done) := by
  refine ⟨Part.complete_queue _ p, Part.complete_arbiter _ p, by rw [Part.complete_points], ?_, Part.complete_causes .done p⟩
  cases hc : p.notice.inProgress with
  | none =>
    have hdone : p.testDone true = [] := by simp only [Part.testDone, hc]
    rw [Part.complete_none hc, hdone]
    exact fun _ _ => (List.append_nil _).symm
  | some c =>
    have hdone : p.testDone true = [commandLog p c.code c.tag .done] := by simp only [Part.testDone, hc]
    rw [hdone]
    exact Part.complete_makesLog hc .done

theorem Part.follows_refl (p : Part) : p.follows [] p := Part.follows_of_touches (Part.touches_refl 0 p)

/-- The request of a TEST report (R53). -/
def Part.testRequest (r : RouteNo) (p : Part) : Request :=
  { point := 263, sense := .test, code := p.virtualCode 7, priority := p.virtualPriority 7, route := (p.chooseRoute r).1
    unrouted := (p.chooseRoute r).2 }

/-- A TEST request where the virtual point of TEST is enabled, before the command is answered. -/
def Part.testMade (r : RouteNo) (p : Part) : Part :=
  if p.virtualEnabled 7 then (p.request (p.testRequest r)).1.restatus 263 else p

theorem Part.takeTest_eq (r : RouteNo) (command : Bool) (p : Part) :
    p.takeTest r command = if command then (p.testMade r).complete .done else p.testMade r := rfl

theorem Part.testMade_concerns (r : RouteNo) (p : Part) : p.concerns 263 (p.testMade r) := by
  unfold Part.testMade
  split
  · exact (p.request_concerns _ 263).trans (Part.concerns_of_touches (Part.restatus_touches 263 _))
  · exact Part.concerns_refl 263 p

theorem Part.shadow_testMade (r : RouteNo) (p : Part) :
    (p.testMade r).shadow 263 = { p.shadow 263 with status := ((p.testMade r).shadow 263).status } := by
  unfold Part.testMade
  split
  · rw [Part.shadow_restatus, Part.shadow_request]
  · rfl

theorem Part.testMade_inProgress (r : RouteNo) (p : Part) : (p.testMade r).notice.inProgress = p.notice.inProgress := by
  unfold Part.testMade
  split
  · obtain ⟨logs, work, hmakes, -⟩ := p.request_makes (p.testRequest r)
    rw [Part.restatus_notice, hmakes.notice]
  · rfl

theorem Part.testDone_testMade (r : RouteNo) (command : Bool) (p : Part) : (p.testMade r).testDone command = p.testDone command := by
  have hnow : ∀ c : Command, commandLog (p.testMade r) c.code c.tag .done = commandLog p c.code c.tag .done := fun c => by
    rw [commandLog, Part.now, (p.testMade_concerns r).keeps.time, commandLog, Part.now]
  unfold Part.testDone
  rw [Part.testMade_inProgress]
  cases command with
  | false => rfl
  | true =>
    cases p.notice.inProgress with
    | none => rfl
    | some c => exact congrArg (fun l => [l]) (hnow c)

/-- What follows the request of a TEST report in its step. -/
theorem Part.takeTest_follows (r : RouteNo) (command : Bool) (p : Part) :
    (p.testMade r).follows (p.testDone command) (p.takeTest r command) := by
  rw [← Part.testDone_testMade, Part.takeTest_eq]
  cases command with
  | false => exact Part.follows_refl _
  | true => exact Part.follows_complete _

theorem Part.takeTest_points (r : RouteNo) (command : Bool) (p : Part) : (p.takeTest r command).points = (p.testMade r).points := by
  rw [Part.takeTest_eq]
  cases command with
  | false => rfl
  | true => exact Part.complete_points _ _

theorem Part.takeTest_concerns (r : RouteNo) (command : Bool) (p : Part) : p.concerns 263 (p.takeTest r command) := by
  have hpoints := Part.takeTest_points r command p
  obtain ⟨hkeeps, hothers, hmade, hwork⟩ := p.testMade_concerns r
  refine ⟨Part.keepsBut_trans hkeeps ?_, fun j hj => (Part.shadow_of_points hpoints j).trans (hothers j hj), ?_, ?_⟩
  · rw [Part.takeTest_eq]
    cases command with
    | false => exact Part.keepsBut_refl _ _
    | true => exact Part.keepsBut_mono (Part.complete_keeps .done _) (by simp)
  · rw [hpoints]
    exact hmade
  · rw [hpoints]
    exact hwork

/-- A TEST request is a request of the point of TEST, of which the status is derived again. -/
theorem Part.takeTest_requested {p p' : Part} {r : RouteNo} {command : Bool} (hs : p.queue.sound) (hkeeps : p.keepsBut [.points] p')
    (hwork : p'.points.work = []) (hon : p'.virtualEnabled 7 = true) (old : Part) :
    p.requested (p'.testRequest r) (p'.testDone command) (Part.settle old (p'.takeTest r command)) := by
  have hmade : p'.testMade r = (p'.request (p'.testRequest r)).1.restatus 263 := if_pos hon
  have hfollows := p'.takeTest_follows r command
  rw [hmade] at hfollows
  have hpoints := p'.takeTest_points r command
  have hshadow := fun j => Part.shadow_of_points hpoints j
  refine Part.requested_before (Part.readsAs_of_keeps (Part.keepsBut_mono hkeeps (by simp)) (by rw [hkeeps.bus])) (Part.requested_of (by
    rw [hkeeps.queue]; exact hs) hwork (Part.follows_settle (Part.follows.after_touches (Part.restatus_touches 263 _) hfollows) old) ?_
    fun _ h => absurd h (Nat.lt_irrefl 263))
  rw [Part.shadow_settle, Part.derivedStatus_settle]
  refine (congrArg Shadow.status ((hshadow 263).trans (by rw [hmade]))).trans ((Part.restatus_current 263 _).trans ?_)
  refine (Part.derivedStatus_congr (by rw [hfollows.queue]) ?_ (by rw [hshadow, hmade])).symm
  exact (p'.takeTest_concerns r command).keeps.mirrors.trans ((p'.testMade_concerns r).keeps.mirrors.symm.trans (by rw [hmade]))

/-- Settles O46: a condition change sets intended and requests its report, a TEST request is made as it is. -/
theorem conditionsAndTestsBecomeRequests : Obligations.ConditionsAndTestsBecomeRequests := by
  refine ⟨fun i active s hm hnext hvirtual hreal hs => ⟨_, rfl, ?_⟩, fun r command s hm hnext hs => ⟨_, rfl, ?_⟩⟩
  · obtain ⟨hconcerns, hentry⟩ := s.part.workTaken.takeCondition_concerns i active
    have hpoints := s.part.workTaken.conditionSet_points i active
    have hset := s.part.workTaken.conditionSet_keeps i active
    have hserve : s.part.serve (Part.takeWork fun
      | .condition i active => some (Part.takeCondition i active)
      | _ => Option.none) = Part.settle s.part (s.part.workTaken.takeCondition i active) := by
      rw [Part.serve_of_serving hm]
      refine congrArg (Part.settle s.part) (Part.takeWork_of hnext rfl ?_)
      exact Part.pump_of_concerns hconcerns (congrArg Points.work hpoints)
    generalize s.part.serve (Part.takeWork fun
      | .condition i active => some (Part.takeCondition i active)
      | _ => Option.none) = t at hserve ⊢
    have hsettled := Part.settle_concerns hconcerns s.part
    rw [← hserve] at hsettled
    have hintended : (t.shadow i).intended = s.part.virtualIntended i active := by
      rw [hserve, Part.shadow_settle, hentry, Part.shadow_conditionSet]
      rfl
    refine ⟨⟨rfl, rfl, rfl, Part.keepsBut_trans (Part.keepsBut_mono s.part.workTaken_keeps (by simp))
      (Part.keepsBut_trans (Part.keepsBut_mono hset (by simp)) hsettled.keeps)⟩,
      fun j hj => (hsettled.others j hj).trans (Part.conditionSet_others i active _ j hj), hintended,
      (congrArg Points.fifo hsettled.points).trans ((congrArg Points.fifo hpoints).trans rfl),
      (congrArg Points.overrun hsettled.points).trans ((congrArg Points.overrun hpoints).trans rfl), ?_, fun hoff => ?_, fun hon => ?_⟩
    · refine (congrArg Points.latch hsettled.points).trans ((congrArg Points.latch hpoints).trans ?_)
      exact if_congr Fin.ext_iff rfl rfl
    · rw [hserve, Part.settle_queue, Part.takeCondition_eq, if_neg (by
        rw [show s.part.workTaken.pointEnabled i = false from hoff]; exact Bool.false_ne_true), hset.queue]
      rfl
    · have hcommitted := Part.committed_workTaken hnext.2 (i := i) (w := .condition i active) rfl
      have hreports := Part.takeCondition_reports (active := active) (q := t) (later := []) hs
        (Part.readsAs_of_keeps (Part.keepsBut_mono s.part.workTaken_keeps (by simp)) rfl) hcommitted rfl hon
        (by rw [hserve]; exact Part.follows_settle (Part.follows_refl _) _) (by rw [hserve, Part.shadow_settle])
        (by rw [hserve, Part.derivedStatus_settle])
      refine ⟨fun h hc => ?_, fun h hc => ?_, fun h hc => ?_, fun h hc => ?_⟩ <;> subst h
      · exact hreports.activeSame rfl hc
      · exact hreports.normalSame rfl hc
      · exact hreports.active rfl hc
      · exact hreports.normal rfl hc
  · have hconcerns := s.part.workTaken.takeTest_concerns r command
    have hserve : s.part.serve (Part.takeWork fun
      | .test r command => some (Part.takeTest r command)
      | _ => Option.none) = Part.settle s.part (s.part.workTaken.takeTest r command) := by
      rw [Part.serve_of_serving hm]
      exact congrArg (Part.settle s.part) (Part.takeWork_of hnext rfl (Part.pump_of_concerns hconcerns rfl))
    generalize s.part.serve (Part.takeWork fun
      | .test r command => some (Part.takeTest r command)
      | _ => Option.none) = t at hserve ⊢
    have hsettled := Part.settle_concerns hconcerns s.part
    rw [← hserve] at hsettled
    have hshadow : t.shadow 263 = { s.part.shadow 263 with status := (t.shadow 263).status } := by
      have hentry : t.shadow 263 = (s.part.workTaken.testMade r).shadow 263 := by
        rw [hserve, Part.shadow_settle, Part.shadow_of_points (Part.takeTest_points r command _)]
      rw [hentry]
      exact Part.shadow_testMade r s.part.workTaken
    have htrouble := Part.settle_trouble s.part (s.part.workTaken.takeTest r command)
    have hinProgress := s.part.workTaken.testMade_inProgress r
    refine ⟨⟨rfl, rfl, rfl, Part.keepsBut_trans (Part.keepsBut_mono s.part.workTaken_keeps (by simp)) hsettled.keeps⟩,
      (congrArg Points.fifo hsettled.points).trans rfl, hsettled.others, hshadow, fun hoff => ?_, fun hon => ?_,
      fun c hcommand hc => ?_, fun hcommand => ?_⟩
    · have hmade : s.part.workTaken.testMade r = s.part.workTaken := if_neg (by
        rw [show s.part.workTaken.virtualEnabled 7 = false from hoff]; exact Bool.false_ne_true)
      have hfollows := s.part.workTaken.takeTest_follows r command
      rw [hmade] at hfollows
      have hlast := Part.follows_settle hfollows s.part
      rw [← hserve] at hlast
      exact ⟨hlast.queue, hlast.logged⟩
    · have hrequested := Part.takeTest_requested (r := r) (command := command) hs s.part.workTaken_keeps rfl hon s.part
      rw [← hserve] at hrequested
      exact hrequested
    · subst hcommand
      obtain ⟨-, hended, hshows, -⟩ := Part.settle_complete (old := s.part) (hinProgress.trans hc) .done
      rw [hserve]
      exact ⟨hended, hshows⟩
    · subst hcommand
      rw [hserve]
      exact htrouble.2.2.1.trans hinProgress

end Sys2Proof.Machine
end

section
/-! PROOFS. Deliveries and notices of the Report Queue taken by the Point Engine (R12, R50, R51, R77). -/

namespace Sys2Proof.Machine

/-! ### DELIVERY_NOTICE -/

/-- The delivered part of a point has been set and its words entered (R50). -/
def Part.deliveredSet (i : PointNo) (sense : BitVec 2) (code : BitVec 10) (fold : BitVec 4) (p : Part) : Part :=
  (p.onShadow i fun s => { s with delivered := { sense, fold, code } }).enterAll .pointEngine [statusOffset i, codeOffset i]

theorem Part.deliveredSet_eq (i : PointNo) (sense : BitVec 2) (code : BitVec 10) (fold : BitVec 4) (p : Part) :
    p.deliveredSet i sense code fold = ((p.onShadow i fun s => { s with delivered := { sense, fold, code } }).enter .pointEngine
      (statusOffset i)).enterAll .pointEngine [codeOffset i] := by
  rw [Part.deliveredSet, Part.enterAll, List.foldl_cons, Part.enterAll]

theorem Part.takeDelivery_eq (i : PointNo) (sense : BitVec 2) (code : BitVec 10) (fold : BitVec 4) (words : List Nat) (p : Part) :
    p.takeDelivery i sense code fold words =
      ((if sense = 1 ∨ sense = 2 then p.deliveredSet i sense code fold else p).restatus i).enterAll .pointEngine words := rfl

theorem Part.deliveredSet_touches (i : PointNo) (sense : BitVec 2) (code : BitVec 10) (fold : BitVec 4) (p : Part) :
    p.touches i (p.deliveredSet i sense code fold) := (Part.onShadow_touches i _ p).trans (Part.enterAll_touches i _ _ _)

theorem Part.shadow_deliveredSet (i : PointNo) (sense : BitVec 2) (code : BitVec 10) (fold : BitVec 4) (p : Part) :
    (p.deliveredSet i sense code fold).shadow i = { p.shadow i with delivered := { sense, fold, code } } := by
  rw [Part.deliveredSet, Part.shadow_of_points (Part.enterAll_points _ _ _), Part.shadow_onShadow]

theorem Part.takeDelivery_touches (i : PointNo) (sense : BitVec 2) (code : BitVec 10) (fold : BitVec 4) (words : List Nat)
    (p : Part) : p.touches i (p.takeDelivery i sense code fold words) := by
  rw [Part.takeDelivery_eq]
  refine Part.touches.trans ?_ ((Part.restatus_touches i _).trans (Part.enterAll_touches i _ _ _))
  split
  · exact Part.deliveredSet_touches i sense code fold p
  · exact Part.touches_refl i p

theorem Part.shadow_takeDelivery (i : PointNo) (sense : BitVec 2) (code : BitVec 10) (fold : BitVec 4) (words : List Nat)
    (p : Part) : (p.takeDelivery i sense code fold words).shadow i =
      { p.shadow i with
        delivered := if sense = 1 ∨ sense = 2 then { sense, fold, code } else (p.shadow i).delivered
        status := (p.takeDelivery i sense code fold words).derivedStatus i } := by
  have hpoints := Part.enterAll_points .pointEngine words
    ((if sense = 1 ∨ sense = 2 then p.deliveredSet i sense code fold else p).restatus i)
  have hstatus : (p.takeDelivery i sense code fold words).derivedStatus i =
      ((if sense = 1 ∨ sense = 2 then p.deliveredSet i sense code fold else p).restatus i).derivedStatus i := by
    rw [Part.takeDelivery_eq]
    exact Part.derivedStatus_congr (by rw [Part.enterAll_queue]) (by rw [Part.enterAll_mirrors])
      (by rw [Part.shadow_of_points hpoints])
  rw [hstatus, ← Part.restatus_current, Part.takeDelivery_eq, Part.shadow_of_points hpoints, Part.shadow_restatus]
  split
  · rw [Part.shadow_deliveredSet]
  · rfl

/-- A status word that is in the queue is not entered again. -/
theorem Part.restatus_bus_of_mem {i : PointNo} {p : Part} (h : statusOffset i ∈ p.bus.wbq) : (p.restatus i).bus = p.bus := by
  unfold Part.restatus
  split
  · rfl
  · have hmem : statusOffset i ∈ (p.onShadow i fun s => { s with status := p.derivedStatus i }).bus.wbq := h
    rw [Part.enter_present hmem, Part.onShadow_bus]

/-- Where the queue has room, the words of a delivery are all in it (R12, R77). -/
theorem Part.takeDelivery_room {i : PointNo} {sense : BitVec 2} {code : BitVec 10} {fold : BitVec 4} {words : List Nat} {p : Part}
    (hm : p.mode.live = true) (hsense : sense = 1 ∨ sense = 2) (hwait : p.bus.wbWait = [])
    (hroom : p.bus.wbq.length + 2 + words.length ≤ Config.writeBackPlaces) :
    statusOffset i ∈ (p.takeDelivery i sense code fold words).bus.wbq ∧
      codeOffset i ∈ (p.takeDelivery i sense code fold words).bus.wbq ∧
      ∀ a ∈ words, a ∈ (p.takeDelivery i sense code fold words).bus.wbq := by
  obtain ⟨hmem, hwait', -, hlen⟩ := Part.enterAll_room (p := p.onShadow i fun s => { s with delivered := { sense, fold, code } })
    hm hwait .pointEngine (offs := [statusOffset i, codeOffset i]) (by simp only [Part.onShadow_bus]; simp only [List.length_cons]; simp only [List.length_nil]; omega)
  have hbus : ((p.deliveredSet i sense code fold).restatus i).bus = (p.deliveredSet i sense code fold).bus :=
    Part.restatus_bus_of_mem (hmem _ (by simp))
  have hlive : ((p.deliveredSet i sense code fold).restatus i).mode.live = true := by
    rw [Part.restatus_mode, (Part.deliveredSet_touches i sense code fold p).1.mode]
    exact hm
  obtain ⟨hwords, -, hsub, -⟩ := Part.enterAll_room hlive (by rw [hbus]; exact hwait') .pointEngine (offs := words) (by
    rw [hbus]
    refine (Nat.add_le_add_right hlen _).trans ?_
    exact hroom)
  rw [hbus] at hsub
  rw [Part.takeDelivery_eq, if_pos hsense]
  exact ⟨hsub (hmem _ (by simp)), hsub (hmem _ (by simp)), hwords⟩

/-! ### An owner that waits -/

/-- The Point Engine waits alone, with these addresses after its first. -/
def Bus.waitsWith (first : Nat) (later : List Nat) (b : Bus) : Prop :=
  ∃ ticket, b.wbWait = [{ owner := .pointEngine, ticket, first, later }]

theorem Part.enter_waits {p : Part} {off : Nat} (hm : p.mode.live = true) (hwait : p.bus.wbWait = [])
    (hfull : p.bus.wbq.length = Config.writeBackPlaces) (hnew : off ∉ p.bus.wbq) :
    (p.enter .pointEngine off).bus.waitsWith off [] ∧ (p.enter .pointEngine off).bus.wbq = p.bus.wbq := by
  have henter : p.enter .pointEngine off = { p with bus := { p.bus with
      wbWait := [{ owner := .pointEngine, ticket := p.bus.tickets, first := off, later := [] }]
      tickets := p.bus.tickets + 1 } } := by
    simp [Part.enter, hm, hwait, hfull, hnew]
  rw [henter]
  exact ⟨⟨_, rfl⟩, rfl⟩

theorem Part.enter_waitsLater {p : Part} {first off : Nat} {later : List Nat} (hm : p.mode.live = true)
    (hwaits : p.bus.waitsWith first later) (hnew : off ∉ p.bus.wbq) (hfirst : first ≠ off) (hlater : off ∉ later) :
    (p.enter .pointEngine off).bus.waitsWith first (later ++ [off]) ∧ (p.enter .pointEngine off).bus.wbq = p.bus.wbq := by
  obtain ⟨ticket, hwait⟩ := hwaits
  have henter : p.enter .pointEngine off = { p with bus := { p.bus with
      wbWait := [{ owner := .pointEngine, ticket, first, later := later ++ [off] }] } } := by
    simp [Part.enter, hm, hwait, hnew, hfirst, hlater]
  rw [henter]
  exact ⟨⟨ticket, rfl⟩, rfl⟩

theorem Part.enterAll_waitsLater {p : Part} {first : Nat} {later offs : List Nat} (hm : p.mode.live = true)
    (hwaits : p.bus.waitsWith first later) (hnew : ∀ a ∈ offs, a ∉ p.bus.wbq) (hdistinct : (first :: (later ++ offs)).Nodup) :
    (p.enterAll .pointEngine offs).bus.waitsWith first (later ++ offs) ∧ (p.enterAll .pointEngine offs).bus.wbq = p.bus.wbq := by
  induction offs generalizing p later with
  | nil => exact ⟨by rw [List.append_nil]; exact hwaits, rfl⟩
  | cons a as ih =>
    have hfirst : first ≠ a := fun h => by
      rw [List.nodup_cons] at hdistinct
      exact hdistinct.1 (by simp [h])
    have hlater : a ∉ later := fun h => by
      rw [List.nodup_cons, List.nodup_append] at hdistinct
      exact hdistinct.2.2.2 a h a (List.mem_cons_self ..) rfl
    obtain ⟨hwaits', hwbq⟩ := Part.enter_waitsLater hm hwaits (hnew a (List.mem_cons_self ..)) hfirst hlater
    obtain ⟨hwaits'', hwbq'⟩ := ih (p := p.enter .pointEngine a) (later := later ++ [a]) (by rw [Part.enter_mode]; exact hm) hwaits'
      (fun b hb => by rw [hwbq]; exact hnew b (List.mem_cons_of_mem _ hb)) (by simpa using hdistinct)
    rw [List.append_assoc] at hwaits''
    exact ⟨hwaits'', hwbq'.trans hwbq⟩

/-- The address an owner waits with is not entered again. -/
theorem Part.enter_waited {p : Part} {first : Nat} {later : List Nat} (hwaits : p.bus.waitsWith first later) :
    (p.enter .pointEngine first).bus = p.bus := by
  obtain ⟨ticket, hwait⟩ := hwaits
  unfold Part.enter
  split
  · rfl
  · have hmine : p.bus.wbWait.any (·.owner = .pointEngine) = true := by simp [hwait]
    rw [if_pos hmine]
    refine congrArg (fun ws => ({ p.bus with wbWait := ws } : Bus)) (?_ : _ = p.bus.wbWait)
    simp [hwait]

theorem Part.restatus_waited {i : PointNo} {p : Part} {later : List Nat} (hwaits : p.bus.waitsWith (statusOffset i) later) :
    (p.restatus i).bus = p.bus := by
  unfold Part.restatus
  split
  · rfl
  · exact Part.enter_waited hwaits

/-- Where the queue is full, the Point Engine waits with the words of a delivery (R12, R77). -/
theorem Part.takeDelivery_waits {i : PointNo} {sense : BitVec 2} {code : BitVec 10} {fold : BitVec 4} {words : List Nat} {p : Part}
    (hm : p.mode.live = true) (hsense : sense = 1 ∨ sense = 2) (hwait : p.bus.wbWait = [])
    (hfull : p.bus.wbq.length = Config.writeBackPlaces) (hdistinct : (statusOffset i :: codeOffset i :: words).Nodup)
    (hnew : ∀ a ∈ statusOffset i :: codeOffset i :: words, a ∉ p.bus.wbq) :
    (p.takeDelivery i sense code fold words).bus.waitsWith (statusOffset i) (codeOffset i :: words) := by
  obtain ⟨hfirst, hwbq⟩ := Part.enter_waits (p := p.onShadow i fun s => { s with delivered := { sense, fold, code } }) hm hwait hfull
    (hnew _ (List.mem_cons_self ..))
  obtain ⟨hset, hwbq'⟩ := Part.enterAll_waitsLater (offs := [codeOffset i]) (by rw [Part.enter_mode]; exact hm) hfirst
    (fun a ha => by rw [hwbq]; exact hnew a (by simp at ha; simp [ha]))
    (hdistinct.sublist (.cons_cons _ (.cons_cons _ (List.nil_sublist words))))
  rw [← Part.deliveredSet_eq] at hset hwbq'
  rw [List.nil_append] at hset
  have hbus : ((p.deliveredSet i sense code fold).restatus i).bus = (p.deliveredSet i sense code fold).bus :=
    Part.restatus_waited hset
  rw [Part.takeDelivery_eq, if_pos hsense]
  refine (Part.enterAll_waitsLater (later := [codeOffset i]) ?_ (by rw [hbus]; exact hset) (fun a ha => ?_) hdistinct).1
  · rw [Part.restatus_mode, (Part.deliveredSet_touches i sense code fold p).1.mode]
    exact hm
  · rw [hbus]
    refine fun hmem => hnew a (List.mem_cons_of_mem _ (List.mem_cons_of_mem _ ha)) ?_
    exact hwbq ▸ hwbq' ▸ hmem

/-- The owner that has waited longest still does when another one enters an address. -/
theorem Part.enter_head {o : Owner} {w : Waiter} {ws : List Waiter} {p : Part} (h : p.bus.wbWait = w :: ws) (hne : w.owner ≠ o)
    (off : Nat) : (p.enter o off).bus.wbWait.head? = some w := by
  unfold Part.enter
  split
  · rw [h]
    rfl
  split
  · simp [h, hne]
  · simp [h]

theorem Part.settle_head {w : Waiter} {ws : List Waiter} {p : Part} (h : p.bus.wbWait = w :: ws) (hne : w.owner ≠ .windowMirrors)
    (old : Part) : (Part.settle old p).bus.wbWait.head? = some w := by
  unfold Part.settle
  simp only
  split
  · rw [Part.retrouble_bus, h]
    rfl
  · exact Part.enter_head (by rw [Part.retrouble_bus, h]) hne _

/-! ### QUEUE_NOTICE -/

/-- A notice of a return or an exhaustion that withdraws (R51). -/
def Part.noticeWithdraws (k : NoticeKind) (i : PointNo) (p : Part) : Prop :=
  (k = .returned ∨ k = .exhaustion) ∧ ((p.shadow i).isolated = true ∨ p.pointEnabled i = false)

theorem Part.takeNotice_withdraws {k : NoticeKind} {i : PointNo} {p : Part} (h : p.noticeWithdraws k i) :
    p.takeNotice k i = (p.withdrawPoint i).restatus i := by
  obtain ⟨rfl | rfl, hoff⟩ := h
  · exact if_pos (by simpa using hoff)
  · exact if_pos (by simpa using hoff)

theorem Part.takeNotice_other {k : NoticeKind} {i : PointNo} {p : Part} (h : ¬ p.noticeWithdraws k i) :
    p.takeNotice k i = if k = .eviction then p.oweNow i else p.restatus i := by
  cases k with
  | eviction => rfl
  | returned => exact if_neg fun hoff => h ⟨.inl rfl, by simpa using hoff⟩
  | exhaustion => exact if_neg fun hoff => h ⟨.inr rfl, by simpa using hoff⟩
  | withdrawal => rfl
  | assignment => rfl
  | release => rfl
  | merged => rfl

theorem Part.takeNotice_touches {k : NoticeKind} {i : PointNo} {p : Part} (h : ¬ p.noticeWithdraws k i) :
    p.touches i (p.takeNotice k i) := by
  rw [Part.takeNotice_other h]
  split
  · exact Part.oweNow_touches i p
  · exact Part.restatus_touches i p

theorem Part.shadow_takeNotice {k : NoticeKind} {i : PointNo} {p : Part} (h : ¬ p.noticeWithdraws k i) :
    (p.takeNotice k i).shadow i =
      { p.shadow i with
        owed := if k = .eviction then decide (i.val < 263) else (p.shadow i).owed
        status := (p.takeNotice k i).derivedStatus i } := by
  rw [Part.takeNotice_other h]
  by_cases hk : k = .eviction
  · rw [if_pos hk, if_pos hk, ← Part.oweNow_current, Part.shadow_oweNow]
  · rw [if_neg hk, if_neg hk, ← Part.restatus_current, Part.shadow_restatus]

/-- Settles O47: the delivered part, the addresses and the status after a delivery, and what each notice does. -/
theorem noticesBringThePointUpToDate : Obligations.NoticesBringThePointUpToDate := by
  refine ⟨fun i sense code fold words s hm hnext => ⟨_, rfl, ?_⟩, fun k i s hm hnext hs => ⟨_, rfl, ?_⟩⟩
  · have htouches := s.part.workTaken.takeDelivery_touches i sense code fold words
    obtain ⟨hserve, hquiet⟩ := State.work_touches (f := fun
      | .delivery i sense code fold words => some (Part.takeDelivery i sense code fold words)
      | _ => Option.none) hm hnext rfl htouches
    generalize s.part.serve (Part.takeWork fun
      | .delivery i sense code fold words => some (Part.takeDelivery i sense code fold words)
      | _ => Option.none) = t at hserve hquiet ⊢
    obtain ⟨-, hothers, hpoints, hshadow, hstatus⟩ := Part.touches_settle htouches s.part
    rw [← hserve] at hothers hpoints hshadow hstatus
    rw [Part.shadow_takeDelivery, ← hstatus] at hshadow
    have hlive : s.part.workTaken.mode.live = true := Mode.live_of_serving hm
    refine ⟨hquiet, hothers, (congrArg Points.work hpoints).trans rfl, (congrArg Points.fifo hpoints).trans rfl,
      congrArg Shadow.status hshadow, (congrArg Shadow.intended hshadow).trans rfl, (congrArg Shadow.isolated hshadow).trans rfl,
      (congrArg Shadow.owed hshadow).trans rfl, congrArg Shadow.delivered hshadow, fun hsense hwait hroom => ?_,
      fun hsense hwait hfull hdistinct hnew => ?_⟩
    · obtain ⟨hfirst, hsecond, hwords⟩ := Part.takeDelivery_room (p := s.part.workTaken) (i := i) (code := code) (fold := fold) hlive
        hsense hwait hroom
      rw [hserve]
      exact ⟨Part.settle_wbq hfirst _, Part.settle_wbq hsecond _, fun a ha => Part.settle_wbq (hwords a ha) _⟩
    · obtain ⟨ticket, hwaits⟩ := Part.takeDelivery_waits (p := s.part.workTaken) (code := code) (fold := fold) hlive hsense hwait hfull
        hdistinct hnew
      rw [hserve, Part.settle_head hwaits nofun]
      rfl
  · by_cases h : s.part.workTaken.noticeWithdraws k i
    · have hwithdraws := Part.withdraws_restatus i s.part.workTaken
      rw [← Part.takeNotice_withdraws h] at hwithdraws
      have hserve : s.part.serve (Part.takeWork fun
          | .notice k i => some (Part.takeNotice k i)
          | _ => Option.none) = Part.settle s.part (s.part.workTaken.takeNotice k i) := by
        rw [Part.serve_of_serving hm]
        exact congrArg (Part.settle s.part)
          (Part.takeWork_of hnext rfl (Part.pump_of_notices (hwithdraws.notices rfl)))
      generalize s.part.serve (Part.takeWork fun
        | .notice k i => some (Part.takeNotice k i)
        | _ => Option.none) = t at hserve ⊢
      have hsettled := Part.settle_withdraws hwithdraws s.part
      rw [← hserve] at hsettled
      have hgone := hsettled.records hs.told hm
      have hk : ¬ k = .eviction := by
        obtain ⟨rfl | rfl, -⟩ := h
        · exact nofun
        · exact nofun
      refine ⟨⟨rfl, rfl, rfl, Part.keepsBut_trans (Part.keepsBut_mono s.part.workTaken_keeps (by simp)) hsettled.keeps⟩,
        hsettled.others, (congrArg Points.fifo hsettled.points).trans rfl, congrArg Shadow.status hsettled.shadow,
        (congrArg Shadow.intended hsettled.shadow).trans rfl, (congrArg Shadow.delivered hsettled.shadow).trans rfl, ?_, ?_⟩
      · rw [if_neg hk]
        exact (congrArg Shadow.owed hsettled.shadow).trans rfl
      · exact (if_pos (show (k = .returned ∨ k = .exhaustion) ∧ ((s.part.shadow i).isolated = true ∨ s.part.pointEnabled i = false) from
          h)).mpr hgone
    · have htouches := Part.takeNotice_touches h
      obtain ⟨hserve, hquiet⟩ := State.work_touches (f := fun
        | .notice k i => some (Part.takeNotice k i)
        | _ => Option.none) hm hnext rfl htouches
      generalize s.part.serve (Part.takeWork fun
        | .notice k i => some (Part.takeNotice k i)
        | _ => Option.none) = t at hserve hquiet ⊢
      obtain ⟨hkeeps, hothers, hpoints, hshadow, hstatus⟩ := Part.touches_settle htouches s.part
      rw [← hserve] at hkeeps hothers hpoints hshadow hstatus
      rw [Part.shadow_takeNotice h, ← hstatus] at hshadow
      refine ⟨⟨rfl, rfl, rfl, Part.keepsBut_trans (Part.keepsBut_mono s.part.workTaken_keeps (by simp))
        (Part.keepsBut_mono hkeeps (by simp))⟩, hothers, (congrArg Points.fifo hpoints).trans rfl, congrArg Shadow.status hshadow,
        (congrArg Shadow.intended hshadow).trans rfl, (congrArg Shadow.delivered hshadow).trans rfl, congrArg Shadow.owed hshadow, ?_⟩
      exact (if_neg (show ¬ ((k = .returned ∨ k = .exhaustion) ∧
        ((s.part.shadow i).isolated = true ∨ s.part.pointEnabled i = false)) from h)).mpr hkeeps.queue

end Sys2Proof.Machine
end

section
/-! PROOFS. TEST CALL and CLEAR TROUBLE (R22, R158, R165, R175, R176). -/

namespace Sys2Proof.Machine

/-! ### What a command word does not change -/

theorem directoryOffset_ne_command (d w : Nat) : directoryOffset d w ≠ 0x010 := by
  unfold directoryOffset
  omega

theorem virtualOffset_ne_command (v w : Nat) : virtualOffset v w ≠ 0x010 := by
  unfold virtualOffset
  omega

theorem translationOffset_ne_command (c s w : Nat) : translationOffset c s w ≠ 0x010 := by
  unfold translationOffset
  omega

theorem pointOffset_ne_command (i w : Nat) : pointOffset i w ≠ 0x010 := by
  unfold pointOffset
  omega

theorem Part.sameConfig.inForce {p q : Part} (h : p.sameConfig q) (r : RouteNo) : q.inForce r = p.inForce r := by
  simp only [Part.inForce, h.primaryDest, h.valid, Part.routeEnabled, h.mirror _ (routeOffset_ne_command _ _), Part.destEnabled,
    h.mirror _ (directoryOffset_ne_command _ _)]

theorem Part.sameConfig.chooseRoute {p q : Part} (h : p.sameConfig q) (r : RouteNo) : q.chooseRoute r = p.chooseRoute r := by
  rw [Part.chooseRoute, h.inForce, h.inForce, Part.chooseRoute]

theorem Part.sameConfig.virtualRoute {p q : Part} (h : p.sameConfig q) (v : Nat) : q.virtualRoute v = p.virtualRoute v := by
  rw [Part.virtualRoute, h.mirror _ (virtualOffset_ne_command _ _), Part.virtualRoute]

theorem Part.sameConfig.virtualIntended {p q : Part} (h : p.sameConfig q) (i : PointNo) (active : Bool) :
    q.virtualIntended i active = p.virtualIntended i active := by
  have hcode : q.virtualCode (virtualNo i) = p.virtualCode (virtualNo i) := by
    rw [Part.virtualCode, h.mirror _ (virtualOffset_ne_command _ _), Part.virtualCode]
  have hpriority : q.virtualPriority (virtualNo i) = p.virtualPriority (virtualNo i) := by
    rw [Part.virtualPriority, h.mirror _ (virtualOffset_ne_command _ _), Part.virtualPriority]
  simp only [Part.virtualIntended, h.chooseRoute, h.virtualRoute, hcode, hpriority]

theorem Part.sameConfig.pointEnabled {p q : Part} (h : p.sameConfig q) (i : PointNo) : q.pointEnabled i = p.pointEnabled i := by
  rw [Part.pointEnabled, h.mirror _ (pointOffset_ne_command _ _), Part.virtualEnabled, h.mirror _ (virtualOffset_ne_command _ _),
    Part.pointEnabled, Part.virtualEnabled]

theorem Part.sameConfig.stateCode {p q : Part} (h : p.sameConfig q) (i : PointNo) : q.stateCode i = p.stateCode i := by
  rw [Part.stateCode, h.mirror _ (pointOffset_ne_command _ _), Part.stateCode]

theorem Part.sameConfig.translated {p q : Part} (h : p.sameConfig q) (i : PointNo) (code : BitVec 6) :
    q.translated i code = p.translated i code := by
  have hclass : q.pointClass i = p.pointClass i := by
    rw [Part.pointClass, h.mirror _ (pointOffset_ne_command _ _), Part.pointClass]
  have hword : ∀ c k w, q.mirror (translationOffset c k w) = p.mirror (translationOffset c k w) := fun c k w =>
    h.mirror _ (translationOffset_ne_command c k w)
  have hsense : q.transSense = p.transSense := by
    funext c k
    rw [Part.transSense, hword, Part.transSense]
  have hroute : q.transRoute = p.transRoute := by
    funext c k
    rw [Part.transRoute, hword, Part.transRoute]
  have hcode : q.transCode = p.transCode := by
    funext c k
    rw [Part.transCode, hword, Part.transCode]
  have hpriority : q.transPriority = p.transPriority := by
    funext c k
    rw [Part.transPriority, hword, Part.transPriority]
  rw [Part.translated, hclass, hsense, hroute, hcode, hpriority, h.chooseRoute, Part.translated]

/-- A command handed to its owner reads as the state before it. -/
theorem Part.readsAs_handing {p : Part} (hwords : p.mirrors.words.wf = true) (c : Command) (w : Word) : p.readsAs (p.handing c w) := by
  have hkeeps := Part.handing_keepsBut c w p
  have hmirrors := (Part.handing_keeps c w p).mirrors
  refine ⟨⟨fun a ha => ?_, by rw [hmirrors]; rfl⟩, hkeeps.mode, hkeeps.queue, hkeeps.arbiter, hkeeps.routes, hkeeps.time,
    by rw [Part.handing_notice], (Part.handing_entries c w p).logged⟩
  rw [Part.mirror_of_mirrors hmirrors, Part.mirror_setMirror_command hwords, if_neg ha]

/-- The Point Engine waits as before when another owner enters an address. -/
theorem Part.engineWaits_of_waiters {p q : Part}
    (h : q.bus.wbWait.filter (·.owner = .pointEngine) = p.bus.wbWait.filter (·.owner = .pointEngine)) :
    q.engineWaits = p.engineWaits := by
  have hany : ∀ r : Part, r.engineWaits = !(r.bus.wbWait.filter (·.owner = .pointEngine)).isEmpty := fun r => by
    unfold Part.engineWaits
    induction r.bus.wbWait with
    | nil => rfl
    | cons w ws ih =>
      by_cases hw : w.owner = .pointEngine
      · simp [hw]
      · simp [hw, ih]
  rw [hany, h, hany]

theorem Part.handing_engineFree (c : Command) (w : Word) (p : Part) : (p.handing c w).engineFree = p.engineFree := by
  have hwaits : (p.handing c w).engineWaits = p.engineWaits :=
    Part.engineWaits_of_waiters (Part.enter_waiters_ne (o := .pointEngine) (a := .noticeUnit) nofun 0x012 _)
  rw [Part.engineFree, hwaits, (Part.handing_keepsBut c w p).points, Part.engineFree]

/-! ### Addresses that have room -/

/-- There is room in the write-back queue for every address of these that is not there yet, and no owner waits. -/
def Bus.roomFor (offs : List Nat) (b : Bus) : Prop :=
  b.wbWait = [] ∧ b.wbq.length + (offs.filter (· ∉ b.wbq)).length ≤ Config.writeBackPlaces

theorem Bus.roomFor_of_length {offs : List Nat} {b : Bus} (hwait : b.wbWait = [])
    (h : b.wbq.length + offs.length ≤ Config.writeBackPlaces) : b.roomFor offs :=
  ⟨hwait, (Nat.add_le_add_left (List.length_filter_le _ _) _).trans h⟩

theorem length_filter_not_mem_append {offs l : List Nat} {a : Nat} (ha : a ∈ offs) (hnew : a ∉ l) :
    (offs.filter (· ∉ l ++ [a])).length + 1 ≤ (offs.filter (· ∉ l)).length := by
  have hsub : offs.filter (· ∉ l ++ [a]) = (offs.filter (· ∉ l)).filter (· ≠ a) := by
    rw [List.filter_filter]
    exact List.filter_congr fun b _ => by by_cases hb : b = a <;> by_cases hl : b ∈ l <;> simp [hb, hl]
  rw [hsub]
  exact List.length_filter_lt_length_iff_exists.mpr ⟨a, List.mem_filter.mpr ⟨ha, by simpa using hnew⟩, by simp⟩

/-- An address of these enters at once, and there is room for the others still. -/
theorem Part.enter_roomFor {offs : List Nat} {off : Nat} {p : Part} (hm : p.mode.live = true) (h : p.bus.roomFor offs)
    (hoff : off ∈ offs) (o : Owner) : (p.enter o off).bus.roomFor offs := by
  by_cases hthere : off ∈ p.bus.wbq
  · rw [Part.enter_present hthere]
    exact h
  · obtain ⟨hwait, hlen⟩ := h
    have hfewer := length_filter_not_mem_append hoff hthere
    have hroom : p.bus.wbq.length < Config.writeBackPlaces := by omega
    refine ⟨(Part.enter_room hm hwait hroom o off).2.1, ?_⟩
    rw [Part.enter_wbq hm hthere hwait hroom, List.length_append, List.length_singleton]
    omega

theorem Part.roomFor_of_entries {offs : List Nat} {b c : Bus} (h : b.roomFor offs) (hwbq : c.wbq = b.wbq)
    (hwait : c.wbWait = b.wbWait) : c.roomFor offs := by
  rw [Bus.roomFor, hwbq, hwait]
  exact h

theorem Part.raise_roomFor {offs : List Nat} {p : Part} (hm : p.mode.live = true) (h : p.bus.roomFor offs) (hoff : 0x013 ∈ offs)
    (c : Cause) : (p.raise c).bus.roomFor offs := by
  unfold Part.raise
  split
  · exact Part.enter_roomFor (p := { p with notice := { p.notice with causes := p.notice.causes ||| c.bits } }) hm h hoff _
  · exact h

theorem Part.makeLog_roomFor {offs : List Nat} {p : Part} (h : p.bus.roomFor offs) (r : LogRecord) :
    (p.makeLog r).bus.roomFor offs := by
  unfold Part.makeLog Part.stage
  split
  · split <;> exact h
  · exact h

theorem Part.setRecords_roomFor {offs : List Nat} {p : Part} (hm : p.mode.live = true) (h : p.bus.roomFor offs)
    (hoff : 0x019 ∈ offs) (rs : List Record) : (p.setRecords rs).bus.roomFor offs := by
  unfold Part.setRecords
  simp only
  split
  · exact h
  · exact Part.enter_roomFor (p := p.withRecords rs) hm h hoff _

theorem Part.foldl_makeLog_roomFor {offs : List Nat} {p : Part} (h : p.bus.roomFor offs) (logs : List LogRecord) :
    (logs.foldl (fun q l => q.makeLog l) p).bus.roomFor offs := by
  induction logs generalizing p with
  | nil => exact h
  | cons l ls ih => exact ih (Part.makeLog_roomFor h l)

theorem Part.foldTold_bus (x : Record) (p : Part) : (p.foldTold x).bus = p.bus := by
  unfold Part.foldTold
  split <;> rfl

theorem Part.evicted_roomFor {offs : List Nat} {p : Part} (hm : p.mode.live = true) (h : p.bus.roomFor offs)
    (hcauses : 0x013 ∈ offs) (hcount : 0x019 ∈ offs) (v : Record) : (p.evicted v).bus.roomFor offs := by
  have hleft := Part.setRecords_roomFor hm h hcount (p.queue.records.filter (· ∉ p.queue.victims v))
  have hleftMode := (Part.setRecords_makes (p.queue.records.filter (· ∉ p.queue.victims v)) p).keeps.mode
  rw [Part.evicted]
  generalize p.setRecords (p.queue.records.filter (· ∉ p.queue.victims v)) = q at hleft hleftMode ⊢
  have hlogs := Part.foldl_makeLog_roomFor hleft ((p.queue.victims v).map (p.droppedLog .evicted))
  have hlogsMode := (Part.foldl_makeLog_makes ((p.queue.victims v).map (p.droppedLog .evicted)) q).keeps.mode
  generalize ((p.queue.victims v).map (p.droppedLog .evicted)).foldl (fun q l => q.makeLog l) q = x at hlogs hlogsMode ⊢
  exact Part.raise_roomFor (by rw [hlogsMode, hleftMode]; exact hm) hlogs hcauses .queue

theorem Part.changeRecord_roomFor {offs : List Nat} {p : Part} (hm : p.mode.live = true) (h : p.bus.roomFor offs)
    (hcount : 0x019 ∈ offs) (id : Nat) (f : Record → Record) : (p.changeRecord id f).bus.roomFor offs :=
  Part.setRecords_roomFor hm h hcount _

theorem Part.withdraw_roomFor {offs : List Nat} {p : Part} (hm : p.mode.live = true) (h : p.bus.roomFor offs)
    (hcount : 0x019 ∈ offs) (r : Record) : (p.withdraw r).bus.roomFor offs := by
  rw [Part.withdraw, Part.tell_bus]
  exact Part.makeLog_roomFor (Part.setRecords_roomFor hm h hcount _) _

theorem Part.admission_roomFor {offs : List Nat} {p : Part} (hm : p.mode.live = true) (h : p.bus.roomFor offs)
    (hcount : 0x019 ∈ offs) (rq : Request) : (p.admission rq).bus.roomFor offs :=
  Part.setRecords_roomFor (p := { p with queue := { p.queue with nextId := p.queue.nextId + 1 } }) hm h hcount _

theorem Part.refuse_roomFor {offs : List Nat} {p : Part} (hm : p.mode.live = true) (h : p.bus.roomFor offs)
    (hcauses : 0x013 ∈ offs) (rq : Request) : (p.refuse rq).bus.roomFor offs := by
  have hlogged : (p.logNow (p.refusedLog rq)).mode.live = true := by
    rw [(Part.logNow_makes (p.refusedLog rq) p).keeps.mode]
    exact hm
  exact Part.raise_roomFor hlogged (Part.makeLog_roomFor h _) hcauses .queue

/-- A request enters no address but the words of the queue's occupancy and of the causes. -/
theorem Part.request_roomFor {offs : List Nat} {p : Part} (hm : p.mode.live = true) (h : p.bus.roomFor offs)
    (hcauses : 0x013 ∈ offs) (hcount : 0x019 ∈ offs) (rq : Request) : (p.request rq).1.bus.roomFor offs := by
  have hmode : ∀ q : Part, q.mode = p.mode → q.mode.live = true := fun q hq => by
    rw [hq]
    exact hm
  unfold Part.request
  split
  · rw [Part.foldTold_bus]
    exact Part.changeRecord_roomFor hm h hcount _ _
  · rename_i y _
    rw [Part.foldTold_bus]
    exact Part.changeRecord_roomFor (hmode _ (p.withdraw_makes y).keeps.mode) (Part.withdraw_roomFor hm h hcount y) hcount _ _
  · split
    · exact Part.admission_roomFor hm h hcount rq
    split
    · rename_i v _
      split
      · rw [Part.evict_eq]
        exact Part.admission_roomFor (hmode _ (p.evicted_makes v).1.keeps.mode) (Part.evicted_roomFor hm h hcauses hcount v) hcount rq
      · exact Part.refuse_roomFor hm h hcauses rq
    · exact Part.refuse_roomFor hm h hcauses rq

theorem Part.restatus_roomFor {offs : List Nat} {i : PointNo} {p : Part} (hm : p.mode.live = true) (h : p.bus.roomFor offs)
    (hoff : statusOffset i ∈ offs) : (p.restatus i).bus.roomFor offs := by
  unfold Part.restatus
  split
  · exact h
  · exact Part.enter_roomFor (p := p.onShadow i fun s => { s with status := p.derivedStatus i }) hm h hoff _

theorem Part.makeRequest_roomFor {offs : List Nat} {i : PointNo} {p : Part} (hm : p.mode.live = true) (h : p.bus.roomFor offs)
    (hcauses : 0x013 ∈ offs) (hcount : 0x019 ∈ offs) (hoff : statusOffset i ∈ offs) : (p.makeRequest i).bus.roomFor offs := by
  cases hcalls : p.callsFor i with
  | none =>
    rw [Part.makeRequest_none hcalls]
    exact h
  | some rq =>
    have hlive : (p.request rq).1.mode.live = true := by
      rw [(p.request_concerns rq i).keeps.mode]
      exact hm
    have hroom := Part.request_roomFor hm h hcauses hcount rq
    rw [Part.makeRequest_of hcalls]
    split
    · exact Part.restatus_roomFor (p := (p.request rq).1.setOwed i true) hlive hroom hoff
    · exact Part.restatus_roomFor hlive hroom hoff

/-! ### CLEAR TROUBLE in the Point Engine -/

/-- The parts of the piece of work the engine is in. -/
def Part.withTodo (ops : List PointOp) (p : Part) : Part := { p with points := { p.points with todo := ops } }

theorem Part.withTodo_keeps (ops : List PointOp) (p : Part) : p.keepsBut [.points] (p.withTodo ops) := by
  intro b hb
  cases b <;> simp [Block.same, Part.withTodo] at hb ⊢

theorem Part.withTodo_nil {p : Part} (h : p.points.todo = []) : p.withTodo [] = p := by rw [Part.withTodo, ← h]

/-- A piece of work without a row of its own is begun as soon as it is told where the engine is idle (log 10). -/
theorem Part.pump_clearTrouble {p : Part} (h : p.engineIdle) : (p.tell .clearTrouble).pump = Part.runOps clearTroubleOps p := by
  obtain ⟨hfree, hwork⟩ := h
  have hfree' : (p.tell .clearTrouble).engineFree = true := hfree
  have hwork' : (p.tell .clearTrouble).points.work = [.clearTrouble] := by rw [Part.tell_work, hwork, List.nil_append]
  rw [Part.pump, if_pos hfree', hwork']
  refine congrArg (Part.runOps clearTroubleOps) ?_
  show { p with points := { p.points with work := [] } } = p
  rw [← hwork]

theorem Part.runOps_cons {op : PointOp} (hop : op ≠ .drainFifo) (rest : List PointOp) (p : Part) : Part.runOps (op :: rest) p =
    if p.engineWaits then p.withTodo (op :: rest) else Part.runOps rest (p.doOp op) := by
  rw [Part.runOps]
  split
  · rfl
  · exact if_neg fun h => hop h.1

/-- CLEAR TROUBLE is done in its step unless the engine has to wait for a place in the queue (R165). -/
theorem Part.runOps_clearTrouble {p : Part} (h : p.engineWaits = false) : Part.runOps clearTroubleOps p =
    if p.clearLatch.engineWaits then p.clearLatch.withTodo [.commandDone] else (p.clearLatch.complete .done).withTodo [] := by
  rw [clearTroubleOps, Part.runOps_cons (op := .clearLatch) nofun, if_neg (by rw [h]; exact Bool.false_ne_true),
    Part.runOps_cons (op := .commandDone) nofun]
  rfl

theorem Part.clearLatch_of {p : Part} (hlatch : p.points.latch = true) (hover : p.points.overrun = false) :
    p.clearLatch = p.takeCondition 262 false := if_pos (by simp [hlatch, hover])

theorem Part.clearLatch_idle {p : Part} (h : p.points.latch = false ∨ p.points.overrun = true) : p.clearLatch = p :=
  if_neg (by rcases h with h | h <;> simp [h])

/-- A request leaves of the Notice Unit all but the heads and the causes. -/
theorem Part.makeRequest_notice (i : PointNo) (p : Part) :
    (p.makeRequest i).notice.inProgress = p.notice.inProgress ∧ (p.makeRequest i).notice.heads.isSome = p.notice.heads.isSome := by
  cases hcalls : p.callsFor i with
  | none =>
    rw [Part.makeRequest_none hcalls]
    exact ⟨rfl, rfl⟩
  | some rq =>
    obtain ⟨logs, work, hmakes, -⟩ := p.request_makes rq
    have hnotice := (Part.makeRequest_touches hcalls).1.notice
    rw [hnotice, hmakes.heads, hmakes.notice]
    exact ⟨rfl, rfl⟩

theorem Part.takeCondition_notice (i : PointNo) (active : Bool) (p : Part) :
    (p.takeCondition i active).notice.inProgress = p.notice.inProgress ∧
      (p.takeCondition i active).notice.heads.isSome = p.notice.heads.isSome := by
  rw [Part.takeCondition_eq, ← (Part.conditionSet_keeps i active p).notice]
  split
  · exact Part.makeRequest_notice i _
  · exact ⟨rfl, rfl⟩

theorem Part.takeCondition_roomFor {offs : List Nat} {i : PointNo} {p : Part} (hm : p.mode.live = true) (h : p.bus.roomFor offs)
    (hcauses : 0x013 ∈ offs) (hcount : 0x019 ∈ offs) (hoff : statusOffset i ∈ offs) (active : Bool) :
    (p.takeCondition i active).bus.roomFor offs := by
  have hset := Part.conditionSet_keeps i active p
  rw [Part.takeCondition_eq]
  split
  · exact Part.makeRequest_roomFor (by rw [hset.mode]; exact hm) (by rw [hset.bus]; exact h) hcauses hcount hoff
  · rw [hset.bus]
    exact h

theorem Part.engineWaits_of_roomFor {offs : List Nat} {p : Part} (h : p.bus.roomFor offs) : p.engineWaits = false := by
  simp [Part.engineWaits, h.1]

/-- A final result said of the state before the command's effect. -/
theorem Part.answered_before {p p' q : Part} {code : BitVec 4} {tag : BitVec 8} {st : ResultStatus} (hmode : p'.mode = p.mode)
    (hcauses : p'.causeEnable = p.causeEnable) (hheads : p'.notice.heads.isSome = p.notice.heads.isSome)
    (h : p'.answered code tag st q) : p.answered code tag st q := by
  obtain ⟨hshows, hcause, hlog⟩ := h
  refine ⟨hshows, fun hen => hcause (by rw [hcauses]; exact hen), fun hm hh => hlog (by rw [hmode]; exact hm) (by rw [hheads]; exact hh)⟩

/-- What CLEAR TROUBLE changes where the latch ends with it. -/
theorem Part.runOps_clearTrouble_spec {p : Part} (hidle : p.engineIdle) (hlatch : p.points.latch = true)
    (hover : p.points.overrun = false) :
    let q := Part.runOps clearTroubleOps p
    p.keepsBut [.bus, .notice, .points, .queue, .arbiter] q ∧ q.points.latch = false ∧ q.points.fifo = p.points.fifo ∧
      p.keepsOtherShadows 262 q ∧ (q.shadow 262).intended = p.virtualIntended 262 false ∧
      ((p.takeCondition 262 false).engineWaits = false → q = (p.takeCondition 262 false).complete .done ∧ q.points.todo = []) := by
  obtain ⟨hwaits, htodo⟩ := Part.engineWaits_of_free hidle.1
  have hset := p.conditionSet_keeps 262 false
  have hsetPoints := p.conditionSet_points 262 false
  obtain ⟨hconcerns, hentry⟩ := p.takeCondition_concerns 262 false
  have hkeeps : p.keepsBut [.bus, .notice, .points, .queue, .arbiter] (p.takeCondition 262 false) :=
    Part.keepsBut_trans (Part.keepsBut_mono hset (by simp)) hconcerns.keeps
  have hpoints := hconcerns.points
  have htodo' : (p.takeCondition 262 false).points.todo = [] :=
    (congrArg Points.todo hpoints).trans ((congrArg Points.todo hsetPoints).trans htodo)
  have hlatch' : (p.takeCondition 262 false).points.latch = false :=
    (congrArg Points.latch hpoints).trans ((congrArg Points.latch hsetPoints).trans rfl)
  have hfifo : (p.takeCondition 262 false).points.fifo = p.points.fifo :=
    (congrArg Points.fifo hpoints).trans ((congrArg Points.fifo hsetPoints).trans rfl)
  have hothers : p.keepsOtherShadows 262 (p.takeCondition 262 false) := fun j hj =>
    (hconcerns.others j hj).trans (p.conditionSet_others 262 false j hj)
  have hintended : ((p.takeCondition 262 false).shadow 262).intended = p.virtualIntended 262 false := by
    rw [hentry, Part.shadow_conditionSet]
  have hops := Part.runOps_clearTrouble hwaits
  rw [Part.clearLatch_of hlatch hover] at hops
  have hdone : ((p.takeCondition 262 false).complete .done).withTodo [] = (p.takeCondition 262 false).complete .done :=
    Part.withTodo_nil (by rw [Part.complete_points]; exact htodo')
  rw [hdone] at hops
  intro q
  have hq : q = _ := hops
  rw [hq]
  generalize p.takeCondition 262 false = x at hkeeps htodo' hlatch' hfifo hothers hintended ⊢
  by_cases hx : x.engineWaits = true
  · rw [if_pos hx]
    exact ⟨Part.keepsBut_trans hkeeps (Part.keepsBut_mono (Part.withTodo_keeps _ x) (by simp)), hlatch', hfifo, hothers, hintended,
      fun h => absurd (hx.symm.trans h) (by decide)⟩
  · have hsame : (x.complete .done).points = x.points := Part.complete_points _ x
    rw [if_neg hx]
    refine ⟨Part.keepsBut_trans hkeeps (Part.keepsBut_mono (Part.complete_keeps .done x) (by simp)), by rw [hsame]; exact hlatch',
      by rw [hsame]; exact hfifo, fun j hj => (Part.shadow_of_points hsame j).trans (hothers j hj),
      by rw [Part.shadow_of_points hsame]; exact hintended, fun _ => ⟨rfl, by rw [hsame]; exact htodo'⟩⟩

/-! ### The two commands -/

theorem Part.clearTroubleEffect_of_serving {p : Part} (hm : p.mode.serving = true) (hidle : p.engineIdle) :
    p.clearTroubleEffect = Part.runOps clearTroubleOps p := by
  rw [Part.clearTroubleEffect, if_neg fun h => by rw [h] at hm; exact absurd hm (by decide), Part.pump_clearTrouble hidle]

theorem Part.handing_idle {p : Part} (h : p.engineIdle) (c : Command) (w : Word) : (p.handing c w).engineIdle :=
  ⟨(Part.handing_engineFree c w p).trans h.1, by rw [(Part.handing_keepsBut c w p).points]; exact h.2⟩

/-- CLEAR TROUBLE where the latch stays (R165). -/
theorem Part.runOps_clearTrouble_idle {p : Part} (hidle : p.engineIdle) (h : p.points.latch = false ∨ p.points.overrun = true) :
    Part.runOps clearTroubleOps p = p.complete .done := by
  obtain ⟨hwaits, htodo⟩ := Part.engineWaits_of_free hidle.1
  rw [Part.runOps_clearTrouble hwaits, Part.clearLatch_idle h, if_neg (by rw [hwaits]; exact Bool.false_ne_true)]
  exact Part.withTodo_nil (by rw [Part.complete_points]; exact htodo)

/-- The command word, the argument and the work of a TEST CALL (R158). -/
theorem Part.testEffect_of {p : Part} {arg : Word} (h : ¬ 17 ≤ arg.toNat) : p.testEffect arg =
    p.tell (.test (if arg.toNat = 16 then p.virtualRoute 7 else Fin.ofNat 16 arg.toNat) true) := by
  unfold Part.testEffect
  by_cases h16 : arg.toNat = 16
  · rw [if_neg (by omega), if_pos h16, if_pos h16]
  · rw [if_pos (by omega), if_neg h16]

theorem Part.testEffect_bad {p : Part} {arg : Word} (h : 17 ≤ arg.toNat) : p.testEffect arg = p.complete .badArgument := by
  rw [Part.testEffect, if_neg (by omega), if_neg (by omega)]

/-- A report CLEAR TROUBLE has requested, or none, and its result (R165, R176). -/
theorem Part.clearTrouble_reports {p p' : Part} {c : Command} (hs : p.queue.sound)
    (hreads : p.readsAs p') (hpoints : p'.points = p.points) (hwork : p.points.work = []) (hprogress : p'.notice.inProgress = some c) :
    let t := Part.settle p ((p'.takeCondition 262 false).complete .done)
    p.answered c.code c.tag .done t ∧ t.notice.inProgress = none ∧
      if p.pointEnabled 262 = true ∧ (p.committed 262).1 = 1 then
        p.requested
          { point := 262, sense := .normal, code := (p.committed 262).2, priority := p.virtualPriority 6
            route := (p.chooseRoute (p.virtualRoute 6)).1, unrouted := (p.chooseRoute (p.virtualRoute 6)).2 }
          [commandLog p c.code c.tag .done] t
      else t.queue = p.queue ∧ p.logsMade [commandLog p c.code c.tag .done] t := by
  intro t
  have hset := p'.conditionSet_keeps 262 false
  obtain ⟨hconcerns, -⟩ := p'.takeCondition_concerns 262 false
  obtain ⟨hsameProgress, hheads⟩ := p'.takeCondition_notice 262 false
  have hmirrors : (p'.takeCondition 262 false).mirrors = p'.mirrors := hconcerns.keeps.mirrors.trans hset.mirrors
  have htime : (p'.takeCondition 262 false).now = p.now := by
    rw [Part.now, hconcerns.keeps.time, hset.time, hreads.time, Part.now]
  obtain ⟨hanswered, hended⟩ := Part.complete_answered (hsameProgress.trans hprogress) .done
  obtain ⟨-, -, hsettledProgress, -⟩ := Part.settle_trouble p ((p'.takeCondition 262 false).complete .done)
  have hfollows : (p'.takeCondition 262 false).follows [commandLog p c.code c.tag .done] t := by
    have hlast := Part.follows_settle (p'.takeCondition 262 false).follows_complete p
    have hdone : (p'.takeCondition 262 false).testDone true = [commandLog p c.code c.tag .done] := by
      simp only [Part.testDone, hsameProgress.trans hprogress, commandLog, htime]
    rwa [hdone] at hlast
  refine ⟨Part.answered_before ?_ ?_ (hheads.trans hreads.heads) (Part.answered_settle hanswered p), hsettledProgress.trans hended, ?_⟩
  · rw [hconcerns.keeps.mode, hset.mode, hreads.mode]
  · rw [Part.causeEnable, Part.mirror_of_mirrors hmirrors, hreads.mirror _ (by decide), Part.causeEnable]
  have hcommitted : p'.committed 262 = p.committed 262 :=
    Part.committed_congr hreads.queue (by rw [hpoints]) (by rw [Part.shadow_of_points hpoints])
  by_cases h : p.pointEnabled 262 = true ∧ (p.committed 262).1 = 1
  · rw [if_pos h]
    have hreports := Part.takeCondition_reports (q := t) hs hreads hcommitted (by rw [hpoints]; exact hwork)
      ((hreads.pointEnabled 262).trans h.1) hfollows
      (by rw [Part.shadow_settle, Part.shadow_of_points (Part.complete_points .done _)])
      (by rw [Part.derivedStatus_settle]
          exact Part.derivedStatus_congr (by rw [Part.complete_queue]) (Part.complete_mirrors .done _)
            (by rw [Part.shadow_of_points (Part.complete_points .done _)]))
    rw [hreads.virtualIntended] at hreports
    exact hreports.normal rfl h.2
  · rw [if_neg h]
    have hsame : p'.takeCondition 262 false = p'.conditionSet 262 false := by
      rw [Part.takeCondition_eq]
      split
      · rename_i hon
        refine Part.makeRequest_none (Part.callsFor_none (n := p'.virtualIntended 262 false) ?_ (.inr (.inr ⟨rfl, fun hc => h ⟨?_, ?_⟩⟩)))
        · rw [Part.shadow_conditionSet]
        · rwa [← hreads.pointEnabled]
        · rw [← hcommitted, ← hc]
          refine congrArg Prod.fst (Part.committed_congr hset.queue ?_ ?_).symm
          · rw [Part.conditionSet_points]
          · rw [Part.shadow_conditionSet]
      · rfl
    rw [hsame] at hfollows
    refine ⟨hfollows.queue.trans (hset.queue.trans hreads.queue), fun hm hh => ?_⟩
    rw [hfollows.logged (by rw [hset.mode, hreads.mode]; exact hm) (by rw [hset.notice, hreads.heads]; exact hh), hset.bus, hreads.logged]

/-- Settles O31: TEST CALL tells the Point Engine, CLEAR TROUBLE runs its two parts in the step of its command word. -/
theorem testCallAndClearTroubleReachThePointEngine : Obligations.TestCallAndClearTroubleReachThePointEngine := by
  refine fun tag spare s ⟨hw, hfree⟩ => ⟨fun hm => ?_, fun hm hidle h => ?_, fun hm hidle hlatch hover hs => ?_, fun hm => ?_⟩
  · have hreads := Part.readsAs_handing hw.2.2 { code := 6, tag } (commandWord 6 tag spare)
    have hgiven := Part.handing_keepsBut { code := 6, tag } (commandWord 6 tag spare) s.part
    have hrefusal := Part.refusal_of_serving (code := 6) hm hfree (by decide) (by decide)
    by_cases h : 17 ≤ (s.part.mirror 0x011).toNat
    · obtain ⟨t, ht, htaken, hended, hanswered, hsame, -⟩ := State.commandDone (tag := tag) (spare := spare)
        (Mode.live_of_serving hm) hw hrefusal (Part.testEffect_bad h) (Part.keepsBut_refl [] _) (by rw [hgiven.mode]; exact id)
      refine ⟨t, congrArg Host.Outcome.next ht, State.commandTaken_mono htaken (by simp), ?_⟩
      rw [if_pos h]
      exact ⟨hsame.points.trans hgiven.points, hended, hanswered⟩
    · have hwritten := State.commandAccepted (tag := tag) (spare := spare) (Mode.live_of_serving hm) hw hrefusal (Part.testEffect_of h)
      obtain ⟨hprogress, hshows, -, -⟩ := Part.shows_settle (old := s.part)
        (q := (s.part.handing { code := 6, tag } (commandWord 6 tag spare)).tell (.test
          (if (s.part.mirror 0x011).toNat = 16 then (s.part.handing { code := 6, tag } (commandWord 6 tag spare)).virtualRoute 7
            else Fin.ofNat 16 (s.part.mirror 0x011).toNat) true))
        (Notice.keepsButTrouble_refl (s.part.handing { code := 6, tag } (commandWord 6 tag spare)).notice) rfl
      refine ⟨_, congrArg Host.Outcome.next hwritten, State.commandTaken_of hw (by decide)
        (Part.keepsBut_trans (Part.keepsBut_mono (Part.handing_keeps _ _ _) (by simp)) (Part.keepsBut_mono (Part.tell_keeps _ _) (by simp))), ?_⟩
      rw [if_neg h]
      refine ⟨hprogress, hshows, ?_⟩
      rw [Part.settle_points, hreads.virtualRoute]
      exact congrArg (fun x : Points => ({ x with work := x.work ++ [_] } : Points)) hgiven.points
  · have hgiven := Part.handing_keepsBut { code := 8, tag } (commandWord 8 tag spare) s.part
    have hidle' := Part.handing_idle hidle { code := 8, tag } (commandWord 8 tag spare)
    obtain ⟨t, ht, htaken, hended, hanswered, -, -⟩ := State.commandDone (tag := tag) (spare := spare) (Mode.live_of_serving hm) hw
      (Part.refusal_of_serving (code := 8) hm hfree (by decide) (by decide))
      ((Part.clearTroubleEffect_of_serving (by rw [hgiven.mode]; exact hm) hidle').trans
        (Part.runOps_clearTrouble_idle hidle' (by rw [hgiven.points]; exact h))) (Part.keepsBut_refl [] _) (by rw [hgiven.mode]; exact id)
    exact ⟨t, congrArg Host.Outcome.next ht, htaken, hended, hanswered⟩
  · have hreads := Part.readsAs_handing hw.2.2 { code := 8, tag } (commandWord 8 tag spare)
    have hgiven := Part.handing_keepsBut { code := 8, tag } (commandWord 8 tag spare) s.part
    have hnotice := Part.handing_notice { code := 8, tag } (commandWord 8 tag spare) s.part
    have hidle' := Part.handing_idle hidle { code := 8, tag } (commandWord 8 tag spare)
    have hhanded := Part.handing_keeps { code := 8, tag } (commandWord 8 tag spare) s.part
    have hwritten := State.commandAccepted (tag := tag) (spare := spare) (Mode.live_of_serving hm) hw
      (Part.refusal_of_serving (code := 8) hm hfree (by decide) (by decide))
      (Part.clearTroubleEffect_of_serving (by rw [hgiven.mode]; exact hm) hidle')
    have hroomFor : s.part.bus.wbWait = [] → s.part.bus.wbq.length + 4 ≤ Config.writeBackPlaces →
        (s.part.handing { code := 8, tag } (commandWord 8 tag spare)).bus.roomFor [0x012, 0x013, 0x019, statusOffset 262] :=
      fun hwait hlen => Part.enter_roomFor (p := { s.part.setMirror 0x010 (commandWord 8 tag spare) with
        notice := { s.part.notice with inProgress := some { code := 8, tag }, resultTag := tag, resultStatus := .inProgress } })
        (Mode.live_of_serving hm)
        (Bus.roomFor_of_length (b := s.part.bus) (offs := [0x012, 0x013, 0x019, statusOffset 262]) hwait hlen) (by simp) _
    generalize hp : s.part.handing { code := 8, tag } (commandWord 8 tag spare) = p at hreads hgiven hnotice hidle' hhanded hwritten hroomFor
    obtain ⟨hkeeps, hlatch', hfifo, hothers, hintended, hdone⟩ := Part.runOps_clearTrouble_spec hidle' (by rw [hgiven.points]; exact hlatch)
      (by rw [hgiven.points]; exact hover)
    refine ⟨_, congrArg Host.Outcome.next hwritten, State.commandTaken_of hw (by decide)
      (Part.keepsBut_trans (Part.keepsBut_mono hhanded (by simp)) (Part.keepsBut_mono hkeeps (by simp))), ?_, ?_, fun j hj => ?_, ?_,
      fun hwait hlen => ?_⟩
    · rw [Part.settle_points]
      exact hlatch'
    · rw [Part.settle_points, hfifo, hgiven.points]
    · rw [Part.shadow_settle, hothers j hj, Part.shadow_of_points hgiven.points]
    · rw [Part.shadow_settle, hintended, hreads.virtualIntended]
    · have hroom := Part.takeCondition_roomFor (i := 262) (by rw [hgiven.mode]; exact Mode.live_of_serving hm) (hroomFor hwait hlen)
        (by simp) (by simp) (by simp) false
      obtain ⟨hq, htodo⟩ := hdone (Part.engineWaits_of_roomFor hroom)
      obtain ⟨hanswered, hended, hreport⟩ := Part.clearTrouble_reports (c := { code := 8, tag }) hs hreads hgiven.points hidle.2
        (by rw [hnotice])
      rw [← hq] at hanswered hended hreport
      exact ⟨hended, hanswered, by rw [Part.settle_points]; exact htodo, hreport⟩
  · have hgiven := Part.handing_keepsBut { code := 8, tag } (commandWord 8 tag spare) s.part
    obtain ⟨t, ht, htaken, hended, hanswered, -, -⟩ := State.commandDone (tag := tag) (spare := spare) (by rw [hm]; rfl) hw
      (Part.refusal_of_unconfigured (code := 8) hm hfree (by simp))
      (show _ = (s.part.handing { code := 8, tag } (commandWord 8 tag spare)).complete .done from if_pos (hgiven.mode.trans hm))
      (Part.keepsBut_refl [] _) (by rw [hgiven.mode]; exact id)
    exact ⟨t, congrArg Host.Outcome.next ht, htaken, hended, hanswered⟩

end Sys2Proof.Machine
end

section
/-! PROOFS. ADOPT BASELINE (R22, R59, R175, R176). -/

namespace Sys2Proof.Machine

/-! ### The baseline of one point -/

/-- What intended counts as once it has been delivered (R59). -/
def Intended.asDelivered (n : Intended) : Delivered := { sense := n.sense, fold := 0, code := if n.sense = 0 then 0 else n.code }

/-- A point brought up to date before its baseline (R59). -/
def Part.refreshed (i : PointNo) (p : Part) : Part := if isReal i && !p.pointEnabled i then p else p.refresh Option.none i

theorem Part.refreshed_touches (i : PointNo) (p : Part) : p.touches i (p.refreshed i) := by
  unfold Part.refreshed
  split
  · exact Part.touches_refl i p
  · exact Part.refresh_touches _ i p

/-- The entry of a point brought up to date. -/
theorem Part.shadow_refreshed (i : PointNo) (p : Part) : (p.refreshed i).shadow i =
    { p.shadow i with
      processed := if i.val < 256 ∧ p.pointEnabled i = true then p.stateCode i else (p.shadow i).processed
      intended :=
        if i.val < 256 then
          if p.pointEnabled i = true then (p.translated i (p.stateCode i)).getD (p.shadow i).intended else (p.shadow i).intended
        else if i.val < 263 then p.virtualIntended i (p.condition i) else (p.shadow i).intended } := by
  have hreal : isReal i = decide (i.val < 256) := rfl
  unfold Part.refreshed
  by_cases h : i.val < 256
  · by_cases hon : p.pointEnabled i = true
    · rw [if_neg (by simp [hon]), Part.shadow_refresh]
      simp only [h, hon, if_true, and_self, Option.getD_none]
    · rw [if_pos (by simp [hreal, h, hon])]
      simp only [h, hon, if_true, and_false, if_false, Bool.false_eq_true]
  · rw [if_neg (by simp [hreal, h]), Part.shadow_refresh]
    simp only [h, if_false, false_and]

/-- A point after the withdrawal of its records and before its owed mark (R59). -/
def Part.baselineSet (i : PointNo) (p : Part) : Part :=
  ((p.refreshed i).withdrawPoint i).onShadow i fun s =>
    { s with delivered := (((p.refreshed i).withdrawPoint i).shadow i).intended.asDelivered }

theorem Part.baseline_eq (i : PointNo) (p : Part) : p.baseline i =
    (((p.baselineSet i).setOwed i ((p.baselineSet i).callsFor i).isSome).restatus i).enterAll .pointEngine
      [statusOffset i, codeOffset i] := rfl

/-- What follows the withdrawal touches the point. -/
theorem Part.baseline_touches (i : PointNo) (p : Part) : ((p.refreshed i).withdrawPoint i).touches i (p.baseline i) := by
  rw [Part.baseline_eq]
  exact (Part.onShadow_touches i _ _).trans ((Part.setOwed_touches i _ _).trans
    ((Part.restatus_touches i _).trans (Part.enterAll_touches i _ _ _)))

theorem Part.shadow_baselineSet (i : PointNo) (p : Part) : (p.baselineSet i).shadow i =
    { (p.refreshed i).shadow i with delivered := ((p.refreshed i).shadow i).intended.asDelivered } := by
  rw [Part.baselineSet, Part.shadow_onShadow, Part.shadow_withdrawPoint]

theorem Part.baseline_keeps (i : PointNo) (p : Part) : p.keepsBut [.bus, .notice, .points, .queue] (p.baseline i) := by
  have hwithdrawn : (p.refreshed i).keepsBut [.bus, .notice, .points, .queue] ((p.refreshed i).withdrawPoint i) :=
    Part.keepsBut_arbiter (Part.keepsBut_mono (Part.withdrawPoint_makes i _).keeps (by simp)) (Part.withdrawPoint_arbiter i _)
  exact Part.keepsBut_trans (Part.keepsBut_mono (p.refreshed_touches i).1 (by simp))
    (Part.keepsBut_trans hwithdrawn (Part.keepsBut_mono (p.baseline_touches i).1 (by simp)))

theorem Part.baseline_others (i : PointNo) (p : Part) : p.keepsOtherShadows i (p.baseline i) := fun j hj =>
  ((p.baseline_touches i).2.2.1 j hj).trans ((Part.shadow_withdrawPoint i j _).trans ((p.refreshed_touches i).2.2.1 j hj))

theorem Part.baseline_points (i : PointNo) (p : Part) : (p.baseline i).points = { p.points with
    shadows := (p.baseline i).points.shadows
    work := p.points.work ++ (p.queue.chain i).map fun _ => .notice .withdrawal i } := by
  have hqueue := (p.refreshed_touches i).1.queue
  conv_lhs => rw [(p.baseline_touches i).2.2.2]
  rw [(Part.withdrawPoint_makes i _).points, (p.refreshed_touches i).2.2.2, hqueue]

theorem Part.baseline_queue {p : Part} (h : p.queue.told) (i : PointNo) : (p.baseline i).queue =
    { p.queue with records := p.queue.records.filter fun r => !(decide (r.point = i) && r.chained) } := by
  have hqueue := (p.refreshed_touches i).1.queue
  rw [(p.baseline_touches i).1.queue, Part.withdrawPoint_records (by rw [hqueue]; exact h), hqueue]

theorem Part.baseline_notice (i : PointNo) (p : Part) : (p.baseline i).notice.inProgress = p.notice.inProgress ∧
    (p.baseline i).notice.resultTag = p.notice.resultTag ∧ (p.baseline i).notice.resultStatus = p.notice.resultStatus := by
  rw [(p.baseline_touches i).1.notice, (Part.withdrawPoint_makes i _).notice, (p.refreshed_touches i).1.notice]
  exact ⟨rfl, rfl, rfl⟩

theorem Part.baseline_current (i : PointNo) (p : Part) :
    ((p.baseline i).shadow i).status = (p.baseline i).derivedStatus i := by
  rw [Part.baseline_eq]
  generalize (p.baselineSet i).setOwed i ((p.baselineSet i).callsFor i).isSome = q
  have hpoints := Part.enterAll_points .pointEngine [statusOffset i, codeOffset i] (q.restatus i)
  rw [Part.shadow_of_points hpoints, Part.restatus_current]
  exact (Part.derivedStatus_congr (by rw [Part.enterAll_queue]) (Part.enterAll_mirrors _ _ _)
    (by rw [Part.shadow_of_points hpoints])).symm

theorem Part.shadow_baseline (i : PointNo) (p : Part) : (p.baseline i).shadow i =
    { (p.refreshed i).shadow i with
      delivered := ((p.refreshed i).shadow i).intended.asDelivered
      owed := ((p.baselineSet i).callsFor i).isSome && decide (i.val < 263)
      status := (p.baseline i).derivedStatus i } := by
  rw [← Part.baseline_current, Part.baseline_eq, Part.shadow_of_points (Part.enterAll_points _ _ _), Part.shadow_restatus,
    Part.shadow_setOwed, Part.shadow_baselineSet]

theorem Part.baseline_entries {p : Part} (hm : p.mode.live = true) (i : PointNo) :
    (p.baseline i).bus.hasEntry (statusOffset i) ∧ (p.baseline i).bus.hasEntry (codeOffset i) := by
  rw [Part.baseline_eq]
  have hmode : (((p.baselineSet i).setOwed i ((p.baselineSet i).callsFor i).isSome).restatus i).mode = p.mode := by
    rw [Part.restatus_mode, Part.setOwed_mode, Part.baselineSet, Part.onShadow_mode, (Part.withdrawPoint_makes i _).keeps.mode,
      (p.refreshed_touches i).1.mode]
  have hentered := Part.enterAll_hasEntry (p := ((p.baselineSet i).setOwed i ((p.baselineSet i).callsFor i).isSome).restatus i)
    (by rw [hmode]; exact hm) .pointEngine (offs := [statusOffset i, codeOffset i])
  exact ⟨hentered _ (by simp), hentered _ (by simp)⟩

theorem Part.withdraw_holdsMore (r : Record) (p : Part) : p.bus.holdsMore (p.withdraw r).bus := by
  have hrecords : p.bus.holdsMore (p.removeRecord r.id).bus := by
    unfold Part.removeRecord Part.setRecords
    simp only
    split
    · exact Bus.holdsMore_refl _
    · exact Part.enter_holdsMore .reportQueue 0x019 (p.withRecords (p.queue.records.filter (·.id ≠ r.id)))
  exact hrecords.trans (Part.makeLog_holdsMore _ _)

theorem Part.withdrawPoint_holdsMore (i : PointNo) (p : Part) : p.bus.holdsMore (p.withdrawPoint i).bus := by
  rw [Part.withdrawPoint]
  generalize p.queue.chain i = l
  induction l generalizing p with
  | nil => exact Bus.holdsMore_refl _
  | cons r l ih => exact (Part.withdraw_holdsMore r p).trans (ih _)

theorem Part.enterAll_holdsMore (o : Owner) (offs : List Nat) (p : Part) : p.bus.holdsMore (p.enterAll o offs).bus :=
  ⟨fun _ ha => Part.enterAll_keepsEntry ha o offs, (Part.enterAll_entries o offs p).2.2.2.2.2.subset⟩

theorem Part.restatus_holdsMore (i : PointNo) (p : Part) : p.bus.holdsMore (p.restatus i).bus := by
  unfold Part.restatus
  split
  · exact Bus.holdsMore_refl _
  · exact Part.enter_holdsMore .pointEngine (statusOffset i) (p.onShadow i fun s => { s with status := p.derivedStatus i })

theorem Part.baseline_holdsMore (i : PointNo) (p : Part) : p.bus.holdsMore (p.baseline i).bus := by
  have hrefreshed : (p.refreshed i).bus = p.bus := by
    unfold Part.refreshed Part.refresh
    split
    · rfl
    split
    · rfl
    split <;> rfl
  have hwithdrawn : p.bus.holdsMore (p.baselineSet i).bus := hrefreshed ▸ Part.withdrawPoint_holdsMore i (p.refreshed i)
  rw [Part.baseline_eq]
  exact hwithdrawn.trans ((Part.restatus_holdsMore i ((p.baselineSet i).setOwed i ((p.baselineSet i).callsFor i).isSome)).trans
    (Part.enterAll_holdsMore _ _ _))

/-! ### Which points are owed -/

theorem List.reverse_find?_eq_getLast? {α : Type} (P : α → Bool) (l : List α) : l.reverse.find? P = (l.filter P).getLast? := by
  rw [← List.head?_filter, List.filter_reverse, List.head?_reverse]

theorem Sense.code_eq_one {s : Sense} : s.code = 1 ↔ s = .active := by
  cases s <;> decide

/-- Notices deliver nothing. -/
theorem findSome?_delivers_of_notices {l : List Work} (h : ∀ w ∈ l, ∃ k j, w = .notice k j) (i : PointNo) :
    l.reverse.findSome? (Work.delivers i) = none :=
  List.findSome?_eq_none_iff.mpr fun w hw => by
    obtain ⟨k, j, rfl⟩ := h w (List.mem_reverse.mp hw)
    rfl

/-- What is committed where only notices wait (R40). -/
theorem Part.committed_of_notices {p : Part} (h : ∀ w ∈ p.points.work, ∃ k j, w = .notice k j) (i : PointNo) : p.committed i =
    ((p.queue.records.filter (·.point = i)).getLast?.map fun r => (r.sense.code, r.code)).getD
      ((p.shadow i).delivered.sense, (p.shadow i).delivered.code) := by
  have hdelivered : p.points.delivered i = ((p.shadow i).delivered.sense, (p.shadow i).delivered.code) := by
    rw [Points.delivered, findSome?_delivers_of_notices h]
    rfl
  unfold Part.committed
  rw [List.reverse_find?_eq_getLast?, hdelivered]
  cases (p.queue.records.filter (·.point = i)).getLast? with
  | none => rfl
  | some r => rfl

/-- When intended calls for a report (R40). -/
theorem Part.callsFor_isSome (p : Part) (i : PointNo) : (p.callsFor i).isSome = true ↔
    ((p.shadow i).intended.sense = 1 ∧ ((p.committed i).1 ≠ 1 ∨ (p.committed i).2 ≠ (p.shadow i).intended.code)) ∨
      ((p.shadow i).intended.sense = 2 ∧ (p.committed i).1 = 1) := by
  unfold Part.callsFor
  simp only
  split_ifs with h₁ h₂ h₃ h₄ <;> simp_all

/-- A point that counts intended as delivered is called for only by a record in a call (R59). -/
theorem Part.callsFor_of_delivered {p : Part} {i : PointNo} (hnotices : ∀ w ∈ p.points.work, ∃ k j, w = .notice k j)
    (hdelivered : (p.shadow i).delivered = (p.shadow i).intended.asDelivered) : (p.callsFor i).isSome = true ↔
      ∃ r, (p.queue.records.filter (·.point = i)).getLast? = some r ∧
        (((p.shadow i).intended.sense = 1 ∧ (r.sense ≠ .active ∨ r.code ≠ (p.shadow i).intended.code)) ∨
          ((p.shadow i).intended.sense = 2 ∧ r.sense = .active)) := by
  rw [Part.callsFor_isSome, Part.committed_of_notices hnotices]
  cases (p.queue.records.filter (·.point = i)).getLast? with
  | some r => simp only [Option.map_some, Option.getD_some, Option.some.injEq, exists_eq_left', Ne, Sense.code_eq_one]
  | none =>
    rw [hdelivered]
    refine ⟨fun h => ?_, fun ⟨r, hr, _⟩ => absurd hr nofun⟩
    rcases h with ⟨hsense, h⟩ | ⟨hsense, h⟩
    · rcases h with h | h
      · exact absurd hsense h
      · exact absurd (by rw [Intended.asDelivered, hsense]; rfl) h
    · exact absurd (hsense.symm.trans h) (by decide)

theorem Part.baseline_owed {p : Part} (hnotices : ∀ w ∈ p.points.work, ∃ k j, w = .notice k j) {i : PointNo} (hi : i.val < 263) :
    ((p.baseline i).shadow i).owed = true ↔
      ∃ r, ((p.baseline i).queue.records.filter (·.point = i)).getLast? = some r ∧
        ((((p.baseline i).shadow i).intended.sense = 1 ∧
            (r.sense ≠ .active ∨ r.code ≠ ((p.baseline i).shadow i).intended.code)) ∨
          (((p.baseline i).shadow i).intended.sense = 2 ∧ r.sense = .active)) := by
  have hqueue : (p.baseline i).queue = (p.baselineSet i).queue := (p.baseline_touches i).1.queue
  have hset := p.shadow_baselineSet i
  have hintended : ((p.baseline i).shadow i).intended = ((p.baselineSet i).shadow i).intended := by
    rw [Part.shadow_baseline, hset]
  have howed : ((p.baseline i).shadow i).owed = ((p.baselineSet i).callsFor i).isSome := by
    rw [Part.shadow_baseline, decide_eq_true hi, Bool.and_true]
  rw [howed, hqueue, hintended]
  refine Part.callsFor_of_delivered (fun w hw => ?_) (by rw [hset])
  have hwork : (p.baselineSet i).points.work = (p.baseline i).points.work := (congrArg Points.work (p.baseline_touches i).2.2.2).symm
  rw [hwork, Part.baseline_points] at hw
  rcases List.mem_append.mp hw with hw | hw
  · exact hnotices w hw
  · obtain ⟨-, -, rfl⟩ := List.mem_map.mp hw
    exact ⟨_, _, rfl⟩

/-! ### The points it has come to -/

/-- The report status of a point depends on its own records. -/
theorem Part.derivedStatus_of_filter {p q : Part} {i : PointNo}
    (hrecords : q.queue.records.filter (·.point = i) = p.queue.records.filter (·.point = i)) (hmirrors : q.mirrors = p.mirrors)
    (howed : (q.shadow i).owed = (p.shadow i).owed) : q.derivedStatus i = p.derivedStatus i := by
  simp only [Part.derivedStatus, hrecords, Part.pointEnabled_of_mirrors hmirrors, howed]

theorem Part.condition_of_keeps {p q : Part} (h : p.keepsBut [.bus, .mirrors, .notice, .points, .queue] q)
    (hlatch : q.points.latch = p.points.latch) (i : PointNo) : q.condition i = p.condition i := by
  have hheartbeat : q.heartbeat = p.heartbeat := h .heartbeat (by simp)
  have hline : ∀ n, q.line n = p.line n := fun n => by rw [Part.line, h.lines, Part.line]
  simp only [Part.condition, hheartbeat, h.time, hline, hlatch]

/-- A point brought up to date depends on its own entry. -/
theorem Part.shadow_refreshed_congr {p q : Part} {i : PointNo} (h : p.keepsBut [.bus, .notice, .points, .queue] q)
    (hlatch : q.points.latch = p.points.latch) (hshadow : q.shadow i = p.shadow i) :
    (q.refreshed i).shadow i = (p.refreshed i).shadow i := by
  have hconfig := Part.sameConfig_of_mirrors h.mirrors
  simp only [Part.shadow_refreshed, hconfig.pointEnabled, hconfig.translated, hconfig.virtualIntended, hconfig.stateCode,
    Part.condition_of_keeps (Part.keepsBut_mono h (by simp)) hlatch, hshadow]

/-- The baseline of a point has been made since `p` (R59). -/
structure Part.baselined (i : PointNo) (p q : Part) : Prop where
  shadow : q.shadow i = { (p.refreshed i).shadow i with
    delivered := ((p.refreshed i).shadow i).intended.asDelivered
    owed := (q.shadow i).owed
    status := q.derivedStatus i }
  owed : (q.shadow i).owed = true ↔ ∃ r, (q.queue.records.filter (·.point = i)).getLast? = some r ∧
    (((q.shadow i).intended.sense = 1 ∧ (r.sense ≠ .active ∨ r.code ≠ (q.shadow i).intended.code)) ∨
      ((q.shadow i).intended.sense = 2 ∧ r.sense = .active))
  records : q.queue.records.filter (·.point = i) = p.queue.records.filter fun r => decide (r.point = i) && !r.chained
  status : q.bus.hasEntry (statusOffset i)
  code : q.bus.hasEntry (codeOffset i)

/-- What another step leaves of a baseline. -/
theorem Part.baselined.later {i : PointNo} {p q r : Part} (h : p.baselined i q) (hshadow : r.shadow i = q.shadow i)
    (hrecords : r.queue.records.filter (·.point = i) = q.queue.records.filter (·.point = i)) (hmirrors : r.mirrors = q.mirrors)
    (hbus : q.bus.holdsMore r.bus) : p.baselined i r := by
  have hstatus : r.derivedStatus i = q.derivedStatus i := Part.derivedStatus_of_filter hrecords hmirrors (by rw [hshadow])
  refine ⟨?_, ?_, hrecords.trans h.records, hbus.1 _ h.status, hbus.1 _ h.code⟩
  · rw [hshadow, hstatus]
    exact h.shadow
  · rw [hshadow, hrecords]
    exact h.owed

/-- The baselines of these points have been made since `p`, and of no others. -/
structure Part.adopting (done : List PointNo) (p q : Part) : Prop where
  keeps : p.keepsBut [.bus, .notice, .points, .queue] q
  points : q.points = { p.points with shadows := q.points.shadows, work := q.points.work }
  notices : ∀ w ∈ q.points.work, ∃ k j, w = .notice k j
  notice : q.notice.inProgress = p.notice.inProgress ∧ q.notice.resultTag = p.notice.resultTag ∧
    q.notice.resultStatus = p.notice.resultStatus
  told : q.queue.told
  left : ∀ j ∉ done, q.shadow j = p.shadow j ∧
    q.queue.records.filter (·.point = j) = p.queue.records.filter (·.point = j)
  finished : ∀ i ∈ done, p.baselined i q

theorem Part.adopting_refl {p : Part} (hnotices : ∀ w ∈ p.points.work, ∃ k j, w = .notice k j) (htold : p.queue.told) :
    p.adopting [] p :=
  ⟨Part.keepsBut_refl _ p, rfl, hnotices, ⟨rfl, rfl, rfl⟩, htold, fun _ _ => ⟨rfl, rfl⟩, fun _ h => absurd h (List.not_mem_nil)⟩

theorem filter_point_of_withdrawn (i j : PointNo) (l : List Record) :
    (l.filter fun r => !(decide (r.point = i) && r.chained)).filter (·.point = j) =
      if j = i then (l.filter (·.point = j)).filter fun r => !r.chained else l.filter (·.point = j) := by
  rw [List.filter_filter]
  by_cases hji : j = i
  · rw [if_pos hji, List.filter_filter]
    exact List.filter_congr fun r _ => by by_cases hr : r.point = j <;> simp [hr, ← hji]
  · rw [if_neg hji]
    exact List.filter_congr fun r _ => by by_cases hr : r.point = j <;> simp [hr, hji]

/-- The baseline of one more point. -/
theorem Part.adopting.baseline {done : List PointNo} {p q : Part} {i : PointNo} (h : p.adopting done q) (hm : p.mode.live = true)
    (hnew : i ∉ done) (hi : i.val < 263) : p.adopting (done ++ [i]) (q.baseline i) := by
  have hpoints := Part.baseline_points i q
  have hqueue := Part.baseline_queue h.told i
  have hfilter : ∀ j, (q.baseline i).queue.records.filter (·.point = j) =
      if j = i then (q.queue.records.filter (·.point = j)).filter fun r => !r.chained else q.queue.records.filter (·.point = j) :=
    fun j => by rw [hqueue]; exact filter_point_of_withdrawn i j q.queue.records
  have hothers := Part.baseline_others i q
  obtain ⟨hleft, hleftRecords⟩ := h.left i hnew
  refine ⟨Part.keepsBut_trans h.keeps (Part.baseline_keeps i q), ?_, fun w hw => ?_, ?_, ?_, fun j hj => ?_, fun j hj => ?_⟩
  · conv_lhs => rw [hpoints, h.points]
    rw [hpoints]
  · rw [hpoints] at hw
    rcases List.mem_append.mp hw with hw | hw
    · exact h.notices w hw
    · obtain ⟨-, -, rfl⟩ := List.mem_map.mp hw
      exact ⟨_, _, rfl⟩
  · obtain ⟨hprogress, htag, hstatus⟩ := Part.baseline_notice i q
    exact ⟨hprogress.trans h.notice.1, htag.trans h.notice.2.1, hstatus.trans h.notice.2.2⟩
  · rw [hqueue]
    exact h.told.filter _
  · have hji : j ≠ i := fun heq => hj (by simp [heq])
    obtain ⟨hs, hr⟩ := h.left j fun hmem => hj (List.mem_append_left _ hmem)
    exact ⟨(hothers j hji).trans hs, by rw [hfilter, if_neg hji, hr]⟩
  · rcases List.mem_append.mp hj with hj | hj
    · have hji : j ≠ i := fun heq => hnew (heq ▸ hj)
      exact (h.finished j hj).later (hothers j hji) (by rw [hfilter, if_neg hji]) (Part.baseline_keeps i q).mirrors
        (Part.baseline_holdsMore i q)
    · rw [List.mem_singleton.mp hj]
      obtain ⟨hstatus, hcode⟩ := Part.baseline_entries (p := q) (by rw [h.keeps.mode]; exact hm) i
      have hrefreshed := Part.shadow_refreshed_congr h.keeps (by rw [h.points]) hleft
      refine ⟨?_, Part.baseline_owed h.notices hi, ?_, hstatus, hcode⟩
      · rw [← hrefreshed]
        conv_lhs => rw [Part.shadow_baseline]
        rw [Part.shadow_baseline]
      · rw [hfilter, if_pos rfl, hleftRecords, List.filter_filter]
        exact List.filter_congr fun r _ => Bool.and_comm _ _

/-! ### The piece of work -/

/-- ADOPT BASELINE has come to some of its points: it waits for the next one or for its end, or is done (R59). -/
theorem Part.runOps_baselines {p : Part} (hm : p.mode.live = true) (l : List PointNo) {done : List PointNo} {q : Part}
    (h : p.adopting done q) (hdistinct : (done ++ l).Nodup) (hl : ∀ i ∈ l, i.val < 263) :
    ∃ front left x, l = front ++ left ∧ p.adopting (done ++ front) x ∧
      (q.engineWaits = false → ∀ i, l.head? = some i → i ∈ front) ∧
      (Part.runOps (l.map .baseline ++ [.commandDone]) q = x.withTodo (left.map .baseline ++ [.commandDone]) ∨
        left = [] ∧ Part.runOps (l.map .baseline ++ [.commandDone]) q = (x.complete .done).withTodo []) := by
  induction l generalizing done q with
  | nil =>
    refine ⟨[], [], q, rfl, by rw [List.append_nil]; exact h, fun _ i hi => absurd hi nofun, ?_⟩
    have hops : Part.runOps [.commandDone] q = if q.engineWaits then q.withTodo [.commandDone] else (q.complete .done).withTodo [] :=
      Part.runOps_cons (op := .commandDone) nofun [] q
    by_cases hwaits : q.engineWaits = true
    · exact .inl (hops.trans (if_pos hwaits))
    · exact .inr ⟨rfl, hops.trans (if_neg hwaits)⟩
  | cons i l ih =>
    have hops : Part.runOps ((i :: l).map .baseline ++ [.commandDone]) q =
        if q.engineWaits then q.withTodo ((i :: l).map .baseline ++ [.commandDone])
        else Part.runOps (l.map .baseline ++ [.commandDone]) (q.baseline i) := Part.runOps_cons (op := .baseline i) nofun _ q
    by_cases hwaits : q.engineWaits = true
    · refine ⟨[], i :: l, q, rfl, by rw [List.append_nil]; exact h, fun hfree => ?_, .inl (hops.trans (if_pos hwaits))⟩
      exact absurd (hwaits.symm.trans hfree) (by decide)
    · have hnew : i ∉ done := fun hmem => (List.nodup_append.mp hdistinct).2.2 i hmem i (List.mem_cons_self ..) rfl
      obtain ⟨front, left, x, hsplit, hx, -, hrun⟩ := ih (h.baseline hm hnew (hl i (List.mem_cons_self ..)))
        (by simpa using hdistinct) fun j hj => hl j (List.mem_cons_of_mem _ hj)
      refine ⟨i :: front, left, x, by rw [hsplit]; rfl, by simpa using hx, fun _ j hj => ?_, ?_⟩
      · simp at hj
        simp [hj]
      · rw [hops, if_neg hwaits]
        exact hrun

/-! ### The command -/

/-- The points of ADOPT BASELINE, in ascending order (log 42). -/
def baselinePoints : List PointNo := (List.finRange 263).map Fin.castSucc

theorem mem_baselinePoints {i : PointNo} : i ∈ baselinePoints ↔ i.val < 263 := by
  refine ⟨fun h => ?_, fun h => List.mem_map.mpr ⟨⟨i.val, h⟩, List.mem_finRange _, rfl⟩⟩
  obtain ⟨j, -, rfl⟩ := List.mem_map.mp h
  exact j.isLt

theorem baselinePoints_nodup : baselinePoints.Nodup := (List.nodup_finRange 263).map (Fin.castSucc_injective 263)

theorem baselinePoints_head? : baselinePoints.head? = some 0 := by
  rw [baselinePoints, List.head?_map, List.finRange_succ]
  rfl

theorem baselineOps_eq : baselineOps = .drainFifo :: (baselinePoints.map .baseline ++ [.commandDone]) := by
  rw [baselineOps, baselinePoints, List.map_map]
  rfl

theorem Part.drainFifo_of_empty {p : Part} (h : p.points.fifo = []) (n : Nat) : Part.drainFifo n p = p := by
  cases n with
  | zero => rfl
  | succ n => exact if_pos (by simp [h])

/-- Where the FIFO is empty, ADOPT BASELINE begins with the points. -/
theorem Part.runOps_baselineOps {p : Part} (hwaits : p.engineWaits = false) (hfifo : p.points.fifo = []) :
    Part.runOps baselineOps p = Part.runOps (baselinePoints.map .baseline ++ [.commandDone]) p := by
  have hdrain : p.doOp .drainFifo = p := Part.drainFifo_of_empty hfifo _
  rw [baselineOps_eq, Part.runOps, if_neg (by rw [hwaits]; exact Bool.false_ne_true)]
  simp only [hdrain]
  exact if_neg fun h => h.2 hfifo

theorem Part.adoptEffect_of {p : Part} (hidle : p.engineIdle) (hfifo : p.points.fifo = []) :
    p.adoptEffect = Part.runOps (baselinePoints.map .baseline ++ [.commandDone]) p := by
  obtain ⟨hfree, hwork⟩ := hidle
  have hfree' : (p.tell .adopt).engineFree = true := hfree
  have hwork' : (p.tell .adopt).points.work = [.adopt] := by rw [Part.tell_work, hwork, List.nil_append]
  rw [Part.adoptEffect, Part.pump, if_pos hfree', hwork', ← Part.runOps_baselineOps (Part.engineWaits_of_free hfree).1 hfifo]
  refine congrArg (Part.runOps baselineOps) ?_
  show { p with points := { p.points with work := [] } } = p
  rw [← hwork]

/-- What ADOPT BASELINE has done in the step of its command word. -/
structure Part.adopted (left : List PointNo) (p q : Part) : Prop where
  keeps : p.keepsBut [.bus, .notice, .points, .queue] q
  sublist : ∀ i ∈ left, i.val < 263
  first : (0 : PointNo) ∉ left
  finished : ∀ i : PointNo, i.val < 263 → i ∉ left → p.baselined i q
  same : ∀ i ∈ left, q.shadow i = p.shadow i
  todo : q.points.todo = [] ∧ left = [] ∨ q.points.todo = left.map .baseline ++ [.commandDone] ∧
    q.notice.inProgress = p.notice.inProgress ∧ q.notice.resultTag = p.notice.resultTag ∧
    q.notice.resultStatus = p.notice.resultStatus

theorem Part.adopted_of_runOps {p : Part} (hm : p.mode.live = true) (hidle : p.engineIdle) (htold : p.queue.told) :
    ∃ left, p.adopted left (Part.runOps (baselinePoints.map .baseline ++ [.commandDone]) p) := by
  obtain ⟨hfree, hwork⟩ := hidle
  obtain ⟨front, left, x, hsplit, hx, hfirst, hrun⟩ := Part.runOps_baselines hm baselinePoints
    (Part.adopting_refl (fun w hw => absurd hw (by simp [hwork])) htold) baselinePoints_nodup fun i hi => mem_baselinePoints.mp hi
  rw [List.nil_append] at hx
  have hnodup := baselinePoints_nodup
  rw [hsplit, List.nodup_append] at hnodup
  have hapart : ∀ i, i ∈ front → i ∉ left := fun i hi hmem => hnodup.2.2 i hi i hmem rfl
  have hfront : ∀ i : PointNo, i.val < 263 → i ∉ left → i ∈ front := fun i hi hnot => by
    have hmem := mem_baselinePoints.mpr hi
    rw [hsplit] at hmem
    exact (List.mem_append.mp hmem).resolve_right hnot
  have hsublist : ∀ i ∈ left, i.val < 263 := fun i hi => mem_baselinePoints.mp (by rw [hsplit]; exact List.mem_append_right _ hi)
  have hzero := hapart 0 (hfirst (Part.engineWaits_of_free hfree).1 0 baselinePoints_head?)
  have hleft : ∀ i ∈ left, x.shadow i = p.shadow i := fun i hi => (hx.left i fun hmem => hapart i hmem hi).1
  refine ⟨left, ?_⟩
  rcases hrun with hrun | ⟨hnil, hrun⟩
  · rw [hrun]
    exact ⟨Part.keepsBut_trans hx.keeps (Part.keepsBut_mono (Part.withTodo_keeps _ x) (by simp)), hsublist, hzero,
      fun i hi hnot => (hx.finished i (hfront i hi hnot)).later rfl rfl rfl (Bus.holdsMore_refl _), hleft, .inr ⟨rfl, hx.notice⟩⟩
  · have hpoints : (x.complete .done).points = x.points := Part.complete_points _ x
    have hshadow : ∀ j, ((x.complete .done).withTodo []).shadow j = x.shadow j := fun j => Part.shadow_of_points hpoints j
    rw [hrun]
    refine ⟨Part.keepsBut_trans hx.keeps (Part.keepsBut_trans (Part.keepsBut_mono (Part.complete_keeps .done x) (by simp))
      (Part.keepsBut_mono (Part.withTodo_keeps _ _) (by simp))), hsublist, hzero, fun i hi hnot => ?_,
      fun i hi => (hshadow i).trans (hleft i hi), .inl ⟨rfl, hnil⟩⟩
    refine (hx.finished i (hfront i hi hnot)).later (hshadow i) ?_ (Part.complete_mirrors .done x) (Part.complete_holdsMore .done x)
    exact congrArg (fun q : Queue => q.records.filter (·.point = i)) (Part.complete_queue .done x)

theorem Part.baselined_settle {i : PointNo} {p q : Part} (h : p.baselined i q) (old : Part) : p.baselined i (Part.settle old q) :=
  h.later (Part.shadow_settle old q i) (by rw [Part.settle_queue]) (Part.settle_mirrors old q) (Part.settle_holdsMore old q)

/-- No WAITING or HELD record of a point is left by its baseline. -/
theorem Part.baselined.chain {i : PointNo} {p q : Part} (h : p.baselined i q) : q.queue.chain i = [] := by
  have hchain : q.queue.chain i = (q.queue.records.filter (·.point = i)).filter fun r => r.chained := by
    rw [Queue.chain, List.filter_filter]
    exact List.filter_congr fun r _ => by by_cases h₁ : r.point = i <;> by_cases h₂ : r.chained = true <;> simp [h₁, h₂]
  rw [hchain, h.records, List.filter_filter]
  exact List.filter_eq_nil_iff.mpr fun r _ => by by_cases hr : r.chained = true <;> simp [hr]

/-- The entry ADOPT BASELINE leaves, in the words of R59. -/
theorem Part.adopted.entry {left : List PointNo} {s p q : Part} (h : p.adopted left q) (hreads : s.readsAs p)
    (hkeeps : s.keepsBut [.bus, .mirrors, .notice] p) {i : PointNo} (hi : i.val < 263) (hnot : i ∉ left) :
    (q.shadow i).delivered = (q.shadow i).intended.asDelivered ∧ (q.shadow i).isolated = (s.shadow i).isolated ∧
      (i.val < 256 → (q.shadow i).processed = (if s.pointEnabled i = true then s.stateCode i else (s.shadow i).processed) ∧
        (q.shadow i).intended = (if s.pointEnabled i = true then (s.translated i (s.stateCode i)).getD (s.shadow i).intended
          else (s.shadow i).intended)) ∧
      (256 ≤ i.val → (q.shadow i).intended = s.virtualIntended i (s.condition i)) := by
  have hshadow := (h.finished i hi hnot).shadow
  have hentry : p.shadow i = s.shadow i := Part.shadow_of_points hkeeps.points i
  rw [Part.shadow_refreshed, hreads.pointEnabled, hreads.stateCode, hreads.translated, hreads.virtualIntended,
    Part.condition_of_keeps (Part.keepsBut_mono hkeeps (by simp)) (by rw [hkeeps.points]), hentry] at hshadow
  refine ⟨?_, (congrArg Shadow.isolated hshadow).trans rfl, fun hreal => ⟨?_, ?_⟩, fun hvirtual => ?_⟩
  · exact (congrArg Shadow.delivered hshadow).trans (congrArg Intended.asDelivered (congrArg Shadow.intended hshadow)).symm
  · exact (congrArg Shadow.processed hshadow).trans (if_congr (and_iff_right hreal) rfl rfl)
  · exact (congrArg Shadow.intended hshadow).trans (if_pos hreal)
  · exact (congrArg Shadow.intended hshadow).trans ((if_neg (by omega)).trans (if_pos hi))

/-! ### The end of ADOPT BASELINE -/

theorem Part.complete_wbq (st : ResultStatus) (p : Part) : p.bus.wbq <+: (p.complete st).bus.wbq := by
  cases hc : p.notice.inProgress with
  | none => rw [Part.complete_none hc]
  | some c =>
    have hcomplete : p.complete st = Part.finalResult c st { p with notice := { p.notice with inProgress := none } } := by
      simp only [Part.complete, hc]
    rw [hcomplete]
    exact Part.finalResult_wbq c st { p with notice := { p.notice with inProgress := none } }

/-- The last address of the Point Engine has entered. -/
def Part.lastEntered (w : Waiter) (p : Part) : Part := { p with bus := { p.bus with wbWait := [], wbq := p.bus.wbq ++ [w.first] } }

/-- The Point Engine goes on when its last address has entered, and its piece of work is done (R12, R176). -/
theorem Part.admitEntry_commandDone {p : Part} {w : Waiter} (htodo : p.points.todo = [.commandDone]) (hwork : p.points.work = [])
    (hdrain : p.bus.drain = none) (hwait : p.bus.wbWait = [w]) (hlater : w.later = []) (hnew : w.first ∉ p.bus.wbq)
    (hroom : p.bus.wbq.length < Config.writeBackPlaces) :
    p.admitEntry = ((p.lastEntered w).complete .done).withTodo [] := by
  have hentered : p.admitWaiter = p.lastEntered w := by
    rw [Part.admitWaiter_eq hwait hnew hroom, hlater]
    rfl
  have hbegun : (p.lastEntered w).beginDrain = p.lastEntered w := by
    have hnone : (p.lastEntered w).bus.drain = none := hdrain
    unfold Part.beginDrain
    rw [hnone]
  have hfree : (p.lastEntered w).engineWaits = false := rfl
  have htodo' : (p.lastEntered w).points.todo = [.commandDone] := htodo
  have hpump : (((p.lastEntered w).complete .done).withTodo []).pump = ((p.lastEntered w).complete .done).withTodo [] :=
    Part.pump_of_notices fun v hv => by
      have hv' : v ∈ ((p.lastEntered w).complete .done).points.work := hv
      rw [Part.complete_points] at hv'
      have hnone : (p.lastEntered w).points.work = [] := hwork
      rw [hnone] at hv'
      exact absurd hv' List.not_mem_nil
  rw [Part.admitEntry, hentered, hbegun, Part.resume, if_neg (by rw [hfree]; exact Bool.false_ne_true), htodo',
    Part.runOps_cons (op := .commandDone) nofun, if_neg (by rw [hfree]; exact Bool.false_ne_true)]
  exact hpump

/-- Settles O30: the first points are done in the step of the command word, the result follows the last address. -/
theorem adoptBaselineDeliversPresentState : Obligations.AdoptBaselineDeliversPresentState := by
  refine ⟨fun tag spare s hm ⟨hw, hfree⟩ hidle hfifo hs => ?_,
    fun c w s hm htodo hwork hprogress hdrain hwait hengine hlater hnew hroom => ⟨_, rfl, ?_⟩⟩
  · have hserving : s.part.mode.serving = true := by rw [hm]; rfl
    have hreads := Part.readsAs_handing hw.2.2 { code := 5, tag } (commandWord 5 tag spare)
    have hgiven := Part.handing_keepsBut { code := 5, tag } (commandWord 5 tag spare) s.part
    have hnotice := Part.handing_notice { code := 5, tag } (commandWord 5 tag spare) s.part
    have hhanded := Part.handing_keeps { code := 5, tag } (commandWord 5 tag spare) s.part
    have hidle' := Part.handing_idle hidle { code := 5, tag } (commandWord 5 tag spare)
    have hrefusal : s.part.refusal 5 = none := by simp [Part.refusal, hm, hfree, accepts, unknownCode]
    have hwritten := State.commandAccepted (tag := tag) (spare := spare) (Mode.live_of_serving hserving) hw hrefusal
      (Part.adoptEffect_of hidle' (by rw [hgiven.points]; exact hfifo))
    generalize s.part.handing { code := 5, tag } (commandWord 5 tag spare) = p at *
    obtain ⟨left, hadopted⟩ := Part.adopted_of_runOps (by rw [hgiven.mode]; exact Mode.live_of_serving hserving) hidle'
      (by rw [hgiven.queue]; exact hs.told)
    have hwritten' : exec (.adoptBaseline tag spare) s = _ := congrArg Host.Outcome.next hwritten
    refine ⟨_, hwritten', State.commandTaken_of hw (by decide) (Part.keepsBut_trans (Part.keepsBut_mono hhanded (by simp))
      (Part.keepsBut_mono hadopted.keeps (by simp))), ?_⟩
    clear hwritten hwritten'
    simp only
    generalize Part.runOps (baselinePoints.map .baseline ++ [.commandDone]) p = q at hadopted
    have hmem : ∀ i, PointOp.baseline i ∈ (Part.settle s.part q).points.todo ↔ i ∈ left := fun i => by
      rw [Part.settle_points]
      rcases hadopted.todo with ⟨htodo, hnil⟩ | ⟨htodo, -⟩
      · simp [htodo, hnil]
      · simp [htodo]
    refine ⟨fun h => hadopted.first ((hmem 0).mp h), fun i hi hnot => ?_, fun i hin => ?_, fun hne => ?_⟩
    · have hnot' : i ∉ left := fun h => hnot ((hmem i).mpr h)
      have hbase := Part.baselined_settle (hadopted.finished i hi hnot') s.part
      obtain ⟨hdelivered, hisolated, hreal, hvirtual⟩ := hadopted.entry hreads hgiven hi hnot'
      rw [← Part.shadow_settle s.part] at hdelivered hisolated hreal hvirtual
      refine ⟨by rw [hdelivered]; rfl, by rw [hdelivered]; rfl, by rw [hdelivered]; rfl, hbase.chain, hisolated, hreal, hvirtual,
        hbase.owed, ?_, ?_, hbase.status, hbase.code⟩
      · rw [hbase.records, hgiven.queue]
      · exact congrArg Shadow.status hbase.shadow
    · rw [Part.shadow_settle, hadopted.same i ((hmem i).mp hin), Part.shadow_of_points hgiven.points]
    · rw [Part.settle_points] at hne
      obtain ⟨-, -, hprogress, htag, hstatus⟩ := Part.settle_trouble s.part q
      rcases hadopted.todo with ⟨htodo, -⟩ | ⟨-, hprogress', htag', hstatus'⟩
      · exact absurd htodo hne
      · rw [hnotice] at hprogress' htag' hstatus'
        exact ⟨hprogress.trans hprogress', htag.trans htag', hstatus.trans hstatus'⟩
  · have hadmit := Part.admitEntry_commandDone htodo hwork hdrain hwait hlater hnew hroom
    have hserve : s.part.work Part.admitEntry = Part.settle s.part (((s.part.lastEntered w).complete .done).withTodo []) := by
      rw [Part.work_of_live (Mode.live_of_serving hm), hadmit]
    have hkeeps : s.part.keepsBut [.bus] (s.part.lastEntered w) := fun b hb => by
      cases b <;> simp [Block.same, Part.lastEntered] at hb ⊢
    have hprogress' : (s.part.lastEntered w).notice.inProgress = some c := hprogress
    obtain ⟨hanswered, hended⟩ := Part.complete_answered hprogress' .done
    have hanswered' : s.part.answered c.code c.tag .done (((s.part.lastEntered w).complete .done).withTodo []) :=
      Part.answered_before (p' := s.part.lastEntered w) rfl rfl rfl hanswered
    have hprefix : s.part.bus.wbq ++ [w.first] <+: (((s.part.lastEntered w).complete .done).withTodo []).bus.wbq :=
      Part.complete_wbq .done (s.part.lastEntered w)
    obtain ⟨-, -, hprogress'', -⟩ := Part.settle_trouble s.part (((s.part.lastEntered w).complete .done).withTodo [])
    simp only [hserve]
    refine ⟨by rw [Part.settle_points]; rfl, hprogress''.trans hended, Part.answered_settle hanswered' _,
      hprefix.trans (Part.settle_entries _ _).2.2.2.2.2, rfl, rfl, rfl, ?_⟩
    exact Part.keepsBut_trans (Part.keepsBut_mono hkeeps (by simp)) (Part.keepsBut_trans
      (Part.keepsBut_mono (Part.complete_keeps .done _) (by simp)) (Part.keepsBut_trans
        (Part.keepsBut_mono (Part.withTodo_keeps _ _) (by simp)) (Part.keepsBut_mono (Part.settle_keeps _ _) (by simp))))

end Sys2Proof.Machine
end

section
/-! PROOFS. ABORT CALLS, and chains restored after a return (R80, R81, R123, R138). -/

namespace Sys2Proof.Machine

/-! ### The chain of a point restored -/

/-- The chain of a point folded into itself, and the records that leave it (R81). -/
def Queue.merged (q : Queue) (i : PointNo) : List Record × List Record := (q.chain i).foldl mergeStep ([], [])

theorem Part.mergePoint_same {p : Part} {i : PointNo} (h : (p.queue.merged i).1 = p.queue.chain i) : p.mergePoint i = p := if_pos h

/-- The log records, the notices and the records of a chain restored (R81, R85). -/
theorem Part.mergePoint_makes {p : Part} {i : PointNo} (h : (p.queue.merged i).1 ≠ p.queue.chain i) :
    p.makes ((p.queue.merged i).2.map (p.droppedLog .withdrawn))
        (((p.queue.merged i).2.map fun _ => .notice .withdrawal i) ++ [.notice .merged i]) (p.mergePoint i) ∧
      (p.mergePoint i).queue = { p.queue with
        records := p.queue.records.filterMap fun r =>
          if r.point = i ∧ r.chained then (p.queue.merged i).1.find? (·.id = r.id) else some r } := by
  have heq : p.mergePoint i = Part.tell (.notice .merged i)
      (((p.queue.merged i).2.map (p.droppedLog .withdrawn)).foldl (fun q l => Part.tell (.notice .withdrawal i) (q.makeLog l))
        (p.setRecords (p.queue.records.filterMap fun r =>
          if r.point = i ∧ r.chained then (p.queue.merged i).1.find? (·.id = r.id) else some r))) := if_neg h
  generalize hrecords : (p.queue.records.filterMap fun r =>
    if r.point = i ∧ r.chained then (p.queue.merged i).1.find? (·.id = r.id) else some r) = records at heq ⊢
  generalize p.droppedLog .withdrawn = log at heq ⊢
  have hset := p.setRecords_makes records
  have hlogs := Part.makes_foldl (f := fun q (l : LogRecord) => Part.tell (.notice .withdrawal i) (q.makeLog l)) (logs := fun l => [l])
    (work := fun _ => [.notice .withdrawal i]) (p := p.setRecords records) (l := (p.queue.merged i).2.map log) fun q _ l _ =>
      (Part.makeLog_makes l q).trans (Part.tell_makes _ _)
  have hqueue : (((p.queue.merged i).2.map log).foldl (fun q l => Part.tell (.notice .withdrawal i) (q.makeLog l))
      (p.setRecords records)).queue = (p.setRecords records).queue :=
    foldl_keeps Part.queue _ (fun q l => (Part.tell_queue _ _).trans (Part.makeLog_queue l q)) _ _
  rw [heq]
  refine ⟨?_, ?_⟩
  · have hall := (hset.trans hlogs).trans (Part.tell_makes (.notice .merged i) _)
    rw [← List.map_eq_flatMap, List.map_id', ← List.map_eq_flatMap, List.map_map] at hall
    simpa [Function.comp_def] using hall
  · rw [Part.tell_queue, hqueue, Part.setRecords_queue]

theorem Part.mergePoint_makesSome (i : PointNo) (p : Part) : ∃ logs work, p.makes logs work (p.mergePoint i) := by
  by_cases h : (p.queue.merged i).1 = p.queue.chain i
  · rw [Part.mergePoint_same h]
    exact ⟨[], [], p.makes_refl⟩
  · exact ⟨_, _, (Part.mergePoint_makes h).1⟩

theorem Part.makesSome_foldl {α : Type} {f : Part → α → Part} (h : ∀ q a, ∃ logs work, Part.makes logs work q (f q a)) (l : List α)
    (p : Part) : ∃ logs work, p.makes logs work (l.foldl f p) := by
  induction l generalizing p with
  | nil => exact ⟨[], [], p.makes_refl⟩
  | cons a l ih =>
    obtain ⟨logs, work, hfirst⟩ := h p a
    obtain ⟨logs', work', hrest⟩ := ih (f p a)
    exact ⟨_, _, hfirst.trans hrest⟩

/-- A call interrupted makes log records and work and changes no more than that and the queue. -/
theorem Part.interruptCall_makes (n : LineNo) (c : Call) (kind : LogKind) (p : Part) :
    ∃ logs work, p.makes logs work (p.interruptCall n c kind) := by
  rw [Part.interruptCall_eq]
  have hnamed := ((p.setRecords_makes _).trans (Part.logNamed_makes (fun r => LogRecord.ofCall n c.dest (r.log kind))
    ((p.queue.inSlots c.undelivered).take 1) (p.replaceRecords ((p.queue.inSlots c.undelivered).map Record.back))))
  generalize (p.replaceRecords ((p.queue.inSlots c.undelivered).map Record.back)).logNamed _ _ = q at hnamed ⊢
  generalize (p.queue.inSlots c.undelivered).map Record.back = rs
  obtain ⟨logs, work, htold⟩ := Part.makesSome_foldl (f := fun q (r : Record) => q.tell r.returnedWork)
    (fun q r => ⟨_, _, Part.tell_makes _ q⟩) rs q
  obtain ⟨logs', work', hmerged⟩ := Part.makesSome_foldl (f := fun q i => Part.mergePoint i q)
    (fun q i => Part.mergePoint_makesSome i q) (rs.map (·.point)).dedup (rs.foldl (fun q r => q.tell r.returnedWork) q)
  exact ⟨_, _, ((hnamed.trans htold).trans hmerged).trans (Part.occasion_makes _)⟩

/-! ### A line aborted -/

/-- A line whose call has been aborted (R123). -/
def Line.aborted (l : Line) : Line := Line.toRelease { l with call := none }

theorem Part.line_moveLine_eq (n m : LineNo) (f : Line → Line) (p : Part) :
    (p.moveLine n f).line m = if m = n then f (p.line n) else p.line m := by
  by_cases h : m = n
  · rw [if_pos h, h, Part.line_moveLine]
  · rw [if_neg h, Part.line_moveLine_ne h]

theorem Part.abortLine_none {p : Part} {n : LineNo} (h : (p.line n).call = none) : p.abortLine n = p := by
  simp only [Part.abortLine, Part.endCall, h]

theorem Part.abortLine_some {p : Part} {n : LineNo} {c : Call} (h : (p.line n).call = some c) : p.abortLine n =
    (if c.complete then p else p.interruptCall n c .aborted).moveLine n Line.aborted := by
  simp only [Part.abortLine, Part.endCall, h]
  rfl

/-- What aborts change besides their lines. -/
structure Part.aborts (p q : Part) : Prop where
  keeps : p.keepsBut [.bus, .notice, .points, .queue, .lines, .arbiter] q
  inProgress : q.notice.inProgress = p.notice.inProgress
  heads : q.notice.heads.isSome = p.notice.heads.isSome

theorem Part.aborts_refl (p : Part) : p.aborts p := ⟨Part.keepsBut_refl _ p, rfl, rfl⟩

theorem Part.aborts.trans {p q r : Part} (h : p.aborts q) (k : q.aborts r) : p.aborts r :=
  ⟨Part.keepsBut_trans h.keeps k.keeps, k.inProgress.trans h.inProgress, k.heads.trans h.heads⟩

theorem Part.aborts_of_makes {logs : List LogRecord} {work : List Work} {p q : Part} (h : p.makes logs work q) : p.aborts q :=
  ⟨Part.keepsBut_mono h.keeps (by simp), by rw [h.notice], h.heads⟩

theorem Part.aborts_moveLine (n : LineNo) (f : Line → Line) (p : Part) : p.aborts (p.moveLine n f) := by
  have hkeeps := Part.moveLine_keeps n f p
  exact ⟨Part.keepsBut_mono hkeeps (by simp), by rw [hkeeps.notice], by rw [hkeeps.notice]⟩

theorem Part.abortLine_spec (n : LineNo) (p : Part) : p.aborts (p.abortLine n) ∧
    ∀ m, (p.abortLine n).line m = if m = n ∧ (p.line n).call.isSome = true then (p.line n).aborted else p.line m := by
  cases hcall : (p.line n).call with
  | none =>
    rw [Part.abortLine_none hcall]
    exact ⟨p.aborts_refl, fun m => by simp⟩
  | some c =>
    have hout : p.aborts (if c.complete then p else p.interruptCall n c .aborted) ∧
        ∀ m, (if c.complete then p else p.interruptCall n c .aborted).line m = p.line m := by
      split
      · exact ⟨p.aborts_refl, fun _ => rfl⟩
      · obtain ⟨logs, work, hmakes⟩ := p.interruptCall_makes n c .aborted
        exact ⟨Part.aborts_of_makes hmakes, Part.line_of_lines hmakes.keeps.lines⟩
    rw [Part.abortLine_some hcall]
    refine ⟨hout.1.trans (Part.aborts_moveLine n _ _), fun m => ?_⟩
    rw [Part.line_moveLine_eq, hout.2, hout.2]
    simp

theorem Part.abortLines_spec {l : List LineNo} (hl : l.Nodup) (p : Part) : p.aborts (l.foldl (fun q n => q.abortLine n) p) ∧
    ∀ m, (l.foldl (fun q n => q.abortLine n) p).line m =
      if m ∈ l ∧ (p.line m).call.isSome = true then (p.line m).aborted else p.line m := by
  induction l generalizing p with
  | nil => exact ⟨p.aborts_refl, fun m => by simp⟩
  | cons n l ih =>
    obtain ⟨hnew, hl'⟩ := List.nodup_cons.mp hl
    obtain ⟨haborts, hlines⟩ := p.abortLine_spec n
    obtain ⟨haborts', hlines'⟩ := ih hl' (p.abortLine n)
    refine ⟨haborts.trans haborts', fun m => ?_⟩
    rw [List.foldl_cons, hlines', hlines]
    by_cases hm : m = n
    · subst hm
      by_cases hcall : (p.line m).call.isSome = true <;> simp [hnew, hcall]
    · simp [hm]

/-- Every line that carries a call is released, the others stay as they are (R123). -/
theorem Part.abortAll_spec (p : Part) : p.aborts p.abortAll ∧
    ∀ m, p.abortAll.line m = if (p.line m).call.isSome = true then (p.line m).aborted else p.line m := by
  obtain ⟨haborts, hlines⟩ := Part.abortLines_spec (List.nodup_finRange 4) p
  refine ⟨haborts, fun m => (hlines m).trans ?_⟩
  simp only [List.mem_finRange, true_and]

/-- Only one line carries a call. -/
theorem Part.abortAll_one {p : Part} {n : LineNo} (h : ∀ m, m ≠ n → (p.line m).call = none) : p.abortAll = p.abortLine n := by
  have hfixed : ∀ (l : List LineNo) (q : Part), (∀ m ∈ l, (q.line m).call = none) → l.foldl (fun q m => q.abortLine m) q = q :=
    fun l q hq => List.foldl_of_fixed fun m hm => Part.abortLine_none (hq m hm)
  obtain ⟨front, back, hsplit⟩ := List.append_of_mem (List.mem_finRange n)
  have hnodup := List.nodup_finRange 4
  rw [hsplit, List.nodup_append, List.nodup_cons] at hnodup
  have hfront : ∀ m ∈ front, m ≠ n := fun m hm heq => hnodup.2.2 m hm n (List.mem_cons_self ..) heq
  have hback : ∀ m ∈ back, m ≠ n := fun m hm heq => hnodup.2.1.1 (heq ▸ hm)
  rw [Part.abortAll, hsplit, List.foldl_append, hfixed front p fun m hm => h m (hfront m hm), List.foldl_cons, hfixed back]
  intro m hm
  rw [(p.abortLine_spec n).2, if_neg fun hmn => hback m hm hmn.1]
  exact h m (hback m hm)

/-! ### One record returned -/

theorem Queue.chain_eq (q : Queue) (i : PointNo) : q.chain i = (q.records.filter (·.point = i)).filter fun r => r.chained := by
  rw [Queue.chain, List.filter_filter]
  exact List.filter_congr fun r _ => by by_cases h₁ : r.point = i <;> by_cases h₂ : r.chained = true <;> simp [h₁, h₂]

/-- A call with one undelivered record interrupted, its parts in order (R80, R81, R85). -/
theorem Part.interruptCall_one {p : Part} {c : Call} {r : Record} (h : p.queue.told) (hr : r ∈ p.queue.records)
    (hslots : c.undelivered = [r.slot]) (n : LineNo) (kind : LogKind) : ∃ x : Part,
      p.makes [(LogRecord.ofCall n c.dest (r.log kind)).stamp p.now] [.notice .returned r.point] x ∧
        x.queue = { p.queue with records := p.queue.records.map fun z => if z = r then r.back else z } ∧
        p.interruptCall n c kind = (x.mergePoint r.point).occasion := by
  have hcarries : p.queue.carries c [r] := ⟨by rw [hslots]; rfl, by simpa using hr⟩
  have hreplaced : (p.replaceRecords [r.back]).queue =
      { p.queue with records := p.queue.records.map fun z => if z ∈ [r] then z.back else z } :=
    Part.replaceRecords_map h hcarries.2 (f := Record.back) fun _ => rfl
  have hnow : (p.replaceRecords [r.back]).now = p.now := (p.setRecords_makes _).now
  have hlog := Part.logNow_makes (LogRecord.ofCall n c.dest (r.log kind)) (p.replaceRecords [r.back])
  rw [hnow] at hlog
  refine ⟨((p.replaceRecords [r.back]).logNow (LogRecord.ofCall n c.dest (r.log kind))).tell (.notice .returned r.point), ?_, ?_, ?_⟩
  · exact ((p.setRecords_makes _).trans hlog).trans (Part.tell_makes _ _)
  · rw [Part.tell_queue, (Part.logNow_keeps _ _).queue, hreplaced]
    refine congrArg (fun l => ({ p.queue with records := l } : Queue)) (List.map_congr_left fun z _ => ?_)
    by_cases hz : z = r
    · rw [if_pos (by simp [hz]), if_pos hz, hz]
    · rw [if_neg (by simpa using hz), if_neg hz]
  · rw [Part.interruptCall_eq, Queue.inSlots_eq h hcarries]
    rfl

/-- The records of a point where one of them has been changed in place. -/
theorem filter_point_of_changed {l : List Record} {r r' : Record} (hpoint : r'.point = r.point) (i : PointNo) :
    (l.map fun z => if z = r then r' else z).filter (·.point = i) = (l.filter (·.point = i)).map fun z => if z = r then r' else z := by
  rw [List.filter_map]
  refine congrArg _ (List.filter_congr fun z _ => ?_)
  by_cases hz : z = r
  · simp [Function.comp, hz, hpoint]
  · simp [Function.comp, hz]

theorem Record.chained_back (r : Record) : r.back.chained = true := rfl

/-- The chain of a point one of whose records has returned. -/
theorem Queue.chain_returned {q q' : Queue} {r : Record} {later : List Record}
    (hq : q' = { q with records := q.records.map fun z => if z = r then r.back else z })
    (hrecords : q.records.filter (·.point = r.point) = r :: later) (hne : ∀ z ∈ later, z ≠ r)
    (hchained : ∀ z ∈ later, z.chained = true) : q'.chain r.point = r.back :: later := by
  have hrest : later.map (fun z => if z = r then r.back else z) = later :=
    (List.map_congr_left fun z hz => if_neg (hne z hz)).trans (List.map_id' _)
  rw [Queue.chain_eq, hq, filter_point_of_changed (r := r) (r' := r.back) rfl, hrecords, List.map_cons, if_pos rfl, hrest, List.filter_cons,
    if_pos r.chained_back, List.filter_eq_self.mpr hchained]

/-! ### Chains of two and of three -/

/-- Two records of one sense fold (R66, R69, R81). -/
theorem Queue.merged_two {q : Queue} {i : PointNo} {b x : Record} (h : q.chain i = [b, x]) : q.merged i =
    if b.sense = x.sense then ([b.fold1 x.asRequest x.fold], []) else ([b, x], []) := by
  rw [Queue.merged, h]
  by_cases hs : b.sense = x.sense
  · simp [mergeStep, placement, hs]
  · simp [mergeStep, placement, hs]

theorem Record.fold1_sense (rq : Request) (own : Nat) (x : Record) : (x.fold1 rq own).sense = x.sense := by
  unfold Record.fold1
  split <;> rfl

theorem Record.fold1_id (rq : Request) (own : Nat) (x : Record) : (x.fold1 rq own).id = x.id := by
  unfold Record.fold1
  split <;> rfl

theorem Record.fold2_id (rq : Request) (own : Nat) (x : Record) : (x.fold2 rq own).id = x.id := by
  unfold Record.fold2
  split <;> rfl

/-- Of three records the middle one folds into the first, and the last stays. -/
theorem Queue.merged_three_fold {q : Queue} {i : PointNo} {b x y : Record} (h : q.chain i = [b, x, y]) (hx : b.sense = x.sense)
    (hy : x.sense ≠ y.sense) : q.merged i = ([b.fold1 x.asRequest x.fold, y], []) := by
  have hfirst : (b.fold1 x.asRequest x.fold).sense ≠ y.sense := by
    rw [Record.fold1_sense, hx]
    exact hy
  rw [Queue.merged, h]
  simp [mergeStep, placement, hx, hfirst]

/-- Of three records the last folds into the first over the middle one, which leaves (R67, R81). -/
theorem Queue.merged_three_foldTwice {q : Queue} {i : PointNo} {b x y : Record} (h : q.chain i = [b, x, y]) (hb : b.sense = y.sense)
    (hx : x.sense ≠ y.sense) (hid : b.id ≠ x.id) : q.merged i = ([b.fold2 y.asRequest y.fold], [x]) := by
  rw [Queue.merged, h]
  simp [mergeStep, placement, hb, hx, hx.symm, hid]

/-- The records that are left where a chain has been restored to `m`. -/
theorem filterMap_returned {records later m : List Record} {r : Record} {F : Record → Option Record}
    (hrecords : records.filter (·.point = r.point) = r :: later) (hchained : ∀ z ∈ later, z.chained = true)
    (hr : m.find? (·.id = r.id) = F r) (hlater : ∀ z ∈ later, m.find? (·.id = z.id) = F z)
    (hother : ∀ z, z.point ≠ r.point → F z = some z) :
    (records.map fun z => if z = r then r.back else z).filterMap
      (fun z => if z.point = r.point ∧ z.chained then m.find? (·.id = z.id) else some z) = records.filterMap F := by
  rw [List.filterMap_map]
  refine List.filterMap_congr fun z hz => ?_
  rw [Function.comp_apply]
  by_cases hzr : z = r
  · rw [if_pos hzr, if_pos ⟨rfl, r.chained_back⟩, hzr]
    exact hr
  · rw [if_neg hzr]
    by_cases hpoint : z.point = r.point
    · have hmem : z ∈ r :: later := hrecords ▸ List.mem_filter.mpr ⟨hz, by simpa using hpoint⟩
      have hin := (List.mem_cons.mp hmem).resolve_left hzr
      rw [if_pos ⟨hpoint, hchained z hin⟩]
      exact hlater z hin
    · rw [if_neg fun h => hpoint h.1, hother z hpoint]

/-- A returned record into which the next one has folded (R66, R69, R81). -/
def Record.backFolded (r x : Record) : Record :=
  { r.back with
    code := x.code, priority := min r.priority x.priority, fold := min 9 (r.fold + 1 + x.fold)
    route := if r.sense = .test then r.route else x.route
    unrouted := if r.sense = .test then r.unrouted else x.unrouted }

theorem Record.fold1_back {r x : Record} (h : x.sense = r.sense) : r.back.fold1 x.asRequest x.fold = r.backFolded x := by
  have hsense : x.asRequest.sense = r.sense := h
  unfold Record.fold1 Record.backFolded
  cases hs : r.sense <;> simp only [hsense, hs] <;> rfl

/-- A returned record into which the last of two has folded (R67, R81). -/
def Record.backFoldedTwice (r y : Record) : Record :=
  { r.back with
    code := if r.sense = .active then y.code else r.code
    priority := min r.priority y.priority, fold := min 9 (r.fold + 2 + y.fold)
    route := if r.sense = .active then y.route else r.route
    unrouted := if r.sense = .active then y.unrouted else r.unrouted }

theorem Record.fold2_back {r y : Record} (h : y.sense = r.sense) : r.back.fold2 y.asRequest y.fold = r.backFoldedTwice y := by
  have hsense : y.asRequest.sense = r.sense := h
  unfold Record.fold2 Record.backFoldedTwice
  cases hs : r.sense <;> simp only [hsense, hs] <;> rfl

/-! ### The calls of one line -/

/-- What the end of a call hands the Report Queue. -/
def Part.abortOut (n : LineNo) (c : Call) (p : Part) : Part := if c.complete then p else p.interruptCall n c .aborted

theorem Call.complete_undelivered {c : Call} (h : c.complete = true) : c.undelivered = [] := by
  have hlen : c.delivered = c.reports.length := of_decide_eq_true h
  rw [Call.undelivered, hlen, List.drop_length]

theorem Part.abortOut_of {c : Call} {s : SlotNo} (h : c.undelivered = [s]) (n : LineNo) (p : Part) :
    p.abortOut n c = p.interruptCall n c .aborted :=
  if_neg fun hc => by rw [Call.complete_undelivered hc] at h; exact absurd h nofun

theorem Part.commandLog_of_time {p q : Part} (h : q.time = p.time) (code : BitVec 4) (tag : BitVec 8) (st : ResultStatus) :
    commandLog q code tag st = commandLog p code tag st := by rw [commandLog, Part.now, h, commandLog, Part.now]

/-- ABORT CALLS where one line carries a call: what the end of the call makes, and then the result (R123, R176). -/
theorem State.abortCalls_one {s : State} {tag : BitVec 8} {spare : BitVec 4} {n : LineNo} {c : Call} {logs : List LogRecord}
    {work : List Work} {Q : Queue → Prop} (hm : s.part.mode.serving = true) (hfree : s.commandFree)
    (hcall : (s.part.line n).call = some c) (hothers : ∀ m, m ≠ n → (s.part.line m).call = none)
    (hout : ∀ p : Part, s.part.readsAs p → p.makes logs work (p.abortOut n c) ∧ Q (p.abortOut n c).queue) :
    Answers (.abortCalls tag spare) s fun t => Q t.part.queue ∧ t.part.points.work = s.part.points.work ++ work ∧
      s.part.logsMade (logs ++ [commandLog s.part 3 tag .done]) t.part := by
  obtain ⟨hw, hnone⟩ := hfree
  have hreads := Part.readsAs_handing hw.2.2 { code := 3, tag } (commandWord 3 tag spare)
  have hgiven := Part.handing_keepsBut { code := 3, tag } (commandWord 3 tag spare) s.part
  have hnotice := Part.handing_notice { code := 3, tag } (commandWord 3 tag spare) s.part
  have hwritten := State.commandAccepted (tag := tag) (spare := spare) (Mode.live_of_serving hm) hw
    (Part.refusal_of_serving (code := 3) hm hnone (by decide) (by decide)) rfl
  have hwritten' : exec (.abortCalls tag spare) s = _ := congrArg Host.Outcome.next hwritten
  refine ⟨_, hwritten', ?_⟩
  clear hwritten hwritten'
  have heffect : Part.effect { code := 3, tag } (s.part.mirror 0x011) (s.part.handing { code := 3, tag } (commandWord 3 tag spare)) =
    (s.part.handing { code := 3, tag } (commandWord 3 tag spare)).abortAll.complete .done := rfl
  simp only [heffect]
  generalize s.part.handing { code := 3, tag } (commandWord 3 tag spare) = p at *
  have hline := Part.line_of_lines hgiven.lines
  have habort : p.abortAll = (p.abortOut n c).moveLine n Line.aborted := by
    rw [Part.abortAll_one (n := n) fun m hmn => by rw [hline, hothers m hmn], Part.abortLine_some (by rw [hline, hcall])]
    rfl
  obtain ⟨hmakes, hQ⟩ := hout p hreads
  rw [habort]
  generalize p.abortOut n c = q at *
  have hmoved := Part.moveLine_keeps n Line.aborted q
  have hlogged := (Part.moveLine_entries n Line.aborted q).logged
  generalize q.moveLine n Line.aborted = x at *
  have hprogress : x.notice.inProgress = some { code := 3, tag } := by
    rw [hmoved.notice, hmakes.notice, hnotice]
  have hlast := Part.complete_makesLog hprogress .done
  rw [Part.commandLog_of_time (hmoved.time.trans (hmakes.keeps.time.trans hreads.time))] at hlast
  refine ⟨?_, ?_, fun hserving hheads => ?_⟩
  · rw [Part.settle_queue, Part.complete_queue, hmoved.queue]
    exact hQ
  · rw [Part.settle_points, Part.complete_points, hmoved.points, hmakes.points, hgiven.points]
  · have hserving' : p.mode.serving = true := by rw [hreads.mode]; exact hserving
    have hheads' : p.notice.heads.isSome = true := by rw [hreads.heads]; exact hheads
    rw [(Part.settle_entries _ _).logged, hlast (by rw [hmoved.mode, hmakes.keeps.mode]; exact hserving')
      (by rw [hmoved.notice, hmakes.heads]; exact hheads'), hlogged, hmakes.logged hserving' hheads', hreads.logged, List.append_assoc]

/-- A call of one undelivered record interrupted, whose point has been given newer records that stay as they are (R81). -/
theorem Part.interruptCall_unmerged {p : Part} {c : Call} {r : Record} {later : List Record} (h : p.queue.told)
    (hrecords : p.queue.records.filter (·.point = r.point) = r :: later) (hslots : c.undelivered = [r.slot])
    (hr : r.chained = false) (hchained : ∀ z ∈ later, z.chained = true)
    (hM : ∀ q : Queue, q.chain r.point = r.back :: later → (q.merged r.point).1 = r.back :: later) (n : LineNo) (kind : LogKind) :
    p.makes [(LogRecord.ofCall n c.dest (r.log kind)).stamp p.now] [.notice .returned r.point] (p.interruptCall n c kind) ∧
      (p.interruptCall n c kind).queue.records = p.queue.records.map fun z => if z = r then r.back else z := by
  have hmem : r ∈ p.queue.records := (List.mem_filter.mp (hrecords ▸ List.mem_cons_self .. : r ∈ p.queue.records.filter _)).1
  have hne : ∀ z ∈ later, z ≠ r := fun z hz heq => by rw [heq] at hz; exact absurd (hr.symm.trans (hchained r hz)) (by decide)
  obtain ⟨x, hmakes, hqueue, heq⟩ := Part.interruptCall_one h hmem hslots n kind
  have hchain := Queue.chain_returned hqueue hrecords hne hchained
  rw [heq, Part.mergePoint_same ((hM _ hchain).trans hchain.symm)]
  exact ⟨by simpa using hmakes.trans (Part.occasion_makes x), by rw [Part.occasion_queue, hqueue]⟩

/-- A call of one undelivered record interrupted, whose point has been given newer records that fold into it (R81). -/
theorem Part.interruptCall_merged {p : Part} {c : Call} {r : Record} {later : List Record} {M : List Record × List Record}
    {F : Record → Option Record} (h : p.queue.told) (hrecords : p.queue.records.filter (·.point = r.point) = r :: later)
    (hslots : c.undelivered = [r.slot]) (hr : r.chained = false) (hchained : ∀ z ∈ later, z.chained = true)
    (hM : ∀ q : Queue, q.chain r.point = r.back :: later → q.merged r.point = M) (hchanged : M.1 ≠ r.back :: later)
    (hFr : M.1.find? (·.id = r.id) = F r) (hFlater : ∀ z ∈ later, M.1.find? (·.id = z.id) = F z)
    (hFother : ∀ z, z.point ≠ r.point → F z = some z) (n : LineNo) (kind : LogKind) :
    p.makes ((LogRecord.ofCall n c.dest (r.log kind)).stamp p.now :: M.2.map (p.droppedLog .withdrawn))
        (.notice .returned r.point :: ((M.2.map fun _ => .notice .withdrawal r.point) ++ [.notice .merged r.point]))
        (p.interruptCall n c kind) ∧
      (p.interruptCall n c kind).queue.records = p.queue.records.filterMap F := by
  have hmem : r ∈ p.queue.records := (List.mem_filter.mp (hrecords ▸ List.mem_cons_self .. : r ∈ p.queue.records.filter _)).1
  have hne : ∀ z ∈ later, z ≠ r := fun z hz heq => by rw [heq] at hz; exact absurd (hr.symm.trans (hchained r hz)) (by decide)
  obtain ⟨x, hmakes, hqueue, heq⟩ := Part.interruptCall_one h hmem hslots n kind
  have hchain := Queue.chain_returned hqueue hrecords hne hchained
  have hmerged := hM _ hchain
  obtain ⟨hmerge, hrest⟩ := Part.mergePoint_makes (p := x) (i := r.point) (by rw [hmerged, hchain]; exact hchanged)
  have hdropped : x.droppedLog .withdrawn = p.droppedLog .withdrawn :=
    funext fun z => Part.droppedLog_of_mirrors hmakes.keeps.mirrors _ z
  rw [hmerged, hdropped] at hmerge
  rw [hmerged] at hrest
  rw [heq]
  refine ⟨by simpa using (hmakes.trans hmerge).trans (Part.occasion_makes _), ?_⟩
  rw [Part.occasion_queue, hrest, hqueue]
  exact filterMap_returned hrecords hchained hFr hFlater hFother

/-- A newer record of the same sense folds into the one that returns. -/
theorem Part.interruptCall_two {p : Part} {c : Call} {r x : Record} (h : p.queue.told)
    (hrecords : p.queue.records.filter (·.point = r.point) = [r, x]) (hslots : c.undelivered = [r.slot])
    (hr : r.chained = false) (hx : x.chained = true) (hsense : x.sense = r.sense) (n : LineNo) (kind : LogKind) :
    p.makes [(LogRecord.ofCall n c.dest (r.log kind)).stamp p.now] [.notice .returned r.point, .notice .merged r.point]
        (p.interruptCall n c kind) ∧
      (p.interruptCall n c kind).queue.records = p.queue.records.filterMap fun z =>
        if z = r then some (r.backFolded x) else if z = x then none else some z := by
  have hmemOf : ∀ z ∈ [r, x], z ∈ p.queue.records ∧ z.point = r.point := fun z hz => by
    rw [← hrecords] at hz
    exact ⟨(List.mem_filter.mp hz).1, of_decide_eq_true (List.mem_filter.mp hz).2⟩
  have hne : x ≠ r := fun heq => by rw [heq] at hx; exact absurd (hr.symm.trans hx) (by decide)
  have hid : r.id ≠ x.id := fun heq => hne (h.eq_of_id_eq (hmemOf x (by simp)).1 (hmemOf r (by simp)).1 heq.symm)
  have hspec := Part.interruptCall_merged (M := ([r.backFolded x], [])) (later := [x]) (F := fun z =>
      if z = r then some (r.backFolded x) else if z = x then none else some z) h hrecords hslots hr (by simpa using hx)
    (fun q hq => by rw [Queue.merged_two hq, if_pos (show r.back.sense = x.sense from hsense.symm), Record.fold1_back hsense])
    (by simp) (by simp [Record.backFolded, Record.back]) (fun z hz => by
      rw [List.mem_singleton.mp hz]
      simp [Record.backFolded, Record.back, hid, hne])
    (fun z hz => by
      have hzr : z ≠ r := fun heq => hz (by rw [heq])
      have hzx : z ≠ x := fun heq => hz (by rw [heq]; exact (hmemOf x (by simp)).2)
      simp [hzr, hzx]) n kind
  exact hspec

/-- Of two newer records the first folds into the one that returns. -/
theorem Part.interruptCall_three_fold {p : Part} {c : Call} {r x y : Record} (h : p.queue.told)
    (hrecords : p.queue.records.filter (·.point = r.point) = [r, x, y]) (hslots : c.undelivered = [r.slot])
    (hr : r.chained = false) (hx : x.chained = true) (hy : y.chained = true) (hsense : x.sense = r.sense) (hother : x.sense ≠ y.sense)
    (n : LineNo) (kind : LogKind) :
    p.makes [(LogRecord.ofCall n c.dest (r.log kind)).stamp p.now] [.notice .returned r.point, .notice .merged r.point]
        (p.interruptCall n c kind) ∧
      (p.interruptCall n c kind).queue.records = p.queue.records.filterMap fun z =>
        if z = r then some (r.backFolded x) else if z = x then none else some z := by
  have hmemOf : ∀ z ∈ [r, x, y], z ∈ p.queue.records ∧ z.point = r.point := fun z hz => by
    rw [← hrecords] at hz
    exact ⟨(List.mem_filter.mp hz).1, of_decide_eq_true (List.mem_filter.mp hz).2⟩
  have hnodup : [r, x, y].Nodup := hrecords ▸ h.records_nodup.filter _
  simp only [List.nodup_cons, List.mem_cons, List.not_mem_nil, or_false, not_or] at hnodup
  obtain ⟨⟨hrx, hry⟩, hxy, -⟩ := hnodup
  have hidOf : ∀ a ∈ [r, x, y], ∀ b ∈ [r, x, y], a ≠ b → a.id ≠ b.id := fun a ha b hb hab heq =>
    hab (h.eq_of_id_eq (hmemOf a ha).1 (hmemOf b hb).1 heq)
  have hrxid := hidOf r (by simp) x (by simp) hrx
  have hryid := hidOf r (by simp) y (by simp) hry
  have hxyid := hidOf x (by simp) y (by simp) hxy
  have hspec := Part.interruptCall_merged (M := ([r.backFolded x, y], [])) (later := [x, y]) (F := fun z =>
      if z = r then some (r.backFolded x) else if z = x then none else some z) h hrecords hslots hr (by simp [hx, hy])
    (fun q hq => by rw [Queue.merged_three_fold hq hsense.symm hother, Record.fold1_back hsense])
    (by simp) (by simp [Record.backFolded, Record.back]) (fun z hz => by
      simp only [List.mem_cons, List.not_mem_nil, or_false] at hz
      rcases hz with rfl | rfl
      · simp [Record.backFolded, Record.back, hrxid, hxyid.symm, Ne.symm hrx]
      · simp [Record.backFolded, Record.back, hryid, Ne.symm hry, Ne.symm hxy])
    (fun z hz => by
      have hzr : z ≠ r := fun heq => hz (by rw [heq])
      have hzx : z ≠ x := fun heq => hz (by rw [heq]; exact (hmemOf x (by simp)).2)
      simp [hzr, hzx]) n kind
  exact hspec

/-- Of two newer records the second folds into the one that returns, over the first (R67, R81). -/
theorem Part.interruptCall_three_foldTwice {p : Part} {c : Call} {r x y : Record} (h : p.queue.told)
    (hrecords : p.queue.records.filter (·.point = r.point) = [r, x, y]) (hslots : c.undelivered = [r.slot])
    (hr : r.chained = false) (hx : x.chained = true) (hy : y.chained = true) (hsense : y.sense = r.sense) (hother : x.sense ≠ y.sense)
    (n : LineNo) (kind : LogKind) :
    p.makes [(LogRecord.ofCall n c.dest (r.log kind)).stamp p.now, p.droppedLog .withdrawn x]
        [.notice .returned r.point, .notice .withdrawal r.point, .notice .merged r.point] (p.interruptCall n c kind) ∧
      (p.interruptCall n c kind).queue.records = p.queue.records.filterMap fun z =>
        if z = r then some (r.backFoldedTwice y) else if z = x ∨ z = y then none else some z := by
  have hmemOf : ∀ z ∈ [r, x, y], z ∈ p.queue.records ∧ z.point = r.point := fun z hz => by
    rw [← hrecords] at hz
    exact ⟨(List.mem_filter.mp hz).1, of_decide_eq_true (List.mem_filter.mp hz).2⟩
  have hnodup : [r, x, y].Nodup := hrecords ▸ h.records_nodup.filter _
  simp only [List.nodup_cons, List.mem_cons, List.not_mem_nil, or_false, not_or] at hnodup
  obtain ⟨⟨hrx, hry⟩, hxy, -⟩ := hnodup
  have hidOf : ∀ a ∈ [r, x, y], ∀ b ∈ [r, x, y], a ≠ b → a.id ≠ b.id := fun a ha b hb hab heq =>
    hab (h.eq_of_id_eq (hmemOf a ha).1 (hmemOf b hb).1 heq)
  have hrxid := hidOf r (by simp) x (by simp) hrx
  have hryid := hidOf r (by simp) y (by simp) hry
  have hspec := Part.interruptCall_merged (M := ([r.backFoldedTwice y], [x])) (later := [x, y]) (F := fun z =>
      if z = r then some (r.backFoldedTwice y) else if z = x ∨ z = y then none else some z) h hrecords hslots hr (by simp [hx, hy])
    (fun q hq => by rw [Queue.merged_three_foldTwice hq hsense.symm hother hrxid, Record.fold2_back hsense])
    (by simp) (by simp [Record.backFoldedTwice, Record.back]) (fun z hz => by
      simp only [List.mem_cons, List.not_mem_nil, or_false] at hz
      rcases hz with rfl | rfl
      · simp [Record.backFoldedTwice, Record.back, hrxid, Ne.symm hrx]
      · simp [Record.backFoldedTwice, Record.back, hryid, Ne.symm hry])
    (fun z hz => by
      have hzr : z ≠ r := fun heq => hz (by rw [heq])
      have hzx : z ≠ x := fun heq => hz (by rw [heq]; exact (hmemOf x (by simp)).2)
      have hzy : z ≠ y := fun heq => hz (by rw [heq]; exact (hmemOf y (by simp)).2)
      simp [hzr, hzx, hzy]) n kind
  exact hspec

/-! ### The command -/

theorem Record.chained_eq_false {r : Record} (hw : r.state ≠ .waiting) (hh : r.state ≠ .held) : r.chained = false := by
  unfold Record.chained
  cases h : r.state <;> simp_all

/-- Every line that carries a call is released by ABORT CALLS, and the command is done (R123, R176). -/
theorem State.abortCalls_lines {tag : BitVec 8} {spare : BitVec 4} {s : State} (hm : s.part.mode.serving = true)
    (hfree : s.commandFree) : Answers (.abortCalls tag spare) s fun t =>
      s.commandTaken 3 tag spare [.lines, .points, .queue, .arbiter] t ∧ t.part.notice.inProgress = none ∧
      s.part.answered 3 tag .done t.part ∧
      ∀ n, t.part.line n = if (s.part.line n).call.isSome = true then (s.part.line n).aborted else s.part.line n := by
  obtain ⟨hw, hnone⟩ := hfree
  have hreads := Part.readsAs_handing hw.2.2 { code := 3, tag } (commandWord 3 tag spare)
  have hgiven := Part.handing_keepsBut { code := 3, tag } (commandWord 3 tag spare) s.part
  have hhanded := Part.handing_keeps { code := 3, tag } (commandWord 3 tag spare) s.part
  have hnotice := Part.handing_notice { code := 3, tag } (commandWord 3 tag spare) s.part
  have heffect : Part.effect { code := 3, tag } (s.part.mirror 0x011) (s.part.handing { code := 3, tag } (commandWord 3 tag spare)) =
    (s.part.handing { code := 3, tag } (commandWord 3 tag spare)).abortAll.complete .done := rfl
  have hwritten := State.commandAccepted (tag := tag) (spare := spare) (Mode.live_of_serving hm) hw
    (Part.refusal_of_serving (code := 3) hm hnone (by decide) (by decide)) heffect
  have hwritten' : exec (.abortCalls tag spare) s = _ := congrArg Host.Outcome.next hwritten
  clear heffect hwritten
  generalize s.part.handing { code := 3, tag } (commandWord 3 tag spare) = p at *
  obtain ⟨haborts, hlines⟩ := p.abortAll_spec
  generalize p.abortAll = q at *
  have hcomplete := Part.complete_keeps .done q
  obtain ⟨hanswered, hended⟩ := Part.complete_answered (haborts.inProgress.trans (by rw [hnotice])) .done
  obtain ⟨-, -, hsettled, -⟩ := Part.settle_trouble s.part (q.complete .done)
  refine ⟨_, hwritten', State.commandTaken_of hw (by decide) (Part.keepsBut_trans (Part.keepsBut_mono hhanded (by simp))
    (Part.keepsBut_trans (Part.keepsBut_mono haborts.keeps (by simp)) (Part.keepsBut_mono hcomplete (by simp)))),
    hsettled.trans hended, Part.answered_before (haborts.keeps.mode.trans hreads.mode) ?_ (haborts.heads.trans hreads.heads)
      (Part.answered_settle hanswered _), fun n => ?_⟩
  · rw [Part.causeEnable, Part.mirror_of_mirrors haborts.keeps.mirrors, hreads.mirror _ (by decide), Part.causeEnable]
  · rw [Part.line_settle, Part.line_of_lines hcomplete.lines, hlines, Part.line_of_lines hgiven.lines]

/-- Settles O28: the lines by `Part.abortAll_spec`; the records of one call by what its interruption makes of each chain. -/
theorem abortCallsReleasesEveryCall : Obligations.AbortCallsReleasesEveryCall := by
  refine fun tag spare s hm hfree => ⟨?_, fun n c hcall hothers hs => ⟨fun rs hc halone => ?_, fun r x hslots hw hh hx =>
    ⟨fun hrecords => ?_, fun y hy hxy hrecords => ?_⟩⟩⟩
  · obtain ⟨t, ht, htaken, hended, hanswered, hlines⟩ := State.abortCalls_lines (tag := tag) (spare := spare) hm hfree
    refine ⟨t, ht, htaken, hended, hanswered, fun n hn => ?_, fun n hn => ?_⟩
    · rw [hlines, hn]
      rfl
    · rw [hlines, if_pos hn]
      exact ⟨rfl, rfl, rfl, rfl, rfl⟩
  · have hout : ∀ p : Part, s.part.readsAs p →
        p.makes ((rs.take 1).map fun r => (LogRecord.ofCall n c.dest (r.log .aborted)).stamp s.part.now)
          (rs.map fun r => .notice .returned r.point) (p.abortOut n c) ∧
        (p.abortOut n c).queue = { s.part.queue with records := s.part.queue.records.map fun z => if z ∈ rs then z.back else z } :=
      fun p hreads => by
        by_cases hcomplete : c.complete = true
        · have hnil : rs = [] := List.map_eq_nil_iff.mp (hc.1.trans (Call.complete_undelivered hcomplete))
          rw [Part.abortOut, if_pos hcomplete, hnil, hreads.queue]
          exact ⟨p.makes_refl, by simp⟩
        · have hspec := Part.interruptCall_spec (p := p) (by rw [hreads.queue]; exact hs.told) (by rw [hreads.queue]; exact hc)
            (by rw [hreads.queue]; exact halone) n .aborted
          rw [hreads.now, hreads.queue] at hspec
          rw [Part.abortOut, if_neg hcomplete]
          exact ⟨hspec.1, hspec.2.1⟩
    exact State.abortCalls_one (Q := fun q => q = { s.part.queue with
      records := s.part.queue.records.map fun z => if z ∈ rs then z.back else z }) hm hfree hcall hothers hout
  · have hr := Record.chained_eq_false hw hh
    by_cases hsense : x.sense = r.sense
    · obtain ⟨t, ht, hqueue, hwork, hlogs⟩ := State.abortCalls_one (tag := tag) (spare := spare) (Q := fun q => q.records =
          s.part.queue.records.filterMap fun z => if z = r then some (r.backFolded x) else if z = x then none else some z)
        hm hfree hcall hothers fun p hreads => by
          have hspec := Part.interruptCall_two (p := p) (c := c) (by rw [hreads.queue]; exact hs.told)
            (by rw [hreads.queue]; exact hrecords) hslots hr hx hsense n .aborted
          rw [hreads.now, hreads.queue] at hspec
          rw [Part.abortOut_of hslots]
          exact hspec
      exact ⟨t, ht, (if_pos hsense).mpr ⟨hqueue, hwork, hlogs⟩⟩
    · obtain ⟨t, ht, hqueue, -, -⟩ := State.abortCalls_one (tag := tag) (spare := spare) (Q := fun q => q.records =
          s.part.queue.records.map fun z => if z = r then r.back else z)
        hm hfree hcall hothers fun p hreads => by
          have hspec := Part.interruptCall_unmerged (p := p) (c := c) (later := [x]) (by rw [hreads.queue]; exact hs.told)
            (by rw [hreads.queue]; exact hrecords) hslots hr (by simpa using hx)
            (fun q hq => by rw [Queue.merged_two hq, if_neg fun h => hsense h.symm]) n .aborted
          rw [hreads.now, hreads.queue] at hspec
          rw [Part.abortOut_of hslots]
          exact hspec
      exact ⟨t, ht, (if_neg hsense).mpr hqueue⟩
  · have hr := Record.chained_eq_false hw hh
    by_cases hsense : x.sense = r.sense
    · obtain ⟨t, ht, hqueue, -, hlogs⟩ := State.abortCalls_one (tag := tag) (spare := spare) (Q := fun q => q.records =
          s.part.queue.records.filterMap fun z => if z = r then some (r.backFolded x) else if z = x then none else some z)
        hm hfree hcall hothers fun p hreads => by
          have hspec := Part.interruptCall_three_fold (p := p) (c := c) (by rw [hreads.queue]; exact hs.told)
            (by rw [hreads.queue]; exact hrecords) hslots hr hx hy hsense hxy n .aborted
          rw [hreads.now, hreads.queue] at hspec
          rw [Part.abortOut_of hslots]
          exact hspec
      exact ⟨t, ht, fun _ => ⟨hqueue, hlogs⟩, fun h => absurd (hsense.trans h.symm) hxy⟩
    by_cases hsense' : y.sense = r.sense
    · obtain ⟨t, ht, hqueue, hwork, hlogs⟩ := State.abortCalls_one (tag := tag) (spare := spare) (Q := fun q => q.records =
          s.part.queue.records.filterMap fun z => if z = r then some (r.backFoldedTwice y) else if z = x ∨ z = y then none else some z)
        hm hfree hcall hothers fun p hreads => by
          have hspec := Part.interruptCall_three_foldTwice (p := p) (c := c) (by rw [hreads.queue]; exact hs.told)
            (by rw [hreads.queue]; exact hrecords) hslots hr hx hy hsense' hxy n .aborted
          rw [hreads.now, hreads.queue, hreads.droppedLog] at hspec
          rw [Part.abortOut_of hslots]
          exact hspec
      exact ⟨t, ht, fun h => absurd h hsense, fun _ => ⟨hqueue, hwork, hlogs⟩⟩
    · obtain ⟨t, ht, -⟩ := State.abortCalls_lines (tag := tag) (spare := spare) hm hfree
      exact ⟨t, ht, fun h => absurd h hsense, fun h => absurd h hsense'⟩

end Sys2Proof.Machine
end

section
/-! PROOFS. The words LOAD takes (R33, R35). -/

namespace Sys2Proof.Machine

/-! ### The words LOAD reads -/

theorem windowWord_translationAt {i : Nat} (hi : i < 512) :
    windowWord (0x400 + i) = .translation (Fin.ofNat 256 (i / 2)) (Fin.ofNat 2 (i % 2)) := by
  simp only [windowWord]
  repeat rw [if_neg (by omega)]
  rw [if_pos (by omega), WindowWord.translation.injEq, Fin.ext_iff, Fin.ext_iff]
  simp only [Fin.val_ofNat]
  omega

/-- LOAD reads every word of its order before 015H, and 015H only at its end (R33). -/
theorem loadOffset_rank {i : Nat} (hi : i < 1471) : loadRank (loadOffset i) ≠ none ∧ loadOffset i ≠ 0x015 := by
  by_cases hconfig : i < 23
  · exact (by decide : ∀ i < 23, loadRank (loadOffset i) ≠ none ∧ loadOffset i ≠ 0x015) i hconfig
  · refine ⟨?_, ?_⟩
    · unfold loadOffset
      rw [if_neg (by omega), if_neg (by omega), if_neg (by omega), if_neg (by omega)]
      split
      · rw [show 0x050 + (i - 23) = virtualOffset ((i - 23) / 4) ((i - 23) % 4) by unfold virtualOffset; omega, loadRank,
          windowWord_virtual ⟨(i - 23) / 4, by omega⟩ ⟨(i - 23) % 4, by omega⟩]
        exact nofun
      split
      · rw [show 0x070 + (i - 55) = routeOffset ((i - 55) / 4) ((i - 55) % 4) by unfold routeOffset; omega, loadRank,
          windowWord_route ⟨(i - 55) / 4, by omega⟩ ⟨(i - 55) % 4, by omega⟩]
        exact nofun
      split
      · rw [loadRank, windowWord_directory ⟨(i - 119) / 9, by omega⟩ ⟨(i - 119) % 9, by omega⟩]
        exact nofun
      split
      · rw [loadRank, windowWord_translationAt (by omega)]
        exact nofun
      · rw [loadRank, windowWord_point ⟨(i - 703) / 3, by omega⟩ ⟨(i - 703) % 3, by omega⟩]
        exact nofun
    · unfold loadOffset directoryOffset pointOffset
      split_ifs <;> omega

theorem offset_of_windowWord_directory {off : Nat} {d : DestNo} {k : Fin 9} (h : windowWord off = .directory d k) :
    off = directoryOffset d.val k.val := by
  obtain ⟨hlo, hhi⟩ := bounds_of_windowWord_directory h
  have hoff : off = directoryOffset d.val (off - (0x0B0 + 16 * d.val)) := by
    unfold directoryOffset
    omega
  have hword := windowWord_directory d ⟨off - (0x0B0 + 16 * d.val), by omega⟩
  rw [← hoff, h, WindowWord.directory.injEq] at hword
  rw [hword.2]
  exact hoff

/-! ### A word taken -/

/-- A word without a part-owned field as LOAD takes it: validity is judged at w8 of a directory entry (R25, R33). -/
def Part.loadMirrored (off : Nat) (w : Word) (p : Part) : Part :=
  match windowWord off with
  | .directory d k => if k.val = 8 then (p.setMirror off w).judgeValid d else p.setMirror off w
  | .config _ | .group _ | .virtual _ _ | .route _ _ | .log _ _ | .translation _ _ | .point _ _ | .ordinary =>
    p.setMirror off w

theorem Part.loadTake_plain {off : Nat} (howned : partOwned off = false) (w : Word) (p : Part) :
    p.loadTake off w = p.loadMirrored off w := by
  unfold Part.loadTake Part.loadMirrored
  cases hword : windowWord off with
  | config n =>
    simp only [partOwned, hword, ownedConfig] at howned
    exact if_neg fun h => of_decide_eq_false howned (by simp [h])
  | virtual v k =>
    simp only [partOwned, hword, decide_eq_false_iff_not] at howned
    simp [show k.val ≠ 2 by omega, show k.val ≠ 3 by omega]
  | route r k =>
    simp only [partOwned, hword, decide_eq_false_iff_not] at howned
    simp [show k.val ≠ 2 by omega, show k.val ≠ 3 by omega]
  | point i k =>
    simp only [partOwned, hword, decide_eq_false_iff_not] at howned
    simp [show k.val ≠ 1 by omega, show k.val ≠ 2 by omega]
  | group g | directory d k | log k i | translation i k | ordinary => rfl

theorem Part.loadMirrored_keeps (off : Nat) (w : Word) (p : Part) : p.keepsBut [.mirrors] (p.loadMirrored off w) := by
  unfold Part.loadMirrored
  split
  · split
    · exact Part.keepsBut_trans (Part.setMirror_keeps off w p) (by
        intro b hb
        cases b <;> simp [Block.same, Part.judgeValid] at hb ⊢)
    · exact Part.setMirror_keeps off w p
  all_goals exact Part.setMirror_keeps off w p

theorem Part.loadMirrored_mirrors (off : Nat) (w : Word) (p : Part) : (p.loadMirrored off w).mirrors =
    { (p.setMirror off w).mirrors with valid := (p.loadMirrored off w).mirrors.valid } := by
  unfold Part.loadMirrored
  split
  · split <;> rfl
  all_goals rfl

theorem Part.loadMirrored_valid (off : Nat) (w : Word) (p : Part) (d : DestNo) : (p.loadMirrored off w).mirrors.valid[d] =
    if off = directoryOffset d.val 8 then (p.loadMirrored off w).entryValid d else p.mirrors.valid[d] := by
  have hwords : (p.loadMirrored off w).mirrors.words = (p.setMirror off w).mirrors.words := by
    rw [Part.loadMirrored_mirrors]
  rw [Part.entryValid_of_words hwords]
  by_cases hoff : off = directoryOffset d.val 8
  · have hword : windowWord off = .directory d 8 := by
      rw [hoff]
      exact windowWord_directory d 8
    rw [if_pos hoff]
    simp [Part.loadMirrored, hword, Part.judgeValid]
  · rw [if_neg hoff]
    cases hword : windowWord off with
    | directory e k =>
      by_cases hk : k.val = 8
      · have hne : e.val ≠ d.val := fun heq => hoff (by
          rw [offset_of_windowWord_directory hword, hk, heq])
        simp [Part.loadMirrored, hword, hk, Part.judgeValid, hne, Part.setMirror]
      · simp [Part.loadMirrored, hword, hk, Part.setMirror]
    | config n | group g | virtual v k | route r k | log k i | translation i k | point i k | ordinary =>
      simp [Part.loadMirrored, hword, Part.setMirror]

/-- LOAD takes w2 of a route: the budget field into the route, the rest into the mirror (R33, R96). -/
theorem Part.loadTake_budget (r : RouteNo) (w : Word) (p : Part) : p.loadTake (routeOffset r.val 2) w =
    (p.setMirror (routeOffset r.val 2) w).setRoute r { p.route r with budget := budgetField w } := by
  simp [Part.loadTake, windowWord_budget]

theorem Part.loadTake_routeState (r : RouteNo) (w : Word) (p : Part) : p.loadTake (routeOffset r.val 3) w =
    p.setRoute r { p.route r with
      accessed := bit w 0, lastLeg := if bit w 1 then .backup else .primary
      spent := bit w 2 && !(p.route r).clearKept, clearKept := false } := by
  simp [Part.loadTake, windowWord_routeState]

/-- The report status and the delivered sense and fold of a shadow entry as LOAD takes them (R33). -/
def Shadow.loadStatus (status : BitVec 3) (sense : BitVec 2) (fold : BitVec 4) (v : Shadow) : Shadow :=
  { v with status, delivered := { sense, fold, code := 0 } }

/-- The delivered code of a shadow entry as LOAD takes it, with the correction of R35. -/
def Shadow.loadCode (code : BitVec 10) (v : Shadow) : Shadow :=
  { v with delivered := Delivered.loaded v.delivered.sense v.delivered.fold code }

theorem Delivered.corrected_eq (sense : BitVec 2) (fold : BitVec 4) (code : BitVec 10) :
    ({ sense, fold, code } : Delivered).corrected = Delivered.loaded sense fold code := by
  have hfold : 9 < fold ↔ 9 < fold.toNat := by simp [BitVec.lt_def]
  have hcode : 999 < code ↔ 999 < code.toNat := by simp [BitVec.lt_def]
  unfold Delivered.corrected Delivered.loaded
  simp only [hfold, hcode]
  by_cases hbad : sense = 3 ∨ 9 < fold.toNat ∨ 999 < code.toNat
  · rw [if_pos hbad, if_pos (by tauto)]
  · rw [if_neg hbad]
    by_cases hzero : sense = 0
    · rw [if_pos hzero, if_pos (by tauto), hzero]
    · rw [if_neg hzero, if_neg (by tauto)]

theorem Part.loadTake_entryW1 {i : PointNo} (hi : i.val < 256) (w : Word) (p : Part) : p.loadTake (pointOffset i.val 1) w =
    p.onShadow i fun v =>
      { v.loadStatus (w.extractLsb' 1 3) (w.extractLsb' 4 2) (w.extractLsb' 6 4) with isolated := bit w 0 } := by
  have hword : windowWord (pointOffset i.val 1) = .point ⟨i.val, hi⟩ 1 := windowWord_point ⟨i.val, hi⟩ 1
  simp [Part.loadTake, hword, Shadow.loadStatus]

theorem Part.loadTake_entryW2 {i : PointNo} (hi : i.val < 256) (w : Word) (p : Part) : p.loadTake (pointOffset i.val 2) w =
    p.onShadow i (Shadow.loadCode (w.extractLsb' 0 10)) := by
  have hword : windowWord (pointOffset i.val 2) = .point ⟨i.val, hi⟩ 2 := windowWord_point ⟨i.val, hi⟩ 2
  simp [Part.loadTake, hword, Shadow.loadCode, Delivered.corrected_eq, Part.onShadow]

theorem virtual_ofNat {i : PointNo} (hi : 256 ≤ i.val) : Fin.ofNat 264 (256 + (i.val - 256)) = i := by
  rw [Fin.ext_iff, Fin.val_ofNat]
  omega

theorem Part.loadTake_virtualW2 {i : PointNo} (hi : 256 ≤ i.val) (w : Word) (p : Part) :
    p.loadTake (virtualOffset (i.val - 256) 2) w =
      p.onShadow i (Shadow.loadStatus (w.extractLsb' 0 3) (w.extractLsb' 3 2) (w.extractLsb' 5 4)) := by
  have hword : windowWord (virtualOffset (i.val - 256) 2) = _ := windowWord_virtualPoint 2
  have hpoint := virtual_ofNat hi
  simp only [Part.loadTake, hword, hpoint]
  rfl

theorem Part.loadTake_virtualW3 {i : PointNo} (hi : 256 ≤ i.val) (w : Word) (p : Part) :
    p.loadTake (virtualOffset (i.val - 256) 3) w = p.onShadow i (Shadow.loadCode (w.extractLsb' 0 10)) := by
  have hword : windowWord (virtualOffset (i.val - 256) 3) = _ := windowWord_virtualPoint 3
  have hpoint := virtual_ofNat hi
  simp only [Part.loadTake, hword, hpoint]
  exact congrArg (fun v => p.setShadow i { p.shadow i with delivered := v }) (Delivered.corrected_eq _ _ _)

/-- A word LOAD takes but 015H: its mirror, or the shadow entry or the route it belongs to (R33). -/
structure Part.loadsWord (off : Nat) (p q : Part) : Prop where
  keeps : p.keepsBut [.mirrors, .points, .routes] q
  load : q.mirrors.load = p.mirrors.load
  mirror : ∀ a, a ≠ off → q.mirror a = p.mirror a
  latch : q.points.latch = p.points.latch
  valid : ∀ d : DestNo, q.mirrors.valid[d] = if off = directoryOffset d.val 8 then q.entryValid d else p.mirrors.valid[d]

theorem Part.loadsWord_of_owned {off : Nat} {p q : Part} (howned : partOwned off = true)
    (hkeeps : p.keepsBut [.mirrors, .points, .routes] q) (hload : q.mirrors.load = p.mirrors.load)
    (hvalid : q.mirrors.valid = p.mirrors.valid) (hmirror : ∀ a, a ≠ off → q.mirror a = p.mirror a)
    (hlatch : q.points.latch = p.points.latch) : p.loadsWord off q := by
  refine ⟨hkeeps, hload, hmirror, hlatch, fun d => ?_⟩
  have hne : off ≠ directoryOffset d.val 8 := fun heq => by
    have hword : windowWord off = .directory d 8 := by
      rw [heq]
      exact windowWord_directory d 8
    simp [partOwned, hword] at howned
  rw [if_neg hne, hvalid]

theorem Part.loadsWord_onShadow {off : Nat} (howned : partOwned off = true) (i : PointNo) (f : Shadow → Shadow) (p : Part) :
    p.loadsWord off (p.onShadow i f) :=
  Part.loadsWord_of_owned howned (Part.keepsBut_mono (Part.onShadow_keeps i f p) (by simp)) rfl rfl (fun _ _ => rfl) rfl

theorem Part.loadTake_loadsWord {p : Part} (hwords : p.mirrors.words.wf = true) {off : Nat} (hoff : off ≠ 0x015) (w : Word) :
    p.loadsWord off (p.loadTake off w) := by
  have hset : ∀ a, a ≠ off → (p.setMirror off w).mirror a = p.mirror a := fun a ha => by
    rw [Part.mirror_setMirror hwords, if_neg ha]
  cases howned : partOwned off with
  | false =>
    rw [Part.loadTake_plain howned]
    have hmirrors := p.loadMirrored_mirrors off w
    exact ⟨Part.keepsBut_mono (p.loadMirrored_keeps off w) (by simp), by rw [hmirrors]; rfl,
      fun a ha => (Part.mirror_of_words (by rw [hmirrors]) a).trans (hset a ha),
      by rw [(p.loadMirrored_keeps off w).points], p.loadMirrored_valid off w⟩
  | true =>
    have hmirrored : p.loadsWord off (p.setMirror off w) :=
      Part.loadsWord_of_owned howned (Part.keepsBut_mono (Part.setMirror_keeps off w p) (by simp)) rfl rfl hset rfl
    have hroute : ∀ r v, p.loadsWord off (p.setRoute r v) ∧ p.loadsWord off ((p.setMirror off w).setRoute r v) := fun r v =>
      ⟨Part.loadsWord_of_owned howned (Part.keepsBut_mono (Part.setRoute_keeps r v p) (by simp)) rfl rfl
          (fun _ _ => rfl) rfl,
        Part.loadsWord_of_owned howned (Part.keepsBut_trans hmirrored.keeps
          (Part.keepsBut_mono (Part.setRoute_keeps r v _) (by simp))) rfl rfl hset rfl⟩
    unfold Part.loadTake
    cases hword : windowWord off with
    | config n =>
      have hn : n.val ≠ 0x15 := fun h => hoff (by rw [offset_of_windowWord_config hword, h])
      simp only [if_neg hn]
      exact hmirrored
    | virtual v k =>
      simp only
      split
      · exact Part.loadsWord_onShadow howned _ _ p
      · split
        · exact Part.loadsWord_onShadow howned _ _ p
        · exact hmirrored
    | route r k =>
      simp only
      split
      · exact (hroute r _).2
      · split
        · exact (hroute r _).1
        · exact hmirrored
    | point i k =>
      simp only
      split
      · exact Part.loadsWord_onShadow howned _ _ p
      · split
        · exact Part.loadsWord_onShadow howned _ _ p
        · exact hmirrored
    | group g | directory d k | translation i k | ordinary => simp [partOwned, hword] at howned
    | log k i => exact hmirrored

/-! ### A read of LOAD that goes on -/

/-- The configuration check reads the first 16 mirrors (R34). -/
theorem Part.configOk_of_mirrors {p q : Part} (h : ∀ a, a < 16 → q.mirror a = p.mirror a) : q.configOk = p.configOk := by
  have hmap : (List.range 16).map q.mirror = (List.range 16).map p.mirror :=
    List.map_congr_left fun a ha => h a (List.mem_range.mp ha)
  simp only [Part.configOk, hmap, h 0 (by decide)]

theorem State.loadRead_eq {s : State} {l : Load} (hm : s.part.mode = .loading) (hstaging : s.part.bus.staging = [])
    (hwbq : s.part.bus.wbq = []) (hl : s.part.mirrors.load = some l) : s.loadRead = { s with
      part := Part.settle s.part (s.part.loadStep s.mem (s.windowMem (loadOffset l.next))) } := by
  have hread : (decide (s.part.mode = .loading) && s.part.bus.mayRead) = true := by
    simp [hm, Bus.mayRead, hstaging, hwbq]
  have hlive : s.part.mode.live = true := by
    rw [hm]
    rfl
  simp only [State.loadRead, hread, hl, Part.work_of_live hlive]

/-- LOAD has read one word more. -/
def Part.loadOn (l : Load) (p : Part) : Part :=
  { p with mirrors := { p.mirrors with load := some { l with next := l.next + 1 } } }

theorem Part.loadOn_keeps (l : Load) (p : Part) : p.keepsBut [.mirrors] (p.loadOn l) := by
  intro b hb
  cases b <;> simp [Block.same, Part.loadOn] at hb ⊢

/-- A word of a shadow entry that LOAD takes changes that entry alone. -/
theorem Part.loadOn_onShadow {p q : Part} {i : PointNo} {f : Shadow → Shadow} (h : q = p.onShadow i f) (l : Load) :
    (q.loadOn l).routes = p.routes ∧ p.keepsOtherShadows i (q.loadOn l) ∧ (q.loadOn l).shadow i = f (p.shadow i) := by
  subst h
  exact ⟨rfl, fun _ hj => Part.shadow_onShadow_ne hj f p, Part.shadow_onShadow i f p⟩

theorem Part.loadStep_of {p : Part} {l : Load} (hl : p.mirrors.load = some l) (hwords : p.mirrors.words.wf = true)
    (hlast : l.next + 1 < Config.loadReads) (hcheck : l.next + 1 = Config.checkReads → p.configOk = true) (mem : Memory)
    (w : Word) : p.loadStep mem w = Part.loadOn l (p.loadTake (loadOffset l.next) w) := by
  have hfirst : l.next < 1471 := by
    have hreads : Config.loadReads = 1472 := rfl
    omega
  have htaken := Part.loadTake_loadsWord hwords (loadOffset_rank hfirst).2 w
  have hok : l.next + 1 = Config.checkReads → (Part.loadOn l (p.loadTake (loadOffset l.next) w)).configOk = true := by
    intro hnext
    refine (Part.configOk_of_mirrors fun a ha => htaken.mirror a ?_).trans (hcheck hnext)
    have hread : l.next = 22 := by
      have hreads : Config.checkReads = 23 := rfl
      omega
    rw [hread]
    exact fun h => absurd (h ▸ ha) (by decide)
  unfold Part.loadStep
  simp only [hl]
  rw [if_neg, if_neg (by omega)] <;> [rfl; skip]
  rintro ⟨hnext, hbad⟩
  exact absurd ((hok hnext).symm.trans ((Bool.not_eq_true' _).mp hbad)) (by decide)

theorem State.loadRead_on {s : State} {l : Load} (hm : s.part.mode = .loading) (hstaging : s.part.bus.staging = [])
    (hwbq : s.part.bus.wbq = []) (hl : s.part.mirrors.load = some l) (hwords : s.part.mirrors.words.wf = true)
    (hcur : s.part.troubleCurrent) (hlast : l.next + 1 < Config.loadReads)
    (hcheck : l.next + 1 = Config.checkReads → s.part.configOk = true) : s.loadRead = { s with
      part := Part.loadOn l (s.part.loadTake (loadOffset l.next) (s.windowMem (loadOffset l.next))) } := by
  have hfirst : l.next < 1471 := by
    have hreads : Config.loadReads = 1472 := rfl
    omega
  rw [State.loadRead_eq hm hstaging hwbq hl, Part.loadStep_of hl hwords hlast hcheck]
  generalize s.windowMem (loadOffset l.next) = w
  have htaken := Part.loadTake_loadsWord hwords (loadOffset_rank hfirst).2 w
  generalize s.part.loadTake (loadOffset l.next) w = q at htaken
  refine congrArg (fun p => { s with part := p }) ?_
  have hkeeps := htaken.keeps
  have hmode : (Part.loadOn l q).mode = .loading := hkeeps.mode.trans hm
  have hnotice : (Part.loadOn l q).notice = s.part.notice := hkeeps.notice
  refine Part.settle_of_current ?_ ?_
  · rw [hnotice]
    refine (Part.troubleDue_congr (hmode.trans hm.symm) ?_ ?_ ?_ htaken.latch).trans hcur
    · exact congrArg Queue.held hkeeps.queue
    · exact fun n => congrArg (fun ls : Vector Line 4 => ls[n].state) hkeeps.lines
    · exact congrArg Heartbeat.silent hkeeps.heartbeat
  · simp only [Part.statusWord, hmode, hm, hnotice]

/-- Settles O22: a read of LOAD that goes on changes what `Part.loadTake` changes. -/
theorem loadReadTakesTheNextWord : Obligations.LoadReadTakesTheNextWord := by
  intro l s hm hstaging hwbq hl hwords hcur hlast hcheck
  have hfirst : l.next < 1471 := by
    have hreads : Config.loadReads = 1472 := rfl
    omega
  obtain ⟨hrank, hne⟩ := loadOffset_rank hfirst
  have hread := State.loadRead_on hm hstaging hwbq hl hwords hcur hlast hcheck
  refine ⟨_, congrArg Host.Outcome.next hread, ?_⟩
  dsimp only
  have htaken := Part.loadTake_loadsWord hwords hne (s.windowMem (loadOffset l.next))
  generalize loadOffset l.next = off at *
  generalize s.windowMem off = w at *
  have hmask := fun howned => mirrorMask_of_loaded hrank (off := off) howned
  refine ⟨⟨rfl, rfl, rfl, ?_⟩, rfl, htaken.mirror, fun howned => ?_, fun d => ?_, ?_, ?_, fun i => ⟨?_, ?_, ?_⟩⟩
  · exact Part.keepsBut_trans htaken.keeps (Part.keepsBut_mono (Part.loadOn_keeps l _) (by simp))
  · have hkeeps : s.part.keepsBut [.mirrors] (s.part.loadTake off w) := by
      rw [Part.loadTake_plain howned]
      exact s.part.loadMirrored_keeps off w
    refine ⟨?_, hkeeps.points, hkeeps.routes⟩
    have hwords' : (s.part.loadTake off w).mirrors.words = (s.part.setMirror off w).mirrors.words := by
      rw [Part.loadTake_plain howned, Part.loadMirrored_mirrors]
    exact (Part.mirror_of_words hwords' off).trans (Part.mirror_setMirror_same hwords w (hmask howned))
  · exact htaken.valid d
  · rintro r rfl
    have htake := s.part.loadTake_budget r w
    generalize s.part.loadTake (routeOffset r.val 2) w = q at *
    subst htake
    refine ⟨?_, rfl, fun k hk => Part.route_setRoute_ne hk _ _, Part.route_setRoute _ _ _⟩
    exact (Part.mirror_setMirror hwords _ _ _).trans (by simp [mirrorMask, windowWord_budget])
  · rintro r rfl
    have htake := s.part.loadTake_routeState r w
    generalize s.part.loadTake (routeOffset r.val 3) w = q at *
    subst htake
    exact ⟨rfl, fun k hk => Part.route_setRoute_ne hk _ _, Part.route_setRoute _ _ _⟩
  · rintro ⟨hi, rfl⟩
    exact Part.loadOn_onShadow (s.part.loadTake_entryW1 hi w) l
  · rintro ⟨hi, rfl⟩
    exact Part.loadOn_onShadow (Part.loadTake_virtualW2 hi w s.part) l
  · rintro (⟨hi, rfl⟩ | ⟨hi, rfl⟩)
    · exact Part.loadOn_onShadow (Part.loadTake_entryW2 hi w s.part) l
    · exact Part.loadOn_onShadow (Part.loadTake_virtualW3 hi w s.part) l

end Sys2Proof.Machine
end

section
/-! PROOFS. A configuration check that fails (R32, R34, R178). -/

namespace Sys2Proof.Machine

/-! ### The entry to UNCONFIGURED -/

theorem Part.dropCalls_keeps (p : Part) : p.keepsBut [.bus, .lines, .arbiter] p.dropCalls :=
  Part.keepsBut_foldl (fun q n => by
    split
    · exact Part.moveLine_keeps n Line.toRelease q
    · exact Part.keepsBut_refl _ q) _ p

theorem Part.dropLines_line {l : List LineNo} (hl : l.Nodup) (p : Part) (m : LineNo) :
    (l.foldl (fun q n => if (q.line n).call.isSome then q.moveLine n Line.toRelease else q) p).line m =
      if m ∈ l ∧ (p.line m).call.isSome = true then (p.line m).toRelease else p.line m := by
  induction l generalizing p with
  | nil => simp
  | cons n l ih =>
    obtain ⟨hnew, hl'⟩ := List.nodup_cons.mp hl
    have hline : ∀ k, (if (p.line n).call.isSome then p.moveLine n Line.toRelease else p).line k =
        if k = n ∧ (p.line n).call.isSome = true then (p.line n).toRelease else p.line k := fun k => by
      split
      · rename_i hcall
        rw [Part.line_moveLine_eq]
        simp [hcall]
      · rename_i hcall
        simp [hcall]
    rw [List.foldl_cons, ih hl', hline]
    by_cases hm : m = n
    · subst hm
      by_cases hcall : (p.line m).call.isSome = true <;> simp [hnew, hcall]
    · simp [hm]

/-- Every call is dropped and its line goes to its guard (R32). -/
theorem Part.dropCalls_line (p : Part) (n : LineNo) : p.dropCalls.line n =
    if (p.line n).call.isSome = true then (p.line n).toRelease else p.line n := by
  refine (Part.dropLines_line (List.nodup_finRange 4) p n).trans ?_
  simp only [List.mem_finRange, true_and]

theorem Part.dropped_keeps (p : Part) : p.keepsBut [.bus, .lines, .arbiter, .queue] p.dropped :=
  Part.keepsBut_trans (Part.keepsBut_mono p.dropCalls_keeps (by simp))
    (Part.keepsBut_trans (Part.keepsBut_mono (Part.setRecords_keeps [] _) (by simp))
      (Part.keepsBut_mono (Part.enterAll_keeps _ _ _) (by simp)))

theorem Part.dropped_records (p : Part) : p.dropped.queue.records = [] := by
  rw [Part.dropped, Part.enterAll_queue, Part.setRecords_records]

theorem Part.enterUnconfigured_notice (p : Part) : p.enterUnconfigured.notice =
    { p.notice with heads := p.notice.heads.map fun h => { h with alloc := h.shown } } := by
  have hnotice : p.enterUnconfigured.notice =
      { p.dropped.notice with heads := p.dropped.notice.heads.map fun h => { h with alloc := h.shown } } := by
    simp only [Part.enterUnconfigured, Part.dropped]
  rw [hnotice, p.dropped_keeps.notice]

theorem Part.enterUnconfigured_line (p : Part) (n : LineNo) : p.enterUnconfigured.line n =
    if (p.line n).call.isSome = true then (p.line n).toRelease else p.line n := by
  have hlines : p.enterUnconfigured.lines = p.dropCalls.lines := by
    have hdropped : p.enterUnconfigured.lines = p.dropped.lines := by simp only [Part.enterUnconfigured, Part.dropped]
    rw [hdropped, Part.dropped, Part.enterAll_lines, Part.setRecords_lines]
  rw [Part.line_of_lines hlines, Part.dropCalls_line]

/-- The mirror of 014H outlives the entry to UNCONFIGURED (R27). -/
theorem Part.enterUnconfigured_causeEnable (p : Part) : p.enterUnconfigured.causeEnable = p.causeEnable := by
  have hmirror : p.dropped.mirror = p.mirror := funext (Part.mirror_of_mirrors p.dropped_keeps.mirrors)
  have hempty : Memory.wf [] = true := rfl
  have h₁ := Memory.wf_write 0x010 (p.mirror 0x010) hempty
  have h₂ := Memory.wf_write 0x011 (p.mirror 0x011) h₁
  simp only [Part.causeEnable]
  rw [Part.mirror, Part.enterUnconfigured_mirrors, hmirror]
  simp only [List.foldl_cons, List.foldl_nil]
  rw [Memory.read_write h₂]

/-! ### A result outside STOPPED and RUNNING -/

/-- A command that ends outside STOPPED and RUNNING makes no log record (R169, R176). -/
theorem Part.complete_unserved {p : Part} {c : Command} (hm : p.mode.serving = false) (hc : p.notice.inProgress = some c)
    (st : ResultStatus) : p.complete st = Part.raise .command (p.ended.setResult c.tag st) := by
  have hmade : ∀ (r : LogRecord) (q : Part), q.mode.serving = false → q.makeLog r = q := fun r q hq => by
    simp only [Part.makeLog, hq]
  simp only [Part.complete, hc, Part.finalResult, Part.logNow]
  exact hmade _ _ (by simpa using hm)

theorem Part.complete_ended (st : ResultStatus) (p : Part) : (p.complete st).notice.inProgress = none := by
  cases hc : p.notice.inProgress with
  | none => rw [Part.complete_none hc, hc]
  | some c => exact (Part.complete_answered hc st).2

/-- A cause where it is enabled, by its bit (R173). -/
def Part.enabledBits (p : Part) (c : Cause) : BitVec 10 := if p.causeEnable.getLsbD c.index then c.bits else 0

theorem Part.raise_causes_or (c : Cause) (p : Part) : (p.raise c).notice.causes = p.notice.causes ||| p.enabledBits c := by
  rw [Part.raise_causes, Part.enabledBits]
  split <;> simp

theorem Part.enabledBits_of_mirrors {p q : Part} (h : q.mirrors = p.mirrors) (c : Cause) : q.enabledBits c = p.enabledBits c := by
  have henable : q.causeEnable = p.causeEnable := by rw [Part.causeEnable, Part.causeEnable, Part.mirror_of_mirrors h]
  rw [Part.enabledBits, Part.enabledBits, henable]

/-- The causes and the result of a command that ends outside STOPPED and RUNNING. -/
theorem Part.complete_unserved_notice {p : Part} {c : Command} (hm : p.mode.serving = false)
    (hc : p.notice.inProgress = some c) (st : ResultStatus) :
    (p.complete st).notice.causes = p.notice.causes ||| p.enabledBits .command ∧ (p.complete st).shows c.tag st := by
  rw [Part.complete_unserved hm hc]
  refine ⟨?_, ?_, ?_⟩
  · rw [Part.raise_causes_or, Part.setResult_notice]
    exact congrArg _ (Part.enabledBits_of_mirrors (by rw [Part.setResult_mirrors]; rfl) _)
  · rw [Part.raise_notice, Part.setResult_notice]
  · rw [Part.raise_notice, Part.setResult_notice]

/-! ### LOAD fails -/

/-- The causes are cleared, and 013H is entered when one was set (R34). -/
def Part.clearCauses (p : Part) : Part :=
  if p.notice.causes = 0 then p
  else Part.enter .noticeUnit 0x013 { p with notice := { p.notice with causes := 0 } }

theorem Part.clearCauses_keeps (p : Part) : p.keepsBut [.bus, .notice] p.clearCauses := by
  unfold Part.clearCauses
  intro b hb
  split <;> cases b <;> simp [Block.same] at hb ⊢

theorem Part.clearCauses_notice (p : Part) : p.clearCauses.notice = { p.notice with causes := 0 } := by
  unfold Part.clearCauses
  split
  · rename_i h
    rw [← h]
  · simp

theorem Part.loadFails_eq (k : LoadKind) (p : Part) :
    p.loadFails k = (p.enterUnconfigured.clearCauses.raise .loadfail).loadResult k := rfl

theorem Part.loadResult_keeps (k : LoadKind) (p : Part) : p.keepsBut [.bus, .notice] (p.loadResult k) := by
  cases k with
  | reload => exact Part.complete_keeps .done p
  | powerOn | xrst | restart =>
    intro b hb
    cases b <;> simp [Block.same, Part.loadResult] at hb ⊢

/-- A LOAD that does not answer a RELOAD ends with RESTARTED, with the tag of the command in progress or 0 (R178). -/
theorem Part.loadResult_notice {k : LoadKind} (hk : k ≠ .reload) (p : Part) : (p.loadResult k).notice =
    { p.notice with
      inProgress := none, resultTag := (p.notice.inProgress.map (·.tag)).getD 0, resultStatus := .restarted } := by
  cases k with
  | reload => exact absurd rfl hk
  | powerOn | xrst | restart =>
    cases hp : p.notice.inProgress with
    | none => simp [Part.loadResult, Part.setResult_notice, hp]
    | some c => simp [Part.loadResult, Part.setResult_notice, hp]

theorem Part.loadResult_ended (k : LoadKind) (p : Part) : (p.loadResult k).notice.inProgress = none := by
  by_cases hk : k = .reload
  · rw [hk]
    exact Part.complete_ended .done p
  · rw [Part.loadResult_notice hk]

/-- What every failed check leaves: UNCONFIGURED with nothing held (R32, R34). -/
structure Part.unconfiguredEmpty (p : Part) : Prop where
  mode : p.mode = .unconfigured
  load : p.mirrors.load = none
  reload : p.mirrors.reload = none
  records : p.queue.records = []
  points : p.points = Points.empty

theorem Part.enterUnconfigured_empty (p : Part) : p.enterUnconfigured.unconfiguredEmpty :=
  ⟨rfl, rfl, rfl, by rw [Part.enterUnconfigured_queue, Part.dropped_records], rfl⟩

theorem Part.unconfiguredEmpty.of_keeps {p q : Part} (h : p.unconfiguredEmpty) (hkeeps : p.keepsBut [.bus, .notice] q) :
    q.unconfiguredEmpty :=
  ⟨hkeeps.mode.trans h.mode, by rw [hkeeps.mirrors, h.load], by rw [hkeeps.mirrors, h.reload], by rw [hkeeps.queue, h.records],
    hkeeps.points.trans h.points⟩

/-- UNCONFIGURED shows a steady trouble (R166). -/
theorem Part.settle_unconfigured {p : Part} (hm : p.mode = .unconfigured) (old : Part) :
    (Part.settle old p).notice.trouble = .steady := by
  have hcur := Part.settle_current old p
  have hm' : (Part.settle old p).mode = .unconfigured := (Part.settle_mode old p).trans hm
  simp only [Part.troubleCurrent, Part.troubleDue, hm', if_true] at hcur
  exact hcur.symm

/-- The causes and the result of a LOAD that fails (R34, R178). -/
theorem Part.loadFails_spec (k : LoadKind) (p : Part) : (p.loadFails k).unconfiguredEmpty ∧
    (p.loadFails k).notice.inProgress = none ∧
    (k ≠ .reload → (p.loadFails k).notice.causes = p.enabledBits .loadfail ∧
      (p.loadFails k).shows ((p.notice.inProgress.map (·.tag)).getD 0) .restarted) ∧
    ∀ c, k = .reload → p.notice.inProgress = some c →
      (p.loadFails k).notice.causes = p.enabledBits .loadfail ||| p.enabledBits .command ∧ (p.loadFails k).shows c.tag .done := by
  rw [Part.loadFails_eq]
  have hraised := Part.raise_keeps .loadfail p.enterUnconfigured.clearCauses
  have hkeeps := Part.keepsBut_trans p.enterUnconfigured.clearCauses_keeps hraised
  have hbits : ∀ c, p.enterUnconfigured.clearCauses.enabledBits c = p.enabledBits c := fun c => by
    rw [Part.enabledBits_of_mirrors p.enterUnconfigured.clearCauses_keeps.mirrors, Part.enabledBits,
      p.enterUnconfigured_causeEnable, Part.enabledBits]
  have hcauses : (p.enterUnconfigured.clearCauses.raise .loadfail).notice.causes = p.enabledBits .loadfail := by
    rw [Part.raise_causes_or, Part.clearCauses_notice, hbits]
    simp
  have hprogress : (p.enterUnconfigured.clearCauses.raise .loadfail).notice.inProgress = p.notice.inProgress := by
    rw [Part.raise_notice, Part.clearCauses_notice, Part.enterUnconfigured_notice]
  have hcommand : (p.enterUnconfigured.clearCauses.raise .loadfail).enabledBits .command = p.enabledBits .command := by
    rw [Part.enabledBits_of_mirrors hraised.mirrors, hbits]
  have hempty := p.enterUnconfigured_empty.of_keeps hkeeps
  generalize p.enterUnconfigured.clearCauses.raise .loadfail = q at hcauses hprogress hcommand hempty
  refine ⟨hempty.of_keeps (q.loadResult_keeps k), q.loadResult_ended k, fun hk => ?_, fun c hk hc => ?_⟩
  · rw [Part.shows, Part.loadResult_notice hk, ← hprogress]
    exact ⟨hcauses, rfl, rfl⟩
  · subst hk
    obtain ⟨hgot, hshows⟩ := Part.complete_unserved_notice (by rw [hempty.mode]; rfl) (hprogress.trans hc) .done
    rw [hcauses, hcommand] at hgot
    exact ⟨hgot, hshows⟩

/-- The last read of step 1 does not change what the configuration check reads, the cause enables or the Notice Unit. -/
theorem Part.loadStep_fails {p : Part} {l : Load} (hl : p.mirrors.load = some l) (hlast : l.next = 22)
    (hwords : p.mirrors.words.wf = true) (hbad : p.configOk = false) (mem : Memory) (w : Word) :
    ∃ q : Part, p.loadStep mem w = q.loadFails l.kind ∧ q.notice = p.notice ∧ ∀ c, q.enabledBits c = p.enabledBits c := by
  have hoff : loadOffset l.next = 0x01F := by
    rw [hlast]
    decide
  have htaken := Part.loadTake_loadsWord hwords (off := loadOffset l.next) (by rw [hoff]; decide) w
  have hmirror : ∀ a, a ≠ 0x01F → (Part.loadOn l (p.loadTake (loadOffset l.next) w)).mirror a = p.mirror a :=
    fun a ha => htaken.mirror a (hoff ▸ ha)
  have hbad' : (Part.loadOn l (p.loadTake (loadOffset l.next) w)).configOk = false :=
    (Part.configOk_of_mirrors fun a ha => hmirror a (by omega)).trans hbad
  have hcheck : l.next + 1 = Config.checkReads := congrArg (· + 1) hlast
  have henable : (Part.loadOn l (p.loadTake (loadOffset l.next) w)).causeEnable = p.causeEnable := by
    rw [Part.causeEnable, hmirror 0x014 (by decide), Part.causeEnable]
  refine ⟨Part.loadOn l (p.loadTake (loadOffset l.next) w), ?_, htaken.keeps.notice, fun c => ?_⟩
  · unfold Part.loadStep
    simp only [hl]
    exact if_pos ⟨hcheck, (Bool.not_eq_true' _).mpr hbad'⟩
  · rw [Part.enabledBits, Part.enabledBits, henable]

/-- Settles O23: the last read of step 1, the failed check, the result. -/
theorem loadCheckFailureUnconfigures : Obligations.LoadCheckFailureUnconfigures := by
  intro k s hm hstaging hwbq hl hwords hbad
  have hread := State.loadRead_eq hm hstaging hwbq hl
  obtain ⟨q, hstep, hnotice, hbits⟩ := Part.loadStep_fails hl rfl hwords hbad s.mem (s.windowMem (loadOffset 22))
  obtain ⟨hempty, hended, hrestarted, hdone⟩ := q.loadFails_spec k
  dsimp only at hread
  rw [hstep] at hread
  rw [hnotice, hbits] at hrestarted
  rw [hnotice, hbits, hbits] at hdone
  generalize q.loadFails k = f at hread hempty hended hrestarted hdone
  have hsettled := hempty.of_keeps (Part.settle_keeps s.part f)
  obtain ⟨-, hcauses, hprogress, htag, hstatus⟩ := Part.settle_trouble s.part f
  refine ⟨_, congrArg Host.Outcome.next hread, rfl, rfl, rfl, hsettled.mode, hsettled.load, hsettled.records, hsettled.points,
    Part.settle_unconfigured hempty.mode _, hprogress.trans hended, fun hk => ?_, fun c hk hc => ?_⟩
  · obtain ⟨hgot, hshown, hresult⟩ := hrestarted hk
    exact ⟨hcauses.trans hgot, htag.trans hshown, hstatus.trans hresult⟩
  · obtain ⟨hgot, hshown, hresult⟩ := hdone c hk hc
    exact ⟨hcauses.trans hgot, htag.trans hshown, hstatus.trans hresult⟩

end Sys2Proof.Machine
end

section
/-! PROOFS. A read of RELOAD, and its check that fails (R32, R34, R37, R38). -/

namespace Sys2Proof.Machine

/-! ### The words RELOAD reads -/

theorem reloadOffset_config {k : Nat} (hk : k < 23) :
    ∃ n : Fin 32, reloadOffset k = n.val ∧ windowWord (reloadOffset k) = .config n ∧ mirrorMask (reloadOffset k) = 0xFFFF ∧
      partOwned (reloadOffset k) = false := by
  have hword : (∃ n : Fin 32, reloadOffset k = n.val) ∧ mirrorMask (reloadOffset k) = 0xFFFF ∧
      partOwned (reloadOffset k) = false :=
    (by decide : ∀ k < 23, (∃ n : Fin 32, reloadOffset k = n.val) ∧ mirrorMask (reloadOffset k) = 0xFFFF ∧
      partOwned (reloadOffset k) = false) k hk
  obtain ⟨⟨n, hn⟩, hmask, howned⟩ := hword
  exact ⟨n, hn, by rw [hn]; exact windowWord_config n, hmask, howned⟩

theorem reloadOffset_virtual {k : Nat} (hlo : 23 ≤ k) (hhi : k < 39) :
    ∃ (v : Fin 8) (w : Fin 4), w.val < 2 ∧ windowWord (reloadOffset k) = .virtual v w := by
  refine ⟨⟨(k - 23) / 2, by omega⟩, ⟨(k - 23) % 2, by omega⟩, Nat.mod_lt _ (by decide), ?_⟩
  rw [reloadOffset, if_neg (by omega), if_pos (by omega)]
  exact windowWord_virtual ⟨(k - 23) / 2, by omega⟩ ⟨(k - 23) % 2, by omega⟩

theorem reloadOffset_route {k : Nat} (hlo : 39 ≤ k) (hhi : k < 87) :
    ∃ (r : RouteNo) (w : Fin 4), w.val < 3 ∧ reloadOffset k = routeOffset r.val w.val := by
  refine ⟨⟨(k - 39) / 3, by omega⟩, ⟨(k - 39) % 3, by omega⟩, Nat.mod_lt _ (by decide), ?_⟩
  rw [reloadOffset, if_neg (by omega), if_neg (by omega), if_pos (by omega)]

theorem reloadOffset_directory {k : Nat} (hlo : 87 ≤ k) (hhi : k < 159) :
    ∃ (d : DestNo) (w : Fin 9), windowWord (reloadOffset k) = .directory d w := by
  refine ⟨⟨(k - 87) / 9, by omega⟩, ⟨(k - 87) % 9, by omega⟩, ?_⟩
  rw [reloadOffset, if_neg (by omega), if_neg (by omega), if_neg (by omega), if_pos (by omega)]
  exact windowWord_directory ⟨(k - 87) / 9, by omega⟩ ⟨(k - 87) % 9, by omega⟩

theorem reloadOffset_translation {k : Nat} (hlo : 159 ≤ k) (hhi : k < 671) :
    ∃ (i : Fin 256) (w : Fin 2), windowWord (reloadOffset k) = .translation i w := by
  rw [reloadOffset, if_neg (by omega), if_neg (by omega), if_neg (by omega), if_neg (by omega), if_pos (by omega)]
  exact ⟨_, _, windowWord_translationAt (by omega)⟩

theorem reloadOffset_point {k : Nat} (hlo : 671 ≤ k) : reloadOffset k = pointOffset (k - 671) 0 := by
  rw [reloadOffset, if_neg (by omega), if_neg (by omega), if_neg (by omega), if_neg (by omega), if_neg (by omega)]

/-! ### A read -/

/-- The RELOAD in progress replaced. -/
def Part.withReload (r : Option Reload) (p : Part) : Part := { p with mirrors := { p.mirrors with reload := r } }

theorem Part.withReload_keeps (r : Option Reload) (p : Part) : p.keepsBut [.mirrors] (p.withReload r) := by
  intro b hb
  cases b <;> simp [Block.same, Part.withReload] at hb ⊢

theorem State.reloadRead_eq {s : State} {k : Nat} (hm : s.part.mode.serving = true) (hstaging : s.part.bus.staging = [])
    (hwbq : s.part.bus.wbq = []) (hr : s.part.mirrors.reload = some { next := k, waiting := none }) :
    s.reloadRead = { s with
      part := Part.settle s.part (s.part.reloadStep (s.windowMem (reloadOffset k))) } := by
  have hread : s.part.bus.mayRead = true := by simp [Bus.mayRead, hstaging, hwbq]
  simp only [State.reloadRead, hread, hr, Part.serve_of_serving hm]

/-- A word that makes no capture, or one that finds a place, is taken (R37, R44). -/
theorem Part.reloadStep_taken {p : Part} {k : Nat} {w : Word} (hr : p.mirrors.reload = some { next := k, waiting := none })
    (h : (p.captures (reloadOffset k) w && !p.placeFor none p.bus.stalled) = false) :
    p.reloadStep w = (p.reloadTake (reloadOffset k) w).reloadNext (k + 1) := by
  unfold Part.reloadStep
  simp only [hr, h, Option.isSome_none, Bool.false_eq_true, if_false]

/-- The next read of RELOAD (R37). -/
theorem Part.reloadNext_of {p : Part} {k : Nat} (hcheck : k = Config.checkReads → p.configOk = true)
    (hlast : k ≠ Config.reloadReads) : p.reloadNext k = p.withReload (some { next := k, waiting := none }) := by
  have hok : (Part.withReload (some { next := k, waiting := none }) p).configOk = p.configOk := rfl
  have hbad : ¬ (k = Config.checkReads ∧
      (!(Part.withReload (some { next := k, waiting := none }) p).configOk) = true) := by
    rintro ⟨hk, hbad⟩
    rw [hok, hcheck hk] at hbad
    exact absurd hbad (by decide)
  unfold Part.reloadNext
  exact (if_neg hbad).trans (if_neg hlast)

theorem Part.configOk_withReload (r : Option Reload) (p : Part) : (p.withReload r).configOk = p.configOk := rfl

/-- The configuration check fails (R34). -/
theorem Part.reloadNext_fails {p : Part} {k : Nat} (hcheck : k = Config.checkReads) (hbad : p.configOk = false) :
    p.reloadNext k = (p.withReload (some { next := k, waiting := none })).reloadFails := by
  have hbad' : k = Config.checkReads ∧ (!(Part.withReload (some { next := k, waiting := none }) p).configOk) = true :=
    ⟨hcheck, by rw [Part.configOk_withReload, hbad]; rfl⟩
  unfold Part.reloadNext
  exact if_pos hbad'

/-! ### RELOAD fails -/

/-- What a failed check of RELOAD leaves (R32, R34, R173, R176). -/
theorem Part.reloadFails_spec {p : Part} {c : Command} (hc : p.notice.inProgress = some c) :
    p.reloadFails.unconfiguredEmpty ∧ p.reloadFails.bus.staging = [] ∧ p.reloadFails.notice.inProgress = none ∧
      p.reloadFails.shows c.tag .done ∧
      p.reloadFails.notice.causes = p.notice.causes ||| p.enabledBits .loadfail ||| p.enabledBits .command ∧
      ∀ n, p.reloadFails.line n = if (p.line n).call.isSome = true then (p.line n).toRelease else p.line n := by
  have hraised := Part.raise_keeps .loadfail p.enterUnconfigured
  have hnotice := Part.raise_notice .loadfail p.enterUnconfigured
  have hentries := Part.raise_entries .loadfail p.enterUnconfigured
  have hcauses := Part.raise_causes_or .loadfail p.enterUnconfigured
  have hbits : ∀ x, p.enterUnconfigured.enabledBits x = p.enabledBits x := fun x => by
    rw [Part.enabledBits, Part.enterUnconfigured_causeEnable, Part.enabledBits]
  have hempty := p.enterUnconfigured_empty.of_keeps hraised
  have hlines : ∀ n, (p.enterUnconfigured.raise .loadfail).line n = _ := fun n =>
    (Part.line_of_lines hraised.lines n).trans (p.enterUnconfigured_line n)
  have hstaging : (p.enterUnconfigured.raise .loadfail).bus.staging = [] := by
    rw [hentries.1, Part.enterUnconfigured_bus]
    rfl
  have hprogress : (p.enterUnconfigured.raise .loadfail).notice.inProgress = some c := by
    rw [hnotice, Part.enterUnconfigured_notice]
    exact hc
  have hcommand : (p.enterUnconfigured.raise .loadfail).enabledBits .command = p.enabledBits .command := by
    rw [Part.enabledBits_of_mirrors hraised.mirrors, hbits]
  have hcauses' : (p.enterUnconfigured.raise .loadfail).notice.causes = p.notice.causes ||| p.enabledBits .loadfail := by
    rw [hcauses, hbits, Part.enterUnconfigured_notice]
  unfold Part.reloadFails
  generalize p.enterUnconfigured.raise .loadfail = q at hempty hlines hstaging hprogress hcommand hcauses'
  have hunserved : q.mode.serving = false := by
    rw [hempty.mode]
    rfl
  have hkeeps := Part.complete_keeps .done q
  obtain ⟨hgot, hshows⟩ := Part.complete_unserved_notice hunserved hprogress .done
  refine ⟨hempty.of_keeps hkeeps, ?_, q.complete_ended .done, hshows, by rw [hgot, hcauses', hcommand], fun n =>
    (Part.line_of_lines hkeeps.lines n).trans (hlines n)⟩
  have hset : (q.ended.setResult c.tag .done).bus.staging = [] :=
    ((Part.enter_entries .noticeUnit 0x012 _).1).trans hstaging
  rw [Part.complete_unserved hunserved hprogress, (Part.raise_entries _ _).1, hset]

/-- The last read of step 1, where the check fails (R34, R38). -/
theorem State.reloadCheck_fails {s : State} (hm : s.part.mode.serving = true)
    (hstaging : s.part.bus.staging = []) (hwbq : s.part.bus.wbq = [])
    (hr : s.part.mirrors.reload = some { next := 22, waiting := none }) (hwords : s.part.mirrors.words.wf = true)
    (hbad : s.part.configOk = false) : ∃ q : Part,
      s.reloadRead = { s with part := Part.settle s.part q.reloadFails } ∧ q.notice = s.part.notice ∧
        q.lines = s.part.lines ∧ ∀ x, q.enabledBits x = s.part.enabledBits x := by
  have hread := State.reloadRead_eq hm hstaging hwbq hr
  generalize s.windowMem (reloadOffset 22) = w at hread
  have hoff : reloadOffset 22 = 0x01F := by decide
  have hplain : (windowWord 0x01F).isPlain := by
    rw [show windowWord 0x01F = .config 0x1F from windowWord_config 0x1F]
    exact (by decide : (0x1F : Fin 32).val ∈ [0x00, 0x01, 0x02, 0x0C, 0x0D, 0x0E, 0x0F, 0x11, 0x14, 0x16, 0x1D, 0x1E, 0x1F])
  have hcaptures : s.part.captures 0x01F w = false := by
    simp only [Part.captures, show windowWord 0x01F = .config 0x1F from windowWord_config 0x1F]
  have htake : s.part.reloadTake 0x01F w = s.part.setMirror 0x01F w := by
    rw [← Part.takeServing_of_isPlain hplain]
    simp [Part.reloadTake, show windowWord 0x01F = .config 0x1F from windowWord_config 0x1F]
  have hmirror : ∀ a, a ≠ 0x01F → (s.part.setMirror 0x01F w).mirror a = s.part.mirror a := fun a ha => by
    rw [Part.mirror_setMirror hwords, if_neg ha]
  have hbad' : (s.part.setMirror 0x01F w).configOk = false :=
    (Part.configOk_of_mirrors fun a ha => hmirror a (by omega)).trans hbad
  have henable : (s.part.setMirror 0x01F w).causeEnable = s.part.causeEnable := by
    rw [Part.causeEnable, hmirror 0x014 (by decide), Part.causeEnable]
  rw [Part.reloadStep_taken hr (by rw [hoff, hcaptures]; rfl), hoff, htake, Part.reloadNext_fails rfl hbad'] at hread
  refine ⟨_, hread, rfl, rfl, fun x => ?_⟩
  have henable' : (Part.withReload (some { next := 22 + 1, waiting := none }) (s.part.setMirror 0x01F w)).causeEnable =
    s.part.causeEnable := henable
  rw [Part.enabledBits, Part.enabledBits, henable']

end Sys2Proof.Machine
end

section
/-! PROOFS. The last read of RELOAD (R38, R70, R127). -/

namespace Sys2Proof.Machine

/-! ### Every enabled point OWED -/

/-- Points in the order of a list marked OWED where enabled (R38). -/
def Part.oweList (l : List PointNo) (p : Part) : Part :=
  l.foldl (fun q i => if q.pointEnabled i && decide (i.val < 263) then q.oweNow i else q) p

/-- Marking points OWED changes their shadow entries and the write-back queue. -/
structure Part.owes (p q : Part) : Prop where
  keeps : p.keepsBut [.bus, .points] q
  entries : p.bus.keepsButEntries q.bus
  points : q.points = { p.points with shadows := q.points.shadows }
  owed : ∀ j, (p.shadow j).owed = true → (q.shadow j).owed = true
  disabled : ∀ j, p.pointEnabled j = false → q.shadow j = p.shadow j

theorem Part.owes_refl (p : Part) : p.owes p :=
  ⟨Part.keepsBut_refl _ p, Bus.keepsButEntries_refl _, rfl, fun _ => id, fun _ _ => rfl⟩

theorem Part.owes.trans {p q r : Part} (h : p.owes q) (k : q.owes r) : p.owes r where
  keeps := Part.keepsBut_trans h.keeps k.keeps
  entries := Bus.keepsButEntries_trans h.entries k.entries
  points := by rw [k.points, h.points]
  owed j := k.owed j ∘ h.owed j
  disabled j hj := (k.disabled j ((Part.pointEnabled_of_mirrors h.keeps.mirrors j).trans hj)).trans (h.disabled j hj)

theorem Part.oweNow_owed {i : PointNo} (hi : i.val < 263) (p : Part) : ((p.oweNow i).shadow i).owed = true := by
  rw [Part.oweNow, Part.shadow_restatus, Part.setOwed, Part.shadow_onShadow]
  simp [hi]

theorem Part.oweOne_owes (i : PointNo) (p : Part) :
    p.owes (if p.pointEnabled i && decide (i.val < 263) then p.oweNow i else p) := by
  split
  · rename_i h
    obtain ⟨hen, hi⟩ : p.pointEnabled i = true ∧ i.val < 263 := by simpa using h
    obtain ⟨hkeeps, hentries, hothers, hpoints⟩ := Part.oweNow_touches i p
    refine ⟨hkeeps, hentries, hpoints, fun j hj => ?_, fun j hj => ?_⟩
    · by_cases hji : j = i
      · rw [hji]
        exact Part.oweNow_owed hi p
      · rw [hothers j hji, hj]
    · refine hothers j fun hji => ?_
      rw [hji, hen] at hj
      exact absurd hj (by decide)
  · exact p.owes_refl

theorem Part.oweList_owes (l : List PointNo) (p : Part) : p.owes (p.oweList l) ∧
    ∀ j ∈ l, p.pointEnabled j = true → j.val < 263 → ((p.oweList l).shadow j).owed = true := by
  induction l generalizing p with
  | nil => exact ⟨p.owes_refl, fun j hj => absurd hj (List.not_mem_nil)⟩
  | cons i l ih =>
    have hone := p.oweOne_owes i
    have hfirst : p.pointEnabled i = true → i.val < 263 →
        ((if p.pointEnabled i && decide (i.val < 263) then p.oweNow i else p).shadow i).owed = true := fun hen hi => by
      rw [if_pos (by simp [hen, hi])]
      exact Part.oweNow_owed hi p
    have hunfold : p.oweList (i :: l) =
        Part.oweList l (if p.pointEnabled i && decide (i.val < 263) then p.oweNow i else p) := rfl
    rw [hunfold]
    generalize (if p.pointEnabled i && decide (i.val < 263) then p.oweNow i else p) = q at hone hfirst
    obtain ⟨howes, howed⟩ := ih q
    refine ⟨hone.trans howes, fun j hj hen hj' => ?_⟩
    rcases List.mem_cons.mp hj with rfl | hj
    · exact howes.owed j (hfirst hen hj')
    · exact howed j hj ((Part.pointEnabled_of_mirrors hone.keeps.mirrors j).trans hen) hj'

theorem Part.oweAll_owes (p : Part) : p.owes p.oweAll ∧
    ∀ j, p.pointEnabled j = true → j.val < 263 → (p.oweAll.shadow j).owed = true := by
  obtain ⟨howes, howed⟩ := p.oweList_owes (List.finRange 264)
  exact ⟨howes, fun j => howed j (List.mem_finRange j)⟩

/-! ### RELOAD ends -/

/-- What the end of RELOAD does (R38, R70, R127, R176). -/
theorem Part.reloadEnds_spec {p : Part} {c : Command} (hc : p.notice.inProgress = some c) :
    p.keepsBut [.bus, .mirrors, .points, .queue, .arbiter, .notice] p.reloadEnds ∧
      p.reloadEnds.mirrors = { p.mirrors with reload := none } ∧ p.reloadEnds.notice.inProgress = none ∧
      p.answered c.code c.tag .done p.reloadEnds ∧ p.reloadEnds.arbiter.decisionPending = true ∧
      p.reloadEnds.points = { p.points with shadows := p.reloadEnds.points.shadows } ∧
      (∀ j, p.pointEnabled j = true → j.val < 263 → (p.reloadEnds.shadow j).owed = true) ∧
      (∀ j, p.pointEnabled j = false → p.reloadEnds.shadow j = p.shadow j) ∧
      p.reloadEnds.queue.records.map (·.id) = p.queue.records.map (·.id) := by
  have hunfold : p.reloadEnds = Part.occasion ((p.withReload none).oweAll.judgeUnrouted.complete .done) := rfl
  have hended := p.withReload_keeps none
  obtain ⟨howes, howed⟩ := (p.withReload none).oweAll_owes
  have henabled : ∀ j, (p.withReload none).pointEnabled j = p.pointEnabled j := fun _ => rfl
  obtain ⟨hjudge, -, hqueue, -⟩ := (p.withReload none).oweAll.judgeUnrouted_spec
  generalize hq : (p.withReload none).oweAll = q at *
  generalize hr : q.judgeUnrouted = r at *
  have hblocks := Part.keepsBut_trans (Part.keepsBut_mono howes.keeps (cs := [.bus, .points, .queue, .arbiter]) (by simp))
    (Part.keepsBut_mono hjudge (by simp))
  have hnotice : r.notice = p.notice := hblocks.notice.trans hended.notice
  have hmirrors : r.mirrors = { p.mirrors with reload := none } := hblocks.mirrors
  obtain ⟨hanswered, hdone⟩ := Part.complete_answered (p := r) (hnotice ▸ hc) .done
  have hcomplete := Part.complete_keeps .done r
  have hpoints : (Part.occasion (r.complete .done)).points = q.points :=
    (Part.complete_points .done r).trans hjudge.points
  have hshadow : ∀ j, (Part.occasion (r.complete .done)).shadow j = q.shadow j := fun j => Part.shadow_of_points hpoints j
  rw [hunfold]
  refine ⟨?_, hcomplete.mirrors.trans hmirrors, hdone, ?_, rfl, ?_, fun j hen hj => ?_, fun j hen => ?_, ?_⟩
  · exact Part.keepsBut_trans (Part.keepsBut_mono hended (by simp)) (Part.keepsBut_trans (Part.keepsBut_mono hblocks (by simp))
      (Part.keepsBut_trans (Part.keepsBut_mono hcomplete (by simp)) (Part.keepsBut_mono (Part.occasion_keeps _) (by simp))))
  · refine Part.answered_before (hblocks.mode.trans hended.mode) ?_ (by rw [hnotice]) hanswered
    simp only [Part.causeEnable, Part.mirror, hmirrors]
  · rw [hpoints]
    exact howes.points
  · rw [hshadow]
    exact howed j hen hj
  · rw [hshadow]
    exact howes.disabled j hen
  · have hrecords : (Part.occasion (r.complete .done)).queue = r.queue := Part.complete_queue .done r
    have hbefore : q.queue = p.queue := howes.keeps.queue
    rw [hrecords, hqueue, ← hbefore]
    split
    · simp [Queue.routed]
    · rfl

/-! ### The last word -/

/-- Nothing but the mirror of w0 of point 255 has changed, and there not the enabled field. -/
theorem Part.pointEnabled_of_last {p q : Part} (hothers : ∀ a, a ≠ pointOffset 255 0 → q.mirror a = p.mirror a)
    (hfield : enabledField (q.mirror (pointOffset 255 0)) = enabledField (p.mirror (pointOffset 255 0))) (i : PointNo) :
    q.pointEnabled i = p.pointEnabled i := by
  have hvirtual : q.virtualEnabled (virtualNo i) = p.virtualEnabled (virtualNo i) := by
    have hv : virtualOffset (virtualNo i) 0 ≠ pointOffset 255 0 := by
      unfold virtualOffset pointOffset virtualNo
      omega
    rw [Part.virtualEnabled, hothers _ hv, Part.virtualEnabled]
  have hreal : enabledField (q.mirror (pointOffset i.val 0)) = enabledField (p.mirror (pointOffset i.val 0)) := by
    by_cases hi : i.val = 255
    · rw [hi, hfield]
    · rw [hothers _ (by unfold pointOffset; omega)]
  rw [Part.pointEnabled, Part.pointEnabled, hvirtual, hreal]

/-- A write of w0 of a point that leaves its enabled field, and its state code where it is enabled, makes no capture (R43). -/
theorem Part.takeServing_pointSame {p : Part} {i : Fin 256} {w : Word}
    (henabled : enabledField (p.mirror (pointOffset i.val 0)) = enabledField w)
    (hcode : enabledField w = true → stateCodeField (p.mirror (pointOffset i.val 0)) = stateCodeField w) :
    p.takeServing (pointOffset i.val 0) w = p.setMirror (pointOffset i.val 0) w := by
  rw [Part.takeServing_point, Part.takePoint, henabled]
  cases hen : enabledField w with
  | false => rfl
  | true =>
    simp only [Bool.and_self, if_true]
    exact if_pos (hcode hen)

/-- The capture the last word makes, if any (R43). -/
def Part.lastCapture (p : Part) (w : Word) : List Capture :=
  if decide (stateCodeField (p.mirror (pointOffset 255 0)) ≠ stateCodeField w) && enabledField w then
    [{ point := 255, code := stateCodeField w }]
  else []

/-- The last word RELOAD takes: its mirror and its capture (R37, R43, R44). -/
theorem Part.takeServing_last {p : Part} {w : Word}
    (henabled : enabledField (p.mirror (pointOffset 255 0)) = enabledField w)
    (hplace : stateCodeField (p.mirror (pointOffset 255 0)) ≠ stateCodeField w → enabledField w = true →
      p.points.overrun = false ∧ p.points.fifo.length < Config.fifoPlaces) :
    p.takeServing (pointOffset 255 0) w = { p.setMirror (pointOffset 255 0) w with
      points := { p.points with fifo := p.points.fifo ++ p.lastCapture w } } := by
  have hsame : p.setMirror (pointOffset 255 0) w = { p.setMirror (pointOffset 255 0) w with
      points := { p.points with fifo := p.points.fifo ++ [] } } := by
    rw [List.append_nil]
    rfl
  cases hen : enabledField w with
  | false =>
    have htaken : p.takeServing (pointOffset 255 0) w = p.setMirror (pointOffset 255 0) w :=
      Part.takeServing_pointSame (i := 255) henabled fun h => absurd (hen.symm.trans h) (by decide)
    rw [htaken, Part.lastCapture, if_neg (by simp [hen])]
    exact hsame
  | true =>
    by_cases hcode : stateCodeField (p.mirror (pointOffset 255 0)) = stateCodeField w
    · have htaken : p.takeServing (pointOffset 255 0) w = p.setMirror (pointOffset 255 0) w :=
        Part.takeServing_pointSame (i := 255) henabled fun _ => hcode
      rw [htaken, Part.lastCapture, if_neg (by simp [hcode])]
      exact hsame
    · obtain ⟨hover, hfifo⟩ := hplace hcode hen
      rw [Part.lastCapture, if_pos (by simp [hcode, hen])]
      refine (Part.takeServing_capture (i := 255) (henabled.trans hen) hen hcode).trans ?_
      exact Part.capture_place (p := p.setMirror (pointOffset 255 0) w) hover hfifo _ _

theorem Part.captures_place {p : Part} {w : Word} (hhold : p.bus.hold = none)
    (hfifo : p.points.fifo.length < Config.fifoPlaces) :
    (p.captures (pointOffset 255 0) w && !p.placeFor none p.bus.stalled) = false := by
  simp [Part.placeFor, Bus.stalled, hhold, hfifo]

/-- The last read of RELOAD takes its word and ends it (R38). -/
theorem State.reloadRead_last {s : State} (hm : s.part.mode.serving = true) (hstaging : s.part.bus.staging = [])
    (hwbq : s.part.bus.wbq = []) (hr : s.part.mirrors.reload = some { next := 926, waiting := none })
    (hplace : stateCodeField (s.part.mirror (pointOffset 255 0)) ≠ stateCodeField (s.windowMem (pointOffset 255 0)) →
      enabledField (s.windowMem (pointOffset 255 0)) = true →
      s.part.bus.hold = none ∧ s.part.points.overrun = false ∧ s.part.points.fifo.length < Config.fifoPlaces) :
    s.reloadRead = { s with part := Part.settle s.part (Part.reloadEnds
      ((s.part.takeServing (pointOffset 255 0) (s.windowMem (pointOffset 255 0))).withReload
        (some { next := 927, waiting := none }))) } := by
  have hread := State.reloadRead_eq hm hstaging hwbq hr
  have hoff : reloadOffset 926 = pointOffset 255 0 := reloadOffset_point (k := 926) (by decide)
  rw [hoff] at hread
  generalize s.windowMem (pointOffset 255 0) = w at *
  have hword : windowWord (pointOffset 255 0) = .point 255 0 := windowWord_point 255 0
  have hcaptures : (s.part.captures (pointOffset 255 0) w && !s.part.placeFor none s.part.bus.stalled) = false := by
    by_cases hcapture : stateCodeField (s.part.mirror (pointOffset 255 0)) ≠ stateCodeField w ∧ enabledField w = true
    · obtain ⟨hhold, -, hfifo⟩ := hplace hcapture.1 hcapture.2
      exact Part.captures_place hhold hfifo
    · have hnone : s.part.captures (pointOffset 255 0) w = false := by
        rw [Part.captures, hword]
        simp only [Bool.and_eq_false_iff, decide_eq_false_iff_not]
        cases hen : enabledField w with
        | false => exact .inl (.inl (.inr rfl))
        | true => exact .inl (.inr fun hcode => hcapture ⟨hcode, hen⟩)
      rw [hnone, Bool.false_and]
  have htake : s.part.reloadTake (pointOffset 255 0) w = s.part.takeServing (pointOffset 255 0) w := by
    rw [Part.reloadTake, if_neg (by decide), hword]
  have hlast : ∀ p : Part, p.reloadNext 927 = (p.withReload (some { next := 927, waiting := none })).reloadEnds := fun p => by
    unfold Part.reloadNext
    exact (if_neg fun h => absurd h.1 (by decide)).trans (if_pos rfl)
  rw [Part.reloadStep_taken hr (by rw [hoff]; exact hcaptures), hoff, htake, hlast] at hread
  exact hread

/-- Settles O26: the end by `Part.reloadEnds_spec`, the failed check by `Part.reloadFails_spec`. -/
theorem reloadEndsInSweepOrUnconfigured : Obligations.ReloadEndsInSweepOrUnconfigured := by
  refine ⟨fun c h s hm hstaging hwbq hr hwords hc hh => ?_, fun c s hm hstaging hwbq hr hwords hc hbad => ?_⟩
  · dsimp only
    intro henabled hplace
    have hread := State.reloadRead_last hm hstaging hwbq hr fun hcode hen => hplace (by simpa using hcode) hen
    have htaken := Part.takeServing_last henabled fun hcode hen => (hplace (by simpa using hcode) hen).2
    generalize hq : (s.part.takeServing (pointOffset 255 0) (s.windowMem (pointOffset 255 0))).withReload
      (some { next := 927, waiting := none }) = q at hread
    have hmask : mirrorMask (pointOffset 255 0) = 0xFFFF := mirrorMask_pointEntry 255
    generalize s.windowMem (pointOffset 255 0) = w at *
    rw [htaken] at hq
    have hmirror : ∀ a, q.mirror a = if a = pointOffset 255 0 then w else s.part.mirror a := fun a => by
      have hand : w &&& mirrorMask (pointOffset 255 0) = w := by
        rw [hmask]
        exact BitVec.and_allOnes
      rw [← hq]
      exact (Part.mirror_setMirror hwords _ _ _).trans (by rw [hand])
    have hkeeps : s.part.keepsBut [.mirrors, .points] q := by
      rw [← hq]
      intro b hb
      cases b <;> simp [Block.same, Part.withReload] at hb ⊢
    have hpoints : q.points = { s.part.points with fifo := s.part.points.fifo ++ s.part.lastCapture w } := by
      rw [← hq]
      rfl
    have henabled' : ∀ i, q.pointEnabled i = s.part.pointEnabled i := Part.pointEnabled_of_last
      (fun a ha => by rw [hmirror, if_neg ha]) (by rw [hmirror, if_pos rfl, henabled])
    have henable : q.causeEnable = s.part.causeEnable := by
      rw [Part.causeEnable, hmirror, if_neg (by decide), Part.causeEnable]
    obtain ⟨hends, hmirrors, hended, hanswered, hpending, hrest, howed, hdisabled, hids⟩ :=
      Part.reloadEnds_spec (p := q) (hkeeps.notice ▸ hc)
    have hsettle := Part.settle_keeps s.part q.reloadEnds
    have hshadow : ∀ j, q.shadow j = s.part.shadow j := fun j => (congrArg (fun x : Points => x.shadows[j]) hpoints).trans rfl
    generalize q.reloadEnds = e at *
    obtain ⟨-, -, hprogress, -⟩ := Part.settle_trouble s.part e
    refine ⟨_, congrArg Host.Outcome.next hread, rfl, rfl, rfl, hsettle.mode.trans (hends.mode.trans hkeeps.mode), ?_,
      hprogress.trans hended, Part.answered_before hkeeps.mode henable (by rw [hkeeps.notice])
        (Part.answered_settle hanswered _), ?_, fun a => ?_, ?_, fun i hi hlt => ?_, fun i hi => ?_, ?_, ?_⟩
    · rw [hsettle.mirrors, hmirrors]
    · rw [hsettle.arbiter, hpending]
    · have hwords' : (Part.settle s.part e).mirrors.words = q.mirrors.words := by rw [hsettle.mirrors, hmirrors]
      exact (Part.mirror_of_words hwords' a).trans (hmirror a)
    · rw [hsettle.points, hrest, hpoints]
      rfl
    · rw [Part.shadow_settle]
      exact howed i ((henabled' i).trans hi) hlt
    · rw [Part.shadow_settle, hdisabled i ((henabled' i).trans hi), hshadow]
    · rw [hsettle.queue, hids, hkeeps.queue]
    · exact Part.keepsBut_trans (Part.keepsBut_mono hkeeps (by simp)) (Part.keepsBut_trans (Part.keepsBut_mono hends (by simp))
        (Part.keepsBut_mono hsettle (by simp)))
  · obtain ⟨q, hread, hnotice, hlines, hbits⟩ := State.reloadCheck_fails hm hstaging hwbq hr hwords hbad
    obtain ⟨hempty, hnone, hended, ⟨hshown, hresult⟩, hcauses, hline⟩ := Part.reloadFails_spec (p := q) (hnotice ▸ hc)
    generalize q.reloadFails = f at hread hempty hnone hended hshown hresult hcauses hline
    have hsettled := hempty.of_keeps (Part.settle_keeps s.part f)
    obtain ⟨-, hcauses', hprogress, htag, hstatus⟩ := Part.settle_trouble s.part f
    have hgot : (Part.settle s.part f).notice.causes =
        s.part.notice.causes ||| s.part.enabledBits .loadfail ||| s.part.enabledBits .command := by
      rw [hcauses', hcauses, hnotice, hbits, hbits]
    refine ⟨_, congrArg Host.Outcome.next hread, rfl, rfl, rfl, hsettled.mode, hsettled.reload, hsettled.records,
      hsettled.points, (Part.settle_entries s.part f).1.trans hnone, Part.settle_unconfigured hempty.mode _,
      hprogress.trans hended, ⟨htag.trans hshown, hstatus.trans hresult⟩, fun n => ?_, fun hen => ?_, ?_⟩
    · have hn : (Part.settle s.part f).line n =
          if (s.part.line n).call.isSome = true then (s.part.line n).toRelease else s.part.line n := by
        rw [Part.line_settle, hline, Part.line_of_lines hlines]
      rw [hn]
      cases hcall : (s.part.line n).call with
      | none => exact ⟨hcall, fun h => absurd h (by decide)⟩
      | some x => exact ⟨rfl, fun _ => ⟨rfl, rfl⟩⟩
    · rw [hgot, Part.enabledBits, if_pos hen, BitVec.getLsbD_or, BitVec.getLsbD_or, Cause.getLsbD_bits]
      simp
    · rw [hgot, BitVec.or_assoc]
      refine BitVec.eq_of_getLsbD_eq fun i _ => ?_
      rw [BitVec.getLsbD_and, BitVec.getLsbD_or]
      cases s.part.notice.causes.getLsbD i <;> rfl

end Sys2Proof.Machine
end

section
/-! PROOFS. A read of RELOAD that goes on (R27, R37, R43, R44). -/

namespace Sys2Proof.Machine

/-! ### A word taken, and RELOAD -/

theorem Part.takeLineConfig_mirrors (n : LineNo) (changed : Bool) (w : Word) {p : Part} (hm : p.mode.serving = true) :
    (p.takeLineConfig n changed w).mirrors = p.mirrors := by
  have henable : (p.takeLineEnable n (lineEnabledField w)).mirrors = p.mirrors :=
    (Part.takeLineEnable_spec n (lineEnabledField w) p hm).1.mirrors
  unfold Part.takeLineConfig
  simp only
  split
  · exact henable
  · exact henable

theorem Part.judged_mirrors (c : Prop) [Decidable c] (p : Part) :
    (Part.occasion (if c then p.judgeUnrouted else p)).mirrors = p.mirrors := (Part.judged_spec c p).1.mirrors

/-- A word taken is no step of RELOAD (R37). -/
theorem Part.takeServing_reload {p : Part} (hm : p.mode.serving = true) {off : Nat} (hoff : off ≠ 0x010) (w : Word) :
    (p.takeServing off w).mirrors.reload = p.mirrors.reload := by
  have hset : ∀ q : Part, q.mirrors = (p.setMirror off w).mirrors → q.mirrors.reload = p.mirrors.reload := fun q h => by
    rw [h]
    rfl
  unfold Part.takeServing
  simp only
  split
  · rename_i n hword
    split
    · exact hset _ (Part.setHeartbeat_mirrors _ _ _)
    · split
      · rfl
      · exact hset _ (Part.periodChanged_spec _).1.mirrors
    · split <;> rfl
    · split <;> rfl
    · split <;> rfl
    · exact hset _ (Part.takeLineConfig_mirrors _ _ _ (p := p.setMirror off w) hm)
    · exact hset _ (Part.takeLineConfig_mirrors _ _ _ (p := p.setMirror off w) hm)
    · exact hset _ (Part.takeLineConfig_mirrors _ _ _ (p := p.setMirror off w) hm)
    · exact hset _ (Part.takeLineConfig_mirrors _ _ _ (p := p.setMirror off w) hm)
    · rename_i hn
      exact absurd ((offset_of_windowWord_config hword).trans hn) hoff
    · rfl
  · exact hset _ (Part.takeGroupWrite_keeps _ _ _).mirrors
  · split
    · exact hset _ (Part.takeEnabled_keeps _ _ _ _).mirrors
    · rfl
  · split
    · split
      · exact hset _ (Part.judged_mirrors _ _)
      · rfl
    · split
      · exact hset _ (Part.takeBudget_spec _ w (p.setMirror off w) (Mode.live_of_serving hm)).1.mirrors
      · rfl
  · split
    · exact (congrArg Mirrors.reload (Part.judged_mirrors _ _)).trans rfl
    · rfl
  · split
    · exact hset _ (Part.takePoint_keeps _ _ _ _).1.mirrors
    · rfl
  all_goals rfl

theorem Part.settle_withReload {old p : Part} {r : Reload} (h : p.mirrors.reload.isSome = true) :
    Part.settle old (p.withReload (some r)) = (Part.settle old p).withReload (some r) := by
  have htrouble : (p.withReload (some r)).retrouble = p.retrouble.withReload (some r) := by
    unfold Part.retrouble
    have hdue : (p.withReload (some r)).troubleDue = p.troubleDue := rfl
    have hnotice : (p.withReload (some r)).notice = p.notice := rfl
    rw [hdue, hnotice]
    split <;> rfl
  have hstatus : (p.retrouble.withReload (some r)).statusWord = p.retrouble.statusWord :=
    Part.statusWord_congr rfl rfl (by rw [Part.retrouble_mirrors, h]; rfl) rfl rfl rfl
  have henter : ∀ q : Part, Part.enter .windowMirrors 0x017 (q.withReload (some r)) =
      (Part.enter .windowMirrors 0x017 q).withReload (some r) := fun q => by
    unfold Part.enter Part.withReload
    simp only
    split
    · rfl
    split
    · rfl
    split <;> rfl
  unfold Part.settle
  simp only
  rw [htrouble, hstatus]
  split
  · rfl
  · exact henter _
/-! ### Reads that fill a mirror -/

theorem reloadOffset_check {k : Nat} (h : k + 1 = Config.checkReads) : reloadOffset k = 0x01F := by
  have hk : k = 22 := Nat.succ.inj h
  rw [hk]
  decide

/-- The word of the last read of step 1 is not one the check reads (R34). -/
theorem Part.configOk_setMirror {p : Part} {k : Nat} (hwords : p.mirrors.words.wf = true) (w : Word)
    (hcheck : k + 1 = Config.checkReads → p.configOk = true) :
    k + 1 = Config.checkReads → (p.setMirror (reloadOffset k) w).configOk = true := fun h => by
  refine (Part.configOk_of_mirrors fun a ha => ?_).trans (hcheck h)
  rw [Part.mirror_setMirror hwords, reloadOffset_check h, if_neg (by omega)]

/-- A read of RELOAD whose word only fills its mirror (R37). -/
theorem State.reloadRead_mirror {s : State} {k : Nat} (hm : s.part.mode.serving = true) (hstaging : s.part.bus.staging = [])
    (hwbq : s.part.bus.wbq = []) (hr : s.part.mirrors.reload = some { next := k, waiting := none })
    (hwords : s.part.mirrors.words.wf = true) (hcur : s.part.troubleCurrent)
    (hcheck : k + 1 = Config.checkReads → s.part.configOk = true) (hlast : k + 1 ≠ Config.reloadReads)
    (hcapture : s.part.captures (reloadOffset k) (s.windowMem (reloadOffset k)) = false)
    (htake : s.part.reloadTake (reloadOffset k) (s.windowMem (reloadOffset k)) =
      s.part.setMirror (reloadOffset k) (s.windowMem (reloadOffset k))) :
    s.reloadRead = { s with
      part := Part.withReload (some { next := k + 1, waiting := none })
        (s.part.setMirror (reloadOffset k) (s.windowMem (reloadOffset k))) } := by
  rw [State.reloadRead_eq hm hstaging hwbq hr, Part.reloadStep_taken hr (by rw [hcapture, Bool.false_and]), htake,
    Part.reloadNext_of (Part.configOk_setMirror hwords _ hcheck) hlast]
  refine congrArg (fun p => { s with part := p }) ?_
  exact Part.settle_of_keeps (Part.keepsBut_trans (Part.setMirror_keeps _ _ _) (Part.withReload_keeps _ _)) hcur
    (by rw [hr]; rfl) rfl rfl

/-- What such a read leaves. -/
theorem State.reloadRead_mirror_spec {s : State} (hwords : s.part.mirrors.words.wf = true) (off k : Nat) (w : Word) :
    let t : State := { s with part := (s.part.setMirror off w).withReload (some { next := k, waiting := none }) }
    s.keepsBut [.mirrors] t ∧ t.part.mirrors.reload = some { next := k, waiting := none } ∧
      t.part.mirror off = w &&& mirrorMask off ∧ ∀ a, a ≠ off → t.part.mirror a = s.part.mirror a := by
  refine ⟨⟨rfl, rfl, rfl, Part.keepsBut_trans (Part.setMirror_keeps off w s.part) (Part.withReload_keeps _ _)⟩, rfl, ?_,
    fun a ha => ?_⟩
  · exact (Part.mirror_setMirror hwords _ _ _).trans (if_pos rfl)
  · exact (Part.mirror_setMirror hwords _ _ _).trans (if_neg ha)

/-! ### A word that has not changed -/

theorem Part.changes_self (p : Part) (off : Nat) : p.changes off (p.mirror off) = false := by
  simp [Part.changes]

theorem Part.takeLineConfig_same {n : LineNo} {w : Word} {p : Part} (h : (p.line n).takenEnable = lineEnabledField w) :
    p.takeLineConfig n false w = p := by
  have henable : p.takeLineEnable n (lineEnabledField w) = p := by
    unfold Part.takeLineEnable
    exact if_pos h
  unfold Part.takeLineConfig
  rw [henable]
  rfl

/-- A word of RELOAD that its mirror has already does nothing more (R27, R37). -/
theorem Part.reloadTake_same {p : Part} {k : Nat} {w : Word}
    (hsame : w &&& mirrorMask (reloadOffset k) = p.mirror (reloadOffset k))
    (hlines : ∀ n, (p.line n).takenEnable = p.lineEnabled n) (hlast : k + 1 < Config.reloadReads) :
    p.reloadTake (reloadOffset k) w = p.setMirror (reloadOffset k) w ∧ p.captures (reloadOffset k) w = false := by
  by_cases hfill : reloadOffset k = 0x003 ∨ reloadOffset k = 0x010 ∨ reloadOffset k = 0x011
  · refine ⟨by rw [Part.reloadTake, if_pos hfill], ?_⟩
    rcases hfill with h | h | h <;> rw [h] <;> rfl
  rw [Part.reloadTake, if_neg hfill]
  by_cases hconfig : k < 23
  · obtain ⟨n, hoff, hword, hmask, -⟩ := reloadOffset_config hconfig
    have hw : w = p.mirror (reloadOffset k) := by
      rw [← hsame, hmask]
      exact BitVec.and_allOnes.symm
    have hline : ∀ m : LineNo, reloadOffset k = 0x008 + m.val → (p.line m).takenEnable = lineEnabledField w := fun m hm => by
      rw [hlines, hw, hm]
      rfl
    simp only [hword, Part.captures, and_true]
    unfold Part.takeServing
    simp only [hword, hw, Part.changes_self, Bool.false_eq_true, if_false, if_true]
    rw [← hw]
    split
    · omega
    · rfl
    · rfl
    · rfl
    · rfl
    · exact Part.takeLineConfig_same (hline 0 (by omega))
    · exact Part.takeLineConfig_same (hline 1 (by omega))
    · exact Part.takeLineConfig_same (hline 2 (by omega))
    · exact Part.takeLineConfig_same (hline 3 (by omega))
    · omega
    · rfl
  by_cases hvirtual : k < 39
  · obtain ⟨v, x, hx, hword⟩ := reloadOffset_virtual (Nat.le_of_not_lt hconfig) hvirtual
    have hw : w = p.mirror (reloadOffset k) := by
      rw [← hsame, mirrorMask, hword]
      simp only [hx, if_true]
      exact BitVec.and_allOnes.symm
    simp only [hword, Part.captures, and_true]
    simp [Part.takeServing, hword, ← hw, Part.takeEnabled]
  by_cases hroute : k < 87
  · obtain ⟨r, x, hx, hoff⟩ := reloadOffset_route (Nat.le_of_not_lt hvirtual) hroute
    have hword : windowWord (reloadOffset k) = .route r x := by
      rw [hoff]
      exact windowWord_route r x
    simp only [hword, Part.captures, and_true]
    by_cases hbudget : x.val = 2
    · rw [if_pos hbudget]
    rw [if_neg hbudget]
    have hw : w = p.mirror (reloadOffset k) := by
      rw [← hsame, mirrorMask, hword]
      simp only [show x.val < 2 by omega, if_true]
      exact BitVec.and_allOnes.symm
    simp [Part.takeServing, hword, hbudget, hw, Part.changes_self]
  by_cases hdirectory : k < 159
  · obtain ⟨d, x, hword⟩ := reloadOffset_directory (Nat.le_of_not_lt hroute) hdirectory
    have hw : w = p.mirror (reloadOffset k) := by
      rw [← hsame, mirrorMask, hword]
      exact BitVec.and_allOnes.symm
    simp only [hword, Part.captures, and_true]
    simp [Part.takeServing, hword, hw, Part.changes_self]
  by_cases htranslation : k < 671
  · obtain ⟨i, x, hword⟩ := reloadOffset_translation (Nat.le_of_not_lt hdirectory) htranslation
    simp only [hword, Part.captures, and_true]
    exact Part.takeServing_of_isPlain (by rw [hword]; trivial) w p
  · obtain ⟨i, hi⟩ : ∃ i : Fin 256, k = 671 + i.val := by
      have hreads : Config.reloadReads = 927 := rfl
      exact ⟨⟨k - 671, by omega⟩, by simp only; omega⟩
    have hoff : reloadOffset k = pointOffset i.val 0 := by
      rw [reloadOffset_point (by omega), hi, Nat.add_sub_cancel_left]
    rw [hoff] at hsame ⊢
    have hw : w = p.mirror (pointOffset i.val 0) := by
      rw [← hsame, mirrorMask_pointEntry]
      exact BitVec.and_allOnes.symm
    rw [windowWord_pointEntry]
    simp only
    refine ⟨Part.takeServing_pointSame (by rw [hw]) fun _ => by rw [hw], ?_⟩
    simp [Part.captures, windowWord_pointEntry, hw]

/-! ### A word taken as a panel write of it -/

/-- Memory written with what it holds is as it was. -/
theorem Memory.write_read_from {m : Memory} {lo : Nat} (h : Memory.wfFrom lo m = true) (a : Nat) : m.write a (m.read a) = m := by
  induction m generalizing lo with
  | nil => rfl
  | cons e m ih =>
    obtain ⟨b, v⟩ := e
    simp only [Memory.wfFrom, Bool.and_eq_true, decide_eq_true_eq] at h
    obtain ⟨⟨-, hv⟩, hm⟩ := h
    by_cases hlt : a < b
    · rw [Memory.read_below (lo := b) (by simp [Memory.wfFrom, hv, hm]) hlt, Memory.write, if_pos hlt, if_pos rfl]
    · by_cases heq : a = b
      · simp [Memory.read, Memory.write, heq, hv]
      · simp only [Memory.read, Memory.write, if_neg hlt, if_neg heq, if_neg (Ne.symm heq), ih hm]

theorem Memory.write_read {m : Memory} (h : m.wf = true) (a : Nat) : m.write a (m.read a) = m := Memory.write_read_from h a

/-- What RELOAD takes before the point words belongs to the panel whole, w2 of the routes aside. -/
theorem reloadOffset_notOwned {k : Nat} (hk : k < 671) (hbudget : ∀ r : RouteNo, reloadOffset k ≠ routeOffset r.val 2) :
    partOwned (reloadOffset k) = false ∧ reloadOffset k < 4096 ∧ ∀ i, windowWord (reloadOffset k) ≠ .point i 0 := by
  by_cases hconfig : k < 23
  · obtain ⟨n, hoff, hword, -, howned⟩ := reloadOffset_config hconfig
    exact ⟨howned, by omega, by rw [hword]; exact nofun⟩
  have hlt : reloadOffset k < 4096 := by
    unfold reloadOffset virtualOffset routeOffset directoryOffset
    split_ifs <;> omega
  by_cases hvirtual : k < 39
  · obtain ⟨v, x, hx, hword⟩ := reloadOffset_virtual (Nat.le_of_not_lt hconfig) hvirtual
    exact ⟨by simp [partOwned, hword, hx], hlt, by rw [hword]; exact nofun⟩
  by_cases hroute : k < 87
  · obtain ⟨r, x, hx, hoff⟩ := reloadOffset_route (Nat.le_of_not_lt hvirtual) hroute
    have hword : windowWord (reloadOffset k) = .route r x := by
      rw [hoff]
      exact windowWord_route r x
    have hx2 : x.val ≠ 2 := fun h => hbudget r (by rw [hoff, h])
    refine ⟨?_, hlt, by rw [hword]; exact nofun⟩
    simp only [partOwned, hword, decide_eq_false_iff_not]
    omega
  by_cases hdirectory : k < 159
  · obtain ⟨d, x, hword⟩ := reloadOffset_directory (Nat.le_of_not_lt hroute) hdirectory
    exact ⟨by simp [partOwned, hword], hlt, by rw [hword]; exact nofun⟩
  · obtain ⟨i, x, hword⟩ := reloadOffset_translation (Nat.le_of_not_lt hdirectory) hk
    exact ⟨by simp [partOwned, hword], hlt, by rw [hword]; exact nofun⟩

theorem offset_of_windowWord_route {off : Nat} {r : RouteNo} {k : Fin 4} (h : windowWord off = .route r k) :
    off = routeOffset r.val k.val := by
  have hentry : ∀ h₁ : 0x070 ≤ off ∧ off < 0x0B0,
      WindowWord.route (Fin.ofNat 16 ((off - 0x070) / 4)) (Fin.ofNat 4 (off % 4)) = .route r k →
        off = routeOffset r.val k.val := by
    intro h₁ heq
    rw [WindowWord.route.injEq, Fin.ext_iff, Fin.ext_iff, Fin.val_ofNat, Fin.val_ofNat] at heq
    unfold routeOffset
    omega
  by_contra hne
  refine absurd h ?_
  unfold windowWord
  repeat' refine ite_ne_of_imp (fun _ => ?_) (fun _ => ?_)
  all_goals try simp only [ne_eq, reduceCtorEq, not_false_eq_true]
  exact fun heq => hne (hentry (by omega) heq)

/-- RELOAD takes every other word as a panel write of it (R37). -/
theorem Part.reloadTake_serving {off : Nat} {w : Word} (p : Part) (hfill : ¬ (off = 0x003 ∨ off = 0x010 ∨ off = 0x011))
    (hbudget : ∀ r : RouteNo, off ≠ routeOffset r.val 2) : p.reloadTake off w = p.takeServing off w := by
  have hroute : ∀ r k, windowWord off = .route r k → k.val ≠ 2 := fun r k hword hk =>
    hbudget r (by rw [offset_of_windowWord_route hword, hk])
  rw [Part.reloadTake, if_neg hfill]
  cases hword : windowWord off with
  | route r k => exact if_neg (hroute r k hword)
  | config n | group g | virtual v k | directory d k | log k i | translation i k | point i k | ordinary => rfl

/-- 003H, 010H, 011H and w2 of a route only fill their mirrors (R37). -/
theorem Part.reloadTake_fill {off : Nat} {w : Word} (p : Part)
    (h : (off = 0x003 ∨ off = 0x010 ∨ off = 0x011) ∨ ∃ r : RouteNo, off = routeOffset r.val 2) :
    p.reloadTake off w = p.setMirror off w ∧ p.captures off w = false := by
  rcases h with hfill | ⟨r, rfl⟩
  · refine ⟨by rw [Part.reloadTake, if_pos hfill], ?_⟩
    rcases hfill with h | h | h <;> rw [h] <;> rfl
  · have hoff : ¬ (routeOffset r.val 2 = 0x003 ∨ routeOffset r.val 2 = 0x010 ∨ routeOffset r.val 2 = 0x011) := by
      unfold routeOffset
      omega
    exact ⟨by rw [Part.reloadTake, if_neg hoff, windowWord_budget] <;> rfl, by simp only [Part.captures, windowWord_budget]⟩

/-- A read of RELOAD that is a panel write of its word (R27, R37). -/
theorem State.reloadRead_write {s : State} {k : Nat} (hm : s.part.mode.serving = true) (hstaging : s.part.bus.staging = [])
    (hwbq : s.part.bus.wbq = []) (hr : s.part.mirrors.reload = some { next := k, waiting := none })
    (hwords : s.part.mirrors.words.wf = true) (hmem : s.mem.wf = true) (hhold : s.part.bus.hold = none)
    (hcheck : k + 1 = Config.checkReads → s.part.configOk = true) (hk : k < 671)
    (hfill : reloadOffset k ∉ [0x003, 0x010, 0x011]) (hbudget : ∀ r : RouteNo, reloadOffset k ≠ routeOffset r.val 2) :
    ∃ u, s.panelWriteAt (reloadOffset k) (s.windowMem (reloadOffset k)) = u ∧ s.reloadRead = { u with
      part := u.part.withReload (some { next := k + 1, waiting := none }) } := by
  obtain ⟨howned, hoff, hpoint⟩ := reloadOffset_notOwned hk hbudget
  have hbusy : s.busFree := ⟨hhold, by simp [Bus.full, hstaging, hwbq, Config.writeBackPlaces, Config.stagingPlaces]⟩
  have hwritten := State.servingWrite_eq hoff hm hbusy (Part.actsOn_of_not_owned howned) hpoint
    (s.windowMem (reloadOffset k))
  have hread := State.reloadRead_eq hm hstaging hwbq hr
  have hsame : s.mem.write (s.wordAddress (reloadOffset k)) (s.windowMem (reloadOffset k)) = s.mem :=
    Memory.write_read hmem _
  rw [hsame] at hwritten
  have hcommand : reloadOffset k ≠ 0x010 := fun h => hfill (by simp [h])
  have hset : reloadOffset k = 0x01F → ∀ w, s.part.takeServing (reloadOffset k) w = s.part.setMirror (reloadOffset k) w :=
    fun h w => by
      rw [h]
      have hplain : (windowWord 0x01F).isPlain := by
        rw [show windowWord 0x01F = .config 0x1F from windowWord_config 0x1F]
        simp [WindowWord.isPlain]
      exact Part.takeServing_of_isPlain hplain w _
  generalize s.windowMem (reloadOffset k) = w at *
  have htake := s.part.reloadTake_serving (w := w) (by simpa using hfill) hbudget
  have hok : k + 1 = Config.checkReads → (s.part.takeServing (reloadOffset k) w).configOk = true := fun h => by
    rw [hset (reloadOffset_check h) w]
    exact Part.configOk_setMirror hwords w hcheck h
  have hsome : (s.part.takeServing (reloadOffset k) w).mirrors.reload.isSome = true := by
    rw [Part.takeServing_reload hm hcommand, hr]
    rfl
  have hlast : k + 1 ≠ Config.reloadReads := by
    have hreads : Config.reloadReads = 927 := rfl
    omega
  refine ⟨_, hwritten, ?_⟩
  rw [hread, Part.reloadStep_taken hr (by rw [Part.captures_of_not_point hpoint, Bool.false_and]), htake,
    Part.reloadNext_of hok hlast, Part.settle_withReload hsome]

end Sys2Proof.Machine
end

section
/-! PROOFS. A capture of RELOAD that waits (R44, R46, R54). -/

namespace Sys2Proof.Machine

/-! ### The held cycle -/

theorem Part.enter_hold (o : Owner) (off : Nat) (p : Part) : (p.enter o off).bus.hold = p.bus.hold := by
  obtain ⟨-, -, -, hhold, -⟩ := Part.enter_entries o off p
  exact hhold

theorem Part.raise_hold (c : Cause) (p : Part) : (p.raise c).bus.hold = p.bus.hold := by
  obtain ⟨-, -, -, hhold, -⟩ := Part.raise_entries c p
  exact hhold

theorem Part.makeLog_hold (r : LogRecord) (p : Part) : (p.makeLog r).bus.hold = p.bus.hold := by
  unfold Part.makeLog Part.stage
  split
  · split <;> rfl
  · rfl

theorem Part.foldl_makeLog_hold (logs : List LogRecord) (p : Part) :
    (logs.foldl (fun q l => q.makeLog l) p).bus.hold = p.bus.hold := by
  induction logs generalizing p with
  | nil => rfl
  | cons l ls ih => exact (ih _).trans (Part.makeLog_hold l p)

theorem Part.setRecords_hold (rs : List Record) (p : Part) : (p.setRecords rs).bus.hold = p.bus.hold := by
  obtain ⟨-, -, -, hhold, -⟩ := Part.setRecords_entries rs p
  exact hhold

theorem Part.withdraw_hold (r : Record) (p : Part) : (p.withdraw r).bus.hold = p.bus.hold := by
  rw [Part.withdraw, Part.tell_bus]
  exact (Part.makeLog_hold _ _).trans (Part.setRecords_hold _ p)

theorem Part.changeRecord_hold (id : Nat) (f : Record → Record) (p : Part) : (p.changeRecord id f).bus.hold = p.bus.hold :=
  Part.setRecords_hold _ p

theorem Part.evicted_hold (v : Record) (p : Part) : (p.evicted v).bus.hold = p.bus.hold := by
  rw [Part.evicted]
  exact (Part.raise_hold _ _).trans ((Part.foldl_makeLog_hold _ _).trans (Part.setRecords_hold _ p))

theorem Part.admission_hold (rq : Request) (p : Part) : (p.admission rq).bus.hold = p.bus.hold :=
  Part.setRecords_hold _ { p with queue := { p.queue with nextId := p.queue.nextId + 1 } }

theorem Part.refuse_hold (rq : Request) (p : Part) : (p.refuse rq).bus.hold = p.bus.hold :=
  (Part.raise_hold _ _).trans (Part.makeLog_hold _ p)

/-- A request leaves the held cycle. -/
theorem Part.request_hold (rq : Request) (p : Part) : (p.request rq).1.bus.hold = p.bus.hold := by
  unfold Part.request
  split
  · rw [Part.foldTold_bus]
    exact Part.changeRecord_hold _ _ p
  · rw [Part.foldTold_bus]
    exact (Part.changeRecord_hold _ _ _).trans (Part.withdraw_hold _ p)
  · split
    · exact Part.admission_hold rq p
    split
    · split
      · rw [Part.evict_eq]
        exact (Part.admission_hold rq _).trans (Part.evicted_hold _ p)
      · exact Part.refuse_hold rq p
    · exact Part.refuse_hold rq p

theorem Part.restatus_hold (i : PointNo) (p : Part) : (p.restatus i).bus.hold = p.bus.hold := by
  unfold Part.restatus
  split
  · rfl
  · exact Part.enter_hold _ _ _

theorem Part.makeRequest_hold (i : PointNo) (p : Part) : (p.makeRequest i).bus.hold = p.bus.hold := by
  cases hcalls : p.callsFor i with
  | none => rw [Part.makeRequest_none hcalls]
  | some rq =>
    rw [Part.makeRequest_of hcalls]
    split
    · exact (Part.restatus_hold i _).trans (Part.request_hold rq p)
    · exact (Part.restatus_hold i _).trans (Part.request_hold rq p)

theorem Part.takeFifo_hold {p : Part} {c : Capture} {rest : List Capture} (h : p.points.fifo = c :: rest) :
    p.takeFifo.bus.hold = p.bus.hold := by
  have htaken : (p.fifoTaken c rest).bus = p.bus := (Part.fifoTaken_keeps c rest p).bus
  rw [Part.takeFifo_of h]
  split
  · rw [htaken]
  · rw [Part.makeRequest_hold, htaken]

/-! ### RELOAD goes on -/

/-- A capture of RELOAD waits in the RELOAD in progress. -/
structure Part.reloadWaits (k : Nat) (w : WaitingCapture) (p : Part) : Prop where
  reload : p.mirrors.reload = some { next := k, waiting := some w }
  checked : Config.checkReads ≤ k
  last : k + 1 < Config.reloadReads

/-- RELOAD goes on with its next read (R37, R44). -/
theorem Part.reloadResume_ready {k : Nat} {w : WaitingCapture} {p : Part} (h : p.reloadWaits k w) (hready : p.reloadReady w = true) :
    p.reloadResume = Part.withReload (some { next := k + 1, waiting := none })
      (if p.pointEnabled w.capture.point then p.capture w.capture.point w.capture.code else p) := by
  obtain ⟨hr, hchecked, hlast⟩ := h
  have hresume : p.reloadResume = Part.reloadNext (k + 1)
      (if p.pointEnabled w.capture.point then p.capture w.capture.point w.capture.code else p) := by
    simp only [Part.reloadResume, hr, hready, if_true]
  rw [hresume]
  exact Part.reloadNext_of (fun heq => absurd heq (by omega)) (by omega)

/-- A place has come for the capture of RELOAD (R44). -/
theorem Part.reloadResume_place {k : Nat} {w : WaitingCapture} {p : Part} (h : p.reloadWaits k w)
    (hfifo : p.points.fifo.length < Config.fifoPlaces) (hhold : p.bus.hold = none) (hover : p.points.overrun = false)
    (henabled : p.pointEnabled w.capture.point = true) : p.reloadResume.points.fifo = p.points.fifo ++ [w.capture] ∧
      p.reloadResume.mirrors.reload = some { next := k + 1, waiting := none } := by
  have hready : p.reloadReady w = true := by simp [Part.reloadReady, Part.placeFor, Bus.stalled, hhold, hfifo]
  rw [Part.reloadResume_ready h hready, if_pos henabled, Part.capture_place hover hfifo]
  exact ⟨rfl, rfl⟩

/-- OVERRUN has begun while the capture of RELOAD waits: its point is marked OWED (R46). -/
theorem Part.reloadResume_overrun {k : Nat} {w : WaitingCapture} {p : Part} (h : p.reloadWaits k w)
    (hover : p.points.overrun = true) (henabled : p.pointEnabled w.capture.point = true)
    (hpoint : w.capture.point.val < 263) : p.reloadResume.points.overrun = true ∧ p.reloadResume.points.fifo = p.points.fifo ∧
      p.reloadResume.mirrors.reload = some { next := k + 1, waiting := none } ∧
      (p.reloadResume.shadow w.capture.point).owed = true := by
  obtain ⟨-, -, -, hpoints⟩ := Part.oweNow_touches w.capture.point p
  have hcapture : p.capture w.capture.point w.capture.code = p.oweNow w.capture.point := by
    unfold Part.capture
    exact if_pos hover
  have hkept : (p.oweNow w.capture.point).points.overrun = true ∧ (p.oweNow w.capture.point).points.fifo = p.points.fifo := by
    rw [hpoints]
    exact ⟨hover, rfl⟩
  rw [Part.reloadResume_ready h (by simp [Part.reloadReady, hover]), if_pos henabled, hcapture]
  exact ⟨hkept.1, hkept.2, rfl, Part.oweNow_owed hpoint p⟩

/-- The point of the capture that waits has been disabled: there is none to make (R54). -/
theorem Part.reloadResume_disabled {k : Nat} {w : WaitingCapture} {p : Part} (h : p.reloadWaits k w)
    (henabled : p.pointEnabled w.capture.point = false) :
    p.reloadResume = Part.withReload (some { next := k + 1, waiting := none }) p := by
  rw [Part.reloadResume_ready h (by simp [Part.reloadReady, henabled]), if_neg (by simp [henabled])]

/-! ### What lets it go on -/

theorem State.reloadRead_waits {s : State} {k : Nat} {w : WaitingCapture} (hm : s.part.mode.serving = true)
    (hr : s.part.mirrors.reload = some { next := k, waiting := some w }) (hcur : s.part.troubleCurrent)
    (hready : s.part.reloadReady w = false) : s.reloadRead = s := by
  have hread : s.reloadRead = { s with part := s.part.serve Part.reloadResume } := by
    simp only [State.reloadRead, hr]
  rw [hread, Part.serve_of_serving hm, Part.reloadResume_waits hr hready, Part.settle_refl hcur]

theorem State.fifoTaken_resumes {s : State} {k : Nat} {w : WaitingCapture} {c : Capture} {rest : List Capture}
    (hm : s.part.mode.serving = true) (hwaits : s.part.reloadWaits k w) (hidle : s.part.engineIdle)
    (hfifo : s.part.points.fifo = c :: rest) (hfull : s.part.points.fifo.length = Config.fifoPlaces)
    (hover : s.part.points.overrun = false) (henabled : s.part.pointEnabled w.capture.point = true)
    (hhold : s.part.bus.hold = none) :
    (s.part.serve fun p => p.fifoStep.reloadResume).points.fifo = rest ++ [w.capture] ∧
      (s.part.serve fun p => p.fifoStep.reloadResume).mirrors.reload = some { next := k + 1, waiting := none } := by
  obtain ⟨hfree, hwork⟩ := hidle
  obtain ⟨hconcerns, -⟩ := Part.takeFifo_concerns hfifo
  have hstep : s.part.fifoStep = s.part.takeFifo := by
    rw [Part.fifoStep, if_pos hfree, Part.pump_of_concerns hconcerns hwork]
  have hmirrors : s.part.takeFifo.mirrors = s.part.mirrors :=
    hconcerns.keeps.mirrors.trans (Part.fifoTaken_keeps c rest s.part).mirrors
  have hrest : s.part.takeFifo.points.fifo = rest := by
    rw [hconcerns.points]
    rfl
  have hover' : s.part.takeFifo.points.overrun = false := by
    rw [hconcerns.points, Part.fifoTaken_points]
    simp [hover]
  have hlen : s.part.takeFifo.points.fifo.length < Config.fifoPlaces := by
    rw [hrest, ← hfull, hfifo, List.length_cons]
    exact Nat.lt_succ_self _
  obtain ⟨hgot, hnext⟩ := Part.reloadResume_place (p := s.part.takeFifo) ⟨hmirrors ▸ hwaits.reload, hwaits.checked, hwaits.last⟩ hlen
    ((Part.takeFifo_hold hfifo).trans hhold) hover' ((Part.pointEnabled_of_mirrors hmirrors _).trans henabled)
  rw [Part.serve_of_serving hm, hstep, Part.settle_points, Part.settle_mirrors, hgot, hrest]
  exact ⟨rfl, hnext⟩

/-- A write of w0 of a point with the capture of RELOAD that waits (R43, R44). -/
theorem State.pointWrite_resumes {s : State} (hm : s.part.mode.serving = true) (hw : s.writable)
    (hstall : s.part.straps.stall = false) (i : Fin 256) (w : Word) :
    ∃ t, s.panelWriteAt (pointOffset i.val 0) w = t ∧
      t.part = Part.settle s.part (s.part.takeServing (pointOffset i.val 0) w).reloadResume := by
  have hoff := pointOffset_lt i (w := 0) (by decide)
  have hacts := s.part.actsOn_pointEntry i
  have hstalls : s.part.stalls (.write (s.address (pointOffset i.val 0)) w) = false := by
    simp [Part.stalls, State.windowOffset_address s hoff, hstall]
  have hwritten := State.panelWriteAt_eq hoff (Mode.live_of_serving hm) hw.2.1 hstalls
  rw [Part.clearByWrite_of_not_acting hacts, Part.downstream_of_not_acting hacts, Part.takeWrite_point hm] at hwritten
  exact ⟨_, hwritten, rfl⟩

end Sys2Proof.Machine
end

section
/-! PROOFS. The captures of RELOAD (R37, R43, R44, R46, R54). -/

namespace Sys2Proof.Machine

/-! ### The words of the points -/

/-- A word of a point whose capture finds a place (R43, R44). -/
theorem State.reloadRead_captures {s : State} {k : Nat} {i : Fin 256} (hm : s.part.mode.serving = true)
    (hstaging : s.part.bus.staging = []) (hwbq : s.part.bus.wbq = [])
    (hr : s.part.mirrors.reload = some { next := k, waiting := none }) (hcur : s.part.troubleCurrent)
    (hhold : s.part.bus.hold = none) (hk : k = 671 + i.val) (hi : i.val < 255)
    (hbefore : enabledField (s.part.mirror (pointOffset i.val 0)) = true)
    (hafter : enabledField (s.windowMem (pointOffset i.val 0)) = true)
    (hcode : stateCodeField (s.part.mirror (pointOffset i.val 0)) ≠ stateCodeField (s.windowMem (pointOffset i.val 0)))
    (hover : s.part.points.overrun = false) (hplace : s.part.points.fifo.length < Config.fifoPlaces) :
    s.reloadRead = { s with
      part := Part.withReload (some { next := k + 1, waiting := none })
        (s.part.captured i (s.windowMem (pointOffset i.val 0))) } := by
  have hoff : reloadOffset k = pointOffset i.val 0 := by
    rw [reloadOffset_point (by omega), hk, Nat.add_sub_cancel_left]
  have hread := State.reloadRead_eq hm hstaging hwbq hr
  rw [hoff] at hread
  generalize s.windowMem (pointOffset i.val 0) = w at *
  have hplaced : (s.part.captures (reloadOffset k) w && !s.part.placeFor none s.part.bus.stalled) = false := by
    simp [Part.placeFor, Bus.stalled, hhold, hplace]
  have hfill : ¬ (pointOffset i.val 0 = 0x003 ∨ pointOffset i.val 0 = 0x010 ∨ pointOffset i.val 0 = 0x011) := by
    unfold pointOffset
    omega
  have hbudget : ∀ r : RouteNo, pointOffset i.val 0 ≠ routeOffset r.val 2 := fun r => by
    unfold pointOffset routeOffset
    omega
  have htaken : s.part.reloadTake (pointOffset i.val 0) w = s.part.captured i w := by
    rw [Part.reloadTake_serving s.part hfill hbudget, Part.takeServing_capture hbefore hafter hcode]
    exact Part.capture_place (p := s.part.setMirror (pointOffset i.val 0) w) hover hplace _ _
  have hchecked : k + 1 ≠ Config.checkReads := by
    have hreads : Config.checkReads = 23 := rfl
    omega
  have hlast : k + 1 ≠ Config.reloadReads := by
    have hreads : Config.reloadReads = 927 := rfl
    omega
  rw [hread, Part.reloadStep_taken hr hplaced, hoff, htaken, Part.reloadNext_of (fun h => absurd h hchecked) hlast]
  refine congrArg (fun p => { s with part := p }) ?_
  exact Part.settle_of_keeps (Part.keepsBut_trans (Part.captured_keeps i w s.part)
    (Part.keepsBut_mono (Part.withReload_keeps _ _) (by simp))) hcur (by rw [hr]; rfl) rfl rfl

/-- A capture of RELOAD begins to wait (R44, log 35). -/
def Part.waitsFor (k : Nat) (c : Capture) (off : Nat) (w : Word) (p : Part) : Part :=
  Part.withReload (some { next := k, waiting := some { since := p.bus.tickets, capture := c } })
    { p.setMirror off w with bus := { p.bus with tickets := p.bus.tickets + 1 } }

theorem Part.waitsFor_keeps (k : Nat) (c : Capture) (off : Nat) (w : Word) (p : Part) :
    p.keepsBut [.mirrors, .bus] (p.waitsFor k c off w) := by
  intro b hb
  cases b <;> simp [Block.same, Part.waitsFor, Part.withReload] at hb ⊢

/-- A word of a point whose capture finds the FIFO full. -/
theorem State.reloadRead_full {s : State} {k : Nat} {i : Fin 256} (hm : s.part.mode.serving = true)
    (hstaging : s.part.bus.staging = []) (hwbq : s.part.bus.wbq = [])
    (hr : s.part.mirrors.reload = some { next := k, waiting := none }) (hcur : s.part.troubleCurrent) (hk : k = 671 + i.val)
    (hbefore : enabledField (s.part.mirror (pointOffset i.val 0)) = true)
    (hafter : enabledField (s.windowMem (pointOffset i.val 0)) = true)
    (hcode : stateCodeField (s.part.mirror (pointOffset i.val 0)) ≠ stateCodeField (s.windowMem (pointOffset i.val 0)))
    (hover : s.part.points.overrun = false) (hfull : s.part.points.fifo.length = Config.fifoPlaces) :
    s.reloadRead = { s with
      part := s.part.waitsFor k
        { point := i.castLE (by omega), code := stateCodeField (s.windowMem (pointOffset i.val 0)) } (pointOffset i.val 0)
        (s.windowMem (pointOffset i.val 0)) } := by
  have hoff : reloadOffset k = pointOffset i.val 0 := by
    rw [reloadOffset_point (by omega), hk, Nat.add_sub_cancel_left]
  have hpoint : Fin.ofNat 264 (k - 671) = i.castLE (by omega) := by
    rw [Fin.ext_iff, Fin.val_ofNat, Fin.val_castLE, hk]
    omega
  have hread := State.reloadRead_eq hm hstaging hwbq hr
  rw [hoff] at hread
  generalize s.windowMem (pointOffset i.val 0) = w at *
  have hwaits : (s.part.captures (pointOffset i.val 0) w && !s.part.placeFor none s.part.bus.stalled) = true := by
    simp [Part.placeFor, hfull, Part.captures, windowWord_pointEntry, hbefore, hafter, hcode, hover]
  have hstep : s.part.reloadStep w = s.part.waitsFor k { point := i.castLE (by omega), code := stateCodeField w }
      (pointOffset i.val 0) w := by
    unfold Part.reloadStep
    simp only [hr, Option.isSome_none, Bool.false_eq_true, if_false, hoff, hwaits, if_true, hpoint]
    rfl
  rw [hread, hstep]
  refine congrArg (fun p => { s with part := p }) ?_
  exact Part.settle_of_keeps (Part.waitsFor_keeps _ _ _ _ _) hcur (by rw [hr]; rfl) rfl rfl

/-! ### A write of w0 of a point -/

theorem Part.pointEnabled_setMirror {p : Part} (hwords : p.mirrors.words.wf = true) {j : PointNo} (hj : j.val < 256)
    (i : Fin 256) (w : Word) : (p.setMirror (pointOffset i.val 0) w).pointEnabled j =
      if i.val = j.val then enabledField w else p.pointEnabled j := by
  have hreal : isReal j = true := by simp [isReal, hj]
  have hoff : pointOffset j.val 0 = pointOffset i.val 0 ↔ i.val = j.val := by
    unfold pointOffset
    omega
  rw [Part.pointEnabled, if_pos hreal, Part.pointEnabled, if_pos hreal, Part.mirror_setMirror hwords, mirrorMask_pointEntry,
    and_mask]
  by_cases h : i.val = j.val
  · rw [if_pos (hoff.mpr h), if_pos h]
  · rw [if_neg fun heq => h (hoff.mp heq), if_neg h]

/-- A write that begins OVERRUN lets the capture of RELOAD go on (R46). -/
theorem Part.pointOverrun_resumes {p : Part} {k : Nat} {w : WaitingCapture} {i : Fin 256} {x : Word} (h : p.reloadWaits k w)
    (hwords : p.mirrors.words.wf = true) (hfull : p.points.fifo.length = Config.fifoPlaces)
    (hover : p.points.overrun = false) (henabled : p.pointEnabled w.capture.point = true)
    (hpoint : w.capture.point.val < 256) (hi : i.val ≠ w.capture.point.val)
    (hbefore : enabledField (p.mirror (pointOffset i.val 0)) = true) (hafter : enabledField x = true)
    (hcode : stateCodeField (p.mirror (pointOffset i.val 0)) ≠ stateCodeField x) :
    let q := (p.takeServing (pointOffset i.val 0) x).reloadResume
    q.points.overrun = true ∧ q.points.fifo = p.points.fifo ∧ q.mirrors.reload = some { next := k + 1, waiting := none } ∧
      (q.shadow w.capture.point).owed = true := by
  have htaken : p.takeServing (pointOffset i.val 0) x =
      (p.setMirror (pointOffset i.val 0) x).beginOverrun (i.castLE (by omega)) (stateCodeField x) := by
    rw [Part.takeServing_capture hbefore hafter hcode]
    unfold Part.capture
    have hnoplace : ¬ (p.setMirror (pointOffset i.val 0) x).points.fifo.length < Config.fifoPlaces := by
      rw [Part.setMirror_points, hfull]
      exact Nat.lt_irrefl _
    exact (if_neg (Bool.eq_false_iff.mp hover)).trans (if_neg hnoplace)
  have henabled' : (p.setMirror (pointOffset i.val 0) x).pointEnabled w.capture.point = true := by
    rw [Part.pointEnabled_setMirror hwords hpoint, if_neg hi, henabled]
  obtain ⟨hkeeps, hpoints, -⟩ :=
    (p.setMirror (pointOffset i.val 0) x).beginOverrun_spec (i.castLE (by omega)) (stateCodeField x)
  obtain ⟨-, -, -, howed⟩ := Part.oweNow_touches (i.castLE (by omega)) (p.setMirror (pointOffset i.val 0) x)
  rw [howed] at hpoints
  rw [← htaken] at hkeeps hpoints
  generalize p.takeServing (pointOffset i.val 0) x = q at hkeeps hpoints
  have hreload : q.mirrors.reload = p.mirrors.reload := (congrArg Mirrors.reload hkeeps.mirrors).trans rfl
  have hresumed := Part.reloadResume_overrun (p := q) ⟨hreload.trans h.reload, h.checked, h.last⟩ (by rw [hpoints])
    ((Part.pointEnabled_of_mirrors hkeeps.mirrors _).trans henabled') (by omega)
  have hfifo : q.points.fifo = p.points.fifo := by
    rw [hpoints]
    rfl
  rw [hfifo] at hresumed
  exact hresumed

/-- A write that disables its point drops the capture of RELOAD (R54). -/
theorem Part.pointDisable_resumes {p : Part} {k : Nat} {w : WaitingCapture} {i : Fin 256} {x : Word} (h : p.reloadWaits k w)
    (hwords : p.mirrors.words.wf = true) (hi : i.val = w.capture.point.val)
    (hbefore : enabledField (p.mirror (pointOffset i.val 0)) = true) (hafter : enabledField x = false) :
    let q := (p.takeServing (pointOffset i.val 0) x).reloadResume
    q.points.fifo = p.points.fifo ∧ q.mirrors.reload = some { next := k + 1, waiting := none } := by
  have htaken : p.takeServing (pointOffset i.val 0) x =
      (p.setMirror (pointOffset i.val 0) x).tell (.disable (i.castLE (by omega))) := by
    rw [Part.takeServing_point, Part.takePoint, hbefore, hafter]
    rfl
  have hdisabled : (p.takeServing (pointOffset i.val 0) x).pointEnabled w.capture.point = false := by
    rw [htaken]
    refine (Part.pointEnabled_setMirror hwords (by omega) i x).trans ?_
    rw [if_pos hi, hafter]
  have hwaits : (p.takeServing (pointOffset i.val 0) x).reloadWaits k w := by
    rw [htaken]
    exact ⟨h.reload, h.checked, h.last⟩
  rw [Part.reloadResume_disabled hwaits hdisabled, htaken]
  exact ⟨rfl, rfl⟩

/-! ### The statement -/

/-- Settles O25: words that fill mirrors, words taken as panel writes, captures that find a place, and one that waits. -/
theorem reloadReadTakesCapturesOrWaits : Obligations.ReloadReadTakesCapturesOrWaits := by
  refine ⟨fun k s hm hstaging hwbq hr hwords hmem hcur hhold hcheck => ?_,
    fun k w s hm hlast hchecked hr hfull hover henabled hpoint hhold => ?_⟩
  · have hlast : k < 671 → k + 1 ≠ Config.reloadReads := fun hk => by
      have hreads : Config.reloadReads = 927 := rfl
      omega
    have hfilled := fun htake hcapture hlast => State.reloadRead_mirror hm hstaging hwbq hr hwords hcur hcheck hlast
      hcapture htake
    have hspec := State.reloadRead_mirror_spec hwords (reloadOffset k) (k + 1) (s.windowMem (reloadOffset k))
    dsimp only at hspec ⊢
    refine ⟨fun hlo hhi => ?_, fun hlt hsame hlines => ?_, fun hfill hk => ?_, fun hk hfill hbudget => ?_,
      fun i hk hbefore hafter hcode hover => ⟨fun hi hplace => ?_, fun hfull => ?_⟩⟩
    · obtain ⟨i, x, hword⟩ := reloadOffset_translation hlo hhi
      have hmask : s.windowMem (reloadOffset k) &&& mirrorMask (reloadOffset k) = s.windowMem (reloadOffset k) := by
        rw [mirrorMask, hword]
        exact BitVec.and_allOnes
      have hbudget : ∀ r : RouteNo, reloadOffset k ≠ routeOffset r.val 2 := fun r heq => by
        rw [heq, windowWord_budget] at hword
        exact absurd hword nofun
      have hfill : ¬ (reloadOffset k = 0x003 ∨ reloadOffset k = 0x010 ∨ reloadOffset k = 0x011) := by
        unfold reloadOffset
        split_ifs <;> omega
      have hread := hfilled (by
        rw [Part.reloadTake_serving s.part hfill hbudget, Part.takeServing_of_isPlain (by rw [hword]; trivial)])
        (by simp only [Part.captures, hword]) (hlast hhi)
      rw [hmask] at hspec
      exact ⟨_, congrArg Host.Outcome.next hread, hspec⟩
    · obtain ⟨htake, hcapture⟩ := Part.reloadTake_same hsame hlines hlt
      obtain ⟨hkeeps, -, hmirror, hothers⟩ := hspec
      have hread := hfilled htake hcapture (by omega)
      refine ⟨_, congrArg Host.Outcome.next hread, hkeeps, rfl, fun a => ?_⟩
      by_cases ha : a = reloadOffset k
      · rw [ha, hmirror, hsame]
      · exact hothers a ha
    · obtain ⟨htake, hcapture⟩ := s.part.reloadTake_fill (w := s.windowMem (reloadOffset k)) (by simpa using hfill)
      have hread := hfilled htake hcapture (hlast hk)
      exact ⟨_, congrArg Host.Outcome.next hread, hspec⟩
    · obtain ⟨u, hwritten, hread⟩ := State.reloadRead_write hm hstaging hwbq hr hwords hmem hhold hcheck hk hfill hbudget
      exact ⟨u, congrArg Host.Outcome.next hwritten, congrArg Host.Outcome.next hread⟩
    · have hread := State.reloadRead_captures hm hstaging hwbq hr hcur hhold hk hi hbefore hafter hcode hover hplace
      refine ⟨_, congrArg Host.Outcome.next hread, ⟨rfl, rfl, rfl, ?_⟩, rfl, ?_, rfl⟩
      · exact Part.keepsBut_trans (Part.captured_keeps i _ s.part) (Part.keepsBut_mono (Part.withReload_keeps _ _) (by simp))
      · exact Part.mirror_setMirror_same hwords _ (mirrorMask_pointEntry i)
    · have hread := State.reloadRead_full hm hstaging hwbq hr hcur hk hbefore hafter hcode hover hfull
      have hoff : reloadOffset k = pointOffset i.val 0 := by
        rw [reloadOffset_point (by omega), hk, Nat.add_sub_cancel_left]
      refine ⟨_, congrArg Host.Outcome.next hread, ⟨rfl, rfl, rfl, Part.waitsFor_keeps _ _ _ _ _⟩, rfl, rfl, fun a => ?_, rfl⟩
      rw [hoff]
      exact (Part.mirror_setMirror hwords _ _ _).trans (by rw [mirrorMask_pointEntry, and_mask])
  · have hwaits : s.part.reloadWaits k w := ⟨hr, hchecked, hlast⟩
    have hready : s.part.reloadReady w = false := by
      simp [Part.reloadReady, Part.placeFor, henabled, hover, hfull]
    refine ⟨fun hcur => ⟨s, congrArg Host.Outcome.next (State.reloadRead_waits hm hr hcur hready), rfl⟩,
      fun hidle c rest hfifo => ⟨_, rfl, State.fifoTaken_resumes hm hwaits hidle hfifo hfull hover henabled hhold⟩,
      fun i x hw hstall hbefore => ⟨fun hi hafter hcode => ?_, fun hi hafter => ?_⟩⟩
    · obtain ⟨t, ht, hpart⟩ := State.pointWrite_resumes hm hw hstall i x
      obtain ⟨hovered, hfifo, hnext, howed⟩ := Part.pointOverrun_resumes hwaits hw.2.2 hfull hover henabled hpoint hi hbefore
        hafter hcode
      refine ⟨t, congrArg Host.Outcome.next ht, ?_⟩
      dsimp only
      rw [hpart, Part.settle_points, Part.settle_mirrors, Part.shadow_settle]
      exact ⟨hovered, hfifo, hnext, howed⟩
    · obtain ⟨t, ht, hpart⟩ := State.pointWrite_resumes hm hw hstall i x
      obtain ⟨hfifo, hnext⟩ := Part.pointDisable_resumes hwaits hw.2.2 hi hbefore hafter
      refine ⟨t, congrArg Host.Outcome.next ht, ?_⟩
      dsimp only
      rw [hpart, Part.settle_points, Part.settle_mirrors]
      exact ⟨hfifo, hnext⟩

end Sys2Proof.Machine
end

section
/-! PROOFS. The end of LOAD, up to its result (R36, R42, R104, R168). -/

namespace Sys2Proof.Machine

/-! ### What LOAD leaves to enter -/

theorem Part.moveLine_holdsMore (n : LineNo) (f : Line → Line) (p : Part) : p.bus.holdsMore (p.moveLine n f).bus := by
  unfold Part.moveLine
  simp only
  split
  · exact Bus.holdsMore_refl _
  · exact Part.enter_holdsMore _ _ (p.setLine n (f (p.line n)))

theorem Part.takeLineEnable_holdsMore (n : LineNo) (on : Bool) (p : Part) : p.bus.holdsMore (p.takeLineEnable n on).bus := by
  unfold Part.takeLineEnable
  simp only
  split
  · exact Bus.holdsMore_refl _
  split
  · exact Part.moveLine_holdsMore n _ p
  split
  case h_3 =>
    split
    · exact Part.moveLine_holdsMore n _ p
    · exact Part.moveLine_holdsMore n _ p
  all_goals exact Part.moveLine_holdsMore n _ p

/-! ### The line enables -/

/-- One line at stage 5 of LOAD (R36, R104). -/
def Part.lineTaken (p : Part) (n : LineNo) : Part :=
  if (p.line n).takenEnable = p.lineEnabled n then p else (p.takeLineEnable n (p.lineEnabled n)).occasion

/-- The line enables act in the order of the lines' numbers (R36). -/
def Part.linesTaken (p : Part) : Part := (List.finRange 4).foldl Part.lineTaken p

theorem Line.withEnable_taken (on : Bool) (l : Line) : (l.withEnable on).takenEnable = on := by
  unfold Line.withEnable
  cases on with
  | true =>
    simp only [if_true]
    split <;> rfl
  | false =>
    simp only [Bool.false_eq_true, if_false]
    split <;> rfl

/-- A step of stage 5 changes lines, the arbiter and what disabling a line tells the Point Engine (R104). -/
structure Part.takesLines (p q : Part) : Prop where
  keeps : p.keepsBut [.bus, .points, .lines, .arbiter] q
  entries : p.bus.keepsButEntries q.bus
  holdsMore : p.bus.holdsMore q.bus
  shadows : q.points.shadows = p.points.shadows

theorem Part.takesLines_refl (p : Part) : p.takesLines p :=
  ⟨Part.keepsBut_refl _ p, Bus.keepsButEntries_refl _, Bus.holdsMore_refl _, rfl⟩

theorem Part.takesLines.trans {p q r : Part} (h : p.takesLines q) (k : q.takesLines r) : p.takesLines r :=
  ⟨Part.keepsBut_trans h.keeps k.keeps, Bus.keepsButEntries_trans h.entries k.entries, h.holdsMore.trans k.holdsMore,
    k.shadows.trans h.shadows⟩

theorem Part.lineTaken_spec {p : Part} (hm : p.mode.serving = true) (n : LineNo) : p.takesLines (p.lineTaken n) ∧
    ((p.lineTaken n).line n).takenEnable = p.lineEnabled n ∧ ∀ m, m ≠ n → (p.lineTaken n).line m = p.line m := by
  unfold Part.lineTaken
  split
  · rename_i h
    exact ⟨p.takesLines_refl, h, fun _ _ => rfl⟩
  · rename_i h
    obtain ⟨hkeeps, hentries, hpoints, hothers, -, hline⟩ := Part.takeLineEnable_spec n (p.lineEnabled n) p hm
    rw [if_neg h] at hline
    refine ⟨⟨Part.keepsBut_trans hkeeps (Part.keepsBut_mono (Part.occasion_keeps _) (by simp)), hentries,
      Part.takeLineEnable_holdsMore n _ p, (congrArg Points.shadows hpoints).trans rfl⟩, ?_, hothers⟩
    exact (congrArg Line.takenEnable hline).trans (Line.withEnable_taken _ _)

theorem Part.lineEnabled_of_mirrors {p q : Part} (h : q.mirrors = p.mirrors) (n : LineNo) : q.lineEnabled n = p.lineEnabled n := by
  rw [Part.lineEnabled, Part.lineEnabled, Part.mirror_of_mirrors h]

theorem Part.foldl_lineTaken {l : List LineNo} {p : Part} (hm : p.mode.serving = true) :
    p.takesLines (l.foldl Part.lineTaken p) ∧
      ∀ n, n ∈ l ∨ (p.line n).takenEnable = p.lineEnabled n → ((l.foldl Part.lineTaken p).line n).takenEnable = p.lineEnabled n := by
  induction l generalizing p with
  | nil => exact ⟨p.takesLines_refl, fun n hn => hn.resolve_left List.not_mem_nil⟩
  | cons m l ih =>
    obtain ⟨htakes, htaken, hothers⟩ := Part.lineTaken_spec hm m
    obtain ⟨hrest, henables⟩ := ih (p := p.lineTaken m) (by rw [htakes.keeps.mode]; exact hm)
    refine ⟨htakes.trans hrest, fun n hn => ?_⟩
    rw [List.foldl_cons, ← Part.lineEnabled_of_mirrors htakes.keeps.mirrors]
    refine henables n ?_
    rw [Part.lineEnabled_of_mirrors htakes.keeps.mirrors]
    by_cases hnm : n = m
    · rw [hnm]
      exact .inr htaken
    · rw [hothers n hnm]
      exact hn.imp (fun h => (List.mem_cons.mp h).resolve_left hnm) id

/-- Every line has its enabled field taken (R36). -/
theorem Part.linesTaken_spec {p : Part} (hm : p.mode.serving = true) : p.takesLines p.linesTaken ∧
    ∀ n, (p.linesTaken.line n).takenEnable = p.lineEnabled n := by
  obtain ⟨htakes, htaken⟩ := Part.foldl_lineTaken (l := List.finRange 4) hm
  exact ⟨htakes, fun n => htaken n (.inl (List.mem_finRange n))⟩

/-! ### The shadow entries -/

/-- What stage 4 of LOAD keeps of a shadow entry and what it makes of its marks (R36, R42). -/
theorem Part.rebuilt_spec (p : Part) (i : PointNo) : (p.rebuilt i).owed = (p.pointEnabled i && decide (i.val < 263)) ∧
    (p.rebuilt i).delivered = (p.shadow i).delivered ∧ (p.pointEnabled i = false → (p.rebuilt i).status = 5) := by
  refine ⟨rfl, ?_, fun h => ?_⟩
  · unfold Part.rebuilt
    simp only
    split
    · rfl
    · split <;> rfl
  · have hstatus : (p.rebuilt i).status = if !p.pointEnabled i then 5
      else if (p.pointEnabled i && decide (i.val < 263)) then 3 else 0 := rfl
    rw [hstatus, h]
    rfl

/-! ### Log records with room -/

/-- A log record finds room in the staging buffer (R14, R169). -/
theorem Part.makeLog_roomy {p : Part} {h : Heads} (hm : p.mode.serving = true) (hh : p.notice.heads = some h)
    (hwait : p.bus.logWait = []) (hroom : p.bus.staging.length < Config.stagingPlaces) (r : LogRecord) :
    (p.makeLog r).bus = { p.bus with staging := p.bus.staging ++ [{ slot := h.alloc, record := r }] } ∧
      (p.makeLog r).notice = { p.notice with heads := some { h with alloc := h.alloc + 1 } } := by
  simp [Part.makeLog, hm, hh, Part.stage, hwait, hroom]

/-! ### Up to the result -/

/-- The LOADED record (R172). -/
def loadedLog (k : LoadKind) : LogRecord := { kind := .loaded, attempts := BitVec.ofNat 4 k.code }

/-- Stages 1 and 2 of the end of LOAD: the causes, the communicator state (R36). -/
def Part.loadServed (p : Part) : Part :=
  let q := Part.enter .noticeUnit 0x013 { p with notice := { p.notice with causes := 0 } }
  { q with mode := q.loadedMode, mirrors := { q.mirrors with load := none } }

/-- Stage 4 and heartbeat supervision (R36, R159). -/
def Part.loadBuilt (p : Part) : Part :=
  let q := Part.enter .reportQueue 0x019 p.rebuildPoints
  Part.setNextTest { q with heartbeat := { timer := q.freshTimer, silent := false } }

/-- The entries of the words whose taken value differs from memory's (R35). -/
def Part.loadEntries (mem : Memory) (p : Part) : Part :=
  (loadedOwned.filter (p.differs mem)).foldl (fun q a => q.enter (ownerOf a) a) p

theorem Part.loadEnds_eq (mem : Memory) (k : LoadKind) (p : Part) : p.loadEnds mem k =
    let q := (((p.loadServed.logNow (loadedLog k)).loadBuilt.linesTaken.loadResult k).loadEntries mem).clearMarks
    if q.mode = .running then q.occasion else q := rfl

/-- The part when LOAD comes to its result (R36). -/
structure Part.loadReady (h : Fin 32) (k : LoadKind) (p q : Part) : Prop where
  mode : q.mode = p.loadedMode
  straps : q.straps = p.straps
  mirrors : q.mirrors = { p.mirrors with load := none }
  notice : q.notice = { p.notice with causes := 0, heads := some { alloc := h + 1, shown := h } }
  now : q.now = p.now
  routes : q.routes = p.routes
  queue : q.queue = p.queue
  staging : q.bus.staging = [{ slot := h, record := (loadedLog k).stamp p.now }]
  logWait : q.bus.logWait = []
  shadows : ∀ i, (q.shadow i).owed = (p.pointEnabled i && decide (i.val < 263)) ∧
    (q.shadow i).delivered = (p.shadow i).delivered ∧ (p.pointEnabled i = false → (q.shadow i).status = 5)
  lines : ∀ n, (q.line n).takenEnable = p.lineEnabled n
  heartbeat : q.heartbeat = { timer := p.freshTimer, silent := false }
  entered : q.bus.hasEntry 0x013

theorem Part.mirror_of_loadEnded {p q : Part} (h : q.mirrors = { p.mirrors with load := none }) (a : Nat) :
    q.mirror a = p.mirror a := by
  rw [Part.mirror, h, Part.mirror]

theorem Part.loadServed_spec (p : Part) : p.keepsBut [.mode, .bus, .mirrors, .notice] p.loadServed ∧
    p.loadServed.mode = p.loadedMode ∧ p.loadServed.mirrors = { p.mirrors with load := none } ∧
    p.loadServed.notice = { p.notice with causes := 0 } ∧ p.bus.keepsButEntries p.loadServed.bus ∧
    (p.mode.live = true → p.loadServed.bus.hasEntry 0x013) := by
  have henter := Part.enter_keeps .noticeUnit 0x013 { p with notice := { p.notice with causes := 0 } }
  have hmirror : ∀ a, (Part.enter .noticeUnit 0x013 { p with notice := { p.notice with causes := 0 } }).mirror a = p.mirror a :=
    Part.mirror_of_mirrors henter.mirrors
  refine ⟨fun b hb => ?_, ?_, ?_, henter.notice, Part.enter_entries _ _ { p with notice := { p.notice with causes := 0 } },
    fun hm => Part.enter_hasEntry (p := { p with notice := { p.notice with causes := 0 } }) hm _ _⟩
  · cases b <;> simp [Block.same, Part.loadServed] at hb ⊢
  · rw [Part.loadedMode, Part.startOnLoad, ← hmirror]
    rfl
  · rw [Part.loadServed, henter.mirrors]

theorem Part.freshTimer_of_mirror {p q : Part} (h : q.mirror 0x004 = p.mirror 0x004) : q.freshTimer = p.freshTimer := by
  have hperiod : q.heartbeatPeriod = p.heartbeatPeriod := by rw [Part.heartbeatPeriod, h, Part.heartbeatPeriod]
  rw [Part.freshTimer, Part.freshTimer, hperiod]

theorem Part.loadBuilt_spec (p : Part) : p.keepsBut [.bus, .points, .heartbeat, .time] p.loadBuilt ∧ p.loadBuilt.now = p.now ∧
    p.bus.keepsButEntries p.loadBuilt.bus ∧ p.bus.holdsMore p.loadBuilt.bus ∧ (∀ i, p.loadBuilt.shadow i = p.rebuilt i) ∧
    p.loadBuilt.heartbeat = { timer := p.freshTimer, silent := false } := by
  have henter := Part.enter_keeps .reportQueue 0x019 p.rebuildPoints
  have htimer : (Part.enter .reportQueue 0x019 p.rebuildPoints).freshTimer = p.freshTimer := by
    have hmirrors : (Part.enter .reportQueue 0x019 p.rebuildPoints).mirrors = p.mirrors := henter.mirrors
    exact Part.freshTimer_of_mirror (Part.mirror_of_mirrors hmirrors 0x004)
  have htime : (Part.enter .reportQueue 0x019 p.rebuildPoints).time = p.time := henter.time
  refine ⟨fun b hb => ?_, ?_, Part.enter_entries _ _ p.rebuildPoints, Part.enter_holdsMore _ _ p.rebuildPoints, fun i => ?_, ?_⟩
  · cases b <;> simp [Block.same, Part.loadBuilt, Part.setNextTest, Part.rebuildPoints] at hb ⊢
  · simp only [Part.loadBuilt, Part.setNextTest, Part.now, htime]
  · have hshadow : p.loadBuilt.shadow i = p.rebuildPoints.shadow i := Part.shadow_of_points henter.points i
    rw [hshadow, Part.shadow_rebuildPoints]
  · rw [← htimer]
    rfl

theorem Part.loadReady_of {p : Part} {h : Fin 32} (hm : p.mode.live = true) (hh : p.notice.heads = some { alloc := h, shown := h })
    (hstaging : p.bus.staging = []) (hwait : p.bus.logWait = []) (k : LoadKind) :
    Part.loadReady h k p (p.loadServed.logNow (loadedLog k)).loadBuilt.linesTaken := by
  obtain ⟨hserved, hmode, hmirrors, hnotice, hentries, hcauses⟩ := p.loadServed_spec
  have hheads : p.loadServed.notice.heads = some { alloc := h, shown := h } := by rw [hnotice, hh]
  have hserving : p.loadServed.mode.serving = true := by rw [hmode, Part.loadedMode_serving]
  have hstaging' : p.loadServed.bus.staging = [] := hentries.1.trans hstaging
  have hwait' : p.loadServed.bus.logWait = [] := hentries.2.2.1.trans hwait
  obtain ⟨hbus, hlogged⟩ := Part.makeLog_roomy hserving hheads hwait' (by rw [hstaging']; decide)
    ((loadedLog k).stamp p.loadServed.now)
  have hlog := Part.logNow_keeps (loadedLog k) p.loadServed
  have hmore := Part.makeLog_holdsMore ((loadedLog k).stamp p.loadServed.now) p.loadServed
  have hlogNow : p.loadServed.logNow (loadedLog k) = p.loadServed.makeLog ((loadedLog k).stamp p.loadServed.now) := rfl
  have hnow : p.loadServed.now = p.now := by rw [Part.now, hserved.time, Part.now]
  rw [← hlogNow] at hbus hlogged hmore
  rw [hnow, hstaging'] at hbus
  generalize p.loadServed.logNow (loadedLog k) = q at hbus hlogged hmore hlog
  have hkept := Part.keepsBut_trans (Part.keepsBut_mono hserved (cs := [.mode, .bus, .mirrors, .notice]) (by simp))
    (Part.keepsBut_mono hlog (by simp))
  have hqmirrors : q.mirrors = { p.mirrors with load := none } := hlog.mirrors.trans hmirrors
  have hqmirror := Part.mirror_of_loadEnded hqmirrors
  obtain ⟨hbuilt, hbuiltNow, hbuiltEntries, hbuiltMore, hbuiltShadow, hbuiltHeartbeat⟩ := q.loadBuilt_spec
  generalize q.loadBuilt = r at hbuilt hbuiltNow hbuiltEntries hbuiltMore hbuiltShadow hbuiltHeartbeat
  obtain ⟨htakes, htaken⟩ := Part.linesTaken_spec (p := r) (by rw [hbuilt.mode, hlog.mode]; exact hserving)
  generalize r.linesTaken = t at htakes htaken
  have hrmirrors : r.mirrors = { p.mirrors with load := none } := hbuilt.mirrors.trans hqmirrors
  have henabled : ∀ i, q.pointEnabled i = p.pointEnabled i := fun i => by
    simp only [Part.pointEnabled, Part.virtualEnabled, hqmirror]
  have hqshadow : ∀ i, q.shadow i = p.shadow i := Part.shadow_of_points hkept.points
  have hshadow : ∀ i, t.shadow i = q.rebuilt i := fun i =>
    (congrArg (fun x : Vector Shadow 264 => x[i]) htakes.shadows).trans (hbuiltShadow i)
  constructor
  case mode => rw [htakes.keeps.mode, hbuilt.mode, hlog.mode, hmode]
  case straps => rw [htakes.keeps.straps, hbuilt.straps, hkept.straps]
  case mirrors => rw [htakes.keeps.mirrors, hrmirrors]
  case notice => rw [htakes.keeps.notice, hbuilt.notice, hlogged, hnotice]
  case now =>
    have htime : t.now = r.now := by rw [Part.now, htakes.keeps.time, Part.now]
    rw [htime, hbuiltNow, Part.now, hkept.time, Part.now]
  case routes => rw [htakes.keeps.routes, hbuilt.routes, hkept.routes]
  case queue => rw [htakes.keeps.queue, hbuilt.queue, hkept.queue]
  case staging =>
    rw [htakes.entries.1, hbuiltEntries.1, hbus]
    rfl
  case logWait => rw [htakes.entries.2.2.1, hbuiltEntries.2.2.1, hbus, ← hwait']
  case shadows =>
    intro i
    obtain ⟨howed, hdelivered, hstatus⟩ := q.rebuilt_spec i
    rw [hshadow, howed, hdelivered, hqshadow, henabled]
    exact ⟨rfl, rfl, fun hen => hstatus ((henabled i).trans hen)⟩
  case lines =>
    intro n
    rw [htaken, Part.lineEnabled, Part.mirror_of_loadEnded hrmirrors, Part.lineEnabled]
  case heartbeat =>
    rw [htakes.keeps.heartbeat, hbuiltHeartbeat, Part.freshTimer_of_mirror (hqmirror 0x004)]
  case entered => exact htakes.holdsMore.1 _ (hbuiltMore.1 _ (hmore.1 _ (hcauses hm)))

end Sys2Proof.Machine
end

section
/-! PROOFS. The result of LOAD and what it enters (R35, R36, R178). -/

namespace Sys2Proof.Machine

/-! ### The words with part-owned fields -/

theorem offset_of_windowWord_virtual {off : Nat} {v : Fin 8} {k : Fin 4} (h : windowWord off = .virtual v k) :
    off = virtualOffset v.val k.val := by
  have hentry : ∀ h₁ : 0x050 ≤ off ∧ off < 0x070,
      WindowWord.virtual (Fin.ofNat 8 ((off - 0x050) / 4)) (Fin.ofNat 4 (off % 4)) = .virtual v k →
        off = virtualOffset v.val k.val := by
    intro h₁ heq
    rw [WindowWord.virtual.injEq, Fin.ext_iff, Fin.ext_iff, Fin.val_ofNat, Fin.val_ofNat] at heq
    unfold virtualOffset
    omega
  by_contra hne
  refine absurd h ?_
  unfold windowWord
  repeat' refine ite_ne_of_imp (fun _ => ?_) (fun _ => ?_)
  all_goals try simp only [ne_eq, reduceCtorEq, not_false_eq_true]
  exact fun heq => hne (hentry (by omega) heq)

theorem offset_of_windowWord_point {off : Nat} {i : Fin 256} {k : Fin 3} (h : windowWord off = .point i k) :
    off = pointOffset i.val k.val := by
  have hentry : ∀ h₁ : 0x800 ≤ off ∧ off < 0xC00 ∧ off % 4 < 3,
      WindowWord.point (Fin.ofNat 256 ((off - 0x800) / 4)) (Fin.ofNat 3 (off % 4)) = .point i k →
        off = pointOffset i.val k.val := by
    intro h₁ heq
    rw [WindowWord.point.injEq, Fin.ext_iff, Fin.ext_iff, Fin.val_ofNat, Fin.val_ofNat] at heq
    unfold pointOffset
    omega
  by_contra hne
  refine absurd h ?_
  unfold windowWord
  repeat' refine ite_ne_of_imp (fun _ => ?_) (fun _ => ?_)
  all_goals try simp only [ne_eq, reduceCtorEq, not_false_eq_true]
  exact fun heq => hne (hentry (by omega) heq)

/-- LOAD compares every word with a part-owned field outside the configuration block, and 015H (R35). -/
theorem mem_loadedOwned {off : Nat} (h : ownedMask off ≠ 0) : off ∈ loadedOwned := by
  have hvirtual : ∀ (v : Fin 8) (k : Fin 4), 2 ≤ k.val → virtualOffset v.val k.val ∈ loadedOwned := fun v k hk => by
    refine List.mem_append_left _ (List.mem_append_left _ (List.mem_append_left _ ?_))
    refine List.mem_map.mpr ⟨2 * v.val + (k.val - 2), List.mem_range.mpr (by omega), ?_⟩
    unfold virtualOffset
    omega
  have hroute : ∀ (r : RouteNo) (k : Fin 4), 2 ≤ k.val → routeOffset r.val k.val ∈ loadedOwned := fun r k hk => by
    refine List.mem_append_left _ (List.mem_append_left _ (List.mem_append_right _ ?_))
    refine List.mem_map.mpr ⟨2 * r.val + (k.val - 2), List.mem_range.mpr (by omega), ?_⟩
    unfold routeOffset
    omega
  have hpoint : ∀ (i : Fin 256) (k : Fin 3), 1 ≤ k.val → pointOffset i.val k.val ∈ loadedOwned := fun i k hk => by
    refine List.mem_append_left _ (List.mem_append_right _ ?_)
    refine List.mem_map.mpr ⟨2 * i.val + (k.val - 1), List.mem_range.mpr (by omega), ?_⟩
    unfold pointOffset
    omega
  unfold ownedMask at h
  cases hword : windowWord off with
  | config n =>
    have hn : n.val = 0x15 := by
      by_contra hn
      simp [hword, hn] at h
    rw [offset_of_windowWord_config hword, hn]
    exact List.mem_append_right _ (List.mem_singleton_self _)
  | virtual v k =>
    rw [offset_of_windowWord_virtual hword]
    refine hvirtual v k ?_
    by_contra hk
    simp [hword, show k.val ≠ 2 by omega, show k.val ≠ 3 by omega] at h
  | route r k =>
    rw [offset_of_windowWord_route hword]
    refine hroute r k ?_
    by_contra hk
    simp [hword, show k.val ≠ 2 by omega, show k.val ≠ 3 by omega] at h
  | point i k =>
    rw [offset_of_windowWord_point hword]
    refine hpoint i k ?_
    by_contra hk
    simp [hword, show k.val = 0 by omega] at h
  | group g | directory d k | log k i | translation i k | ordinary => simp [hword] at h

/-- What the part-owned fields LOAD compares are shown from. -/
structure Part.ownsAs (p q : Part) : Prop where
  heads : q.notice.heads = p.notice.heads
  shadows : q.points.shadows = p.points.shadows
  budget : ∀ r, (q.route r).budget = (p.route r).budget
  w3 : ∀ r, (q.route r).w3 = (p.route r).w3
  mirror : ∀ a, q.mirror a = p.mirror a

theorem Part.ownsAs.ownedWord {p q : Part} (h : p.ownsAs q) {off : Nat} (hmask : ownedMask off ≠ 0) :
    q.ownedWord off = p.ownedWord off := by
  unfold ownedMask at hmask
  unfold Part.ownedWord
  cases hword : windowWord off with
  | config n =>
    have hn : n.val = 0x15 := by
      by_contra hn
      simp [hword, hn] at hmask
    simp only [hn, h.heads]
  | virtual v k | point i k => simp only [h.shadows]
  | route r k => simp only [h.budget, h.w3, h.mirror]
  | group g | directory d k | log k i | translation i k | ordinary => rfl

/-! ### The entries -/

theorem Part.foldl_enter_spec (l : List Nat) (p : Part) :
    let q := l.foldl (fun q a => q.enter (ownerOf a) a) p
    p.keepsBut [.bus] q ∧ p.bus.keepsButEntries q.bus ∧ p.bus.holdsMore q.bus ∧
      (p.mode.live = true → ∀ a ∈ l, q.bus.hasEntry a) := by
  induction l generalizing p with
  | nil => exact ⟨Part.keepsBut_refl _ p, Bus.keepsButEntries_refl _, Bus.holdsMore_refl _, fun _ a ha => absurd ha List.not_mem_nil⟩
  | cons b l ih =>
    obtain ⟨hkeeps, hentries, hmore, hentered⟩ := ih (p.enter (ownerOf b) b)
    refine ⟨Part.keepsBut_trans (Part.enter_keeps _ _ p) hkeeps, Bus.keepsButEntries_trans (Part.enter_entries _ _ p) hentries,
      (Part.enter_holdsMore _ _ p).trans hmore, fun hm a ha => ?_⟩
    rcases List.mem_cons.mp ha with rfl | ha
    · exact hmore.1 _ (Part.enter_hasEntry hm _ _)
    · exact hentered (by rw [Part.enter_mode]; exact hm) a ha

theorem Part.loadEntries_spec (mem : Memory) (p : Part) : p.keepsBut [.bus] (p.loadEntries mem) ∧
    p.bus.keepsButEntries (p.loadEntries mem).bus ∧ p.bus.holdsMore (p.loadEntries mem).bus ∧
    (p.mode.live = true → ∀ a ∈ loadedOwned, p.differs mem a = true → (p.loadEntries mem).bus.hasEntry a) := by
  obtain ⟨hkeeps, hentries, hmore, hentered⟩ := Part.foldl_enter_spec (loadedOwned.filter (p.differs mem)) p
  exact ⟨hkeeps, hentries, hmore, fun hm a ha hdiffers => hentered hm a (List.mem_filter.mpr ⟨ha, hdiffers⟩)⟩

/-! ### The result -/

/-- A command done in STOPPED or RUNNING with room for its log record (R169, R176). -/
theorem Part.complete_roomy {p : Part} {h : Heads} {c : Command} (hm : p.mode.serving = true) (hh : p.notice.heads = some h)
    (hwait : p.bus.logWait = []) (hroom : p.bus.staging.length < Config.stagingPlaces) (hc : p.notice.inProgress = some c)
    (st : ResultStatus) :
    (p.complete st).bus.staging = p.bus.staging ++ [{ slot := h.alloc, record := commandLog p c.code c.tag st }] ∧
      (p.complete st).bus.logWait = [] ∧ (p.complete st).notice.heads = some { h with alloc := h.alloc + 1 } ∧
      (p.complete st).notice.causes = p.notice.causes ||| p.enabledBits .command := by
  have hcomplete : p.complete st = (Part.raise .command (p.ended.setResult c.tag st)).makeLog (commandLog p c.code c.tag st) := by
    have hnow : (Part.raise .command (p.ended.setResult c.tag st)).now = p.now := by
      rw [Part.now, Part.raise_time, Part.setResult_time]
      rfl
    simp only [Part.complete, hc, Part.finalResult, Part.logNow, commandLog, ← hnow]
    rfl
  have hraised := Part.raise_entries .command (p.ended.setResult c.tag st)
  have hset : p.bus.keepsButEntries (p.ended.setResult c.tag st).bus :=
    Part.enter_entries .noticeUnit 0x012 { p.ended with notice := { p.ended.notice with resultTag := c.tag, resultStatus := st } }
  have hentries := Bus.keepsButEntries_trans hset hraised
  have hnotice := Part.raise_notice .command (p.ended.setResult c.tag st)
  have hcauses := Part.raise_causes_or .command (p.ended.setResult c.tag st)
  have hmirrors : (p.ended.setResult c.tag st).mirrors = p.mirrors := Part.setResult_mirrors _ _ _
  rw [Part.setResult_notice] at hnotice hcauses
  rw [Part.enabledBits_of_mirrors hmirrors] at hcauses
  have hmode : (Part.raise .command (p.ended.setResult c.tag st)).mode.serving = true := by
    rw [Part.raise_mode, Part.setResult_mode]
    exact hm
  obtain ⟨hstaging, -, hwait', -⟩ := hentries
  obtain ⟨hbus, hlogged⟩ := Part.makeLog_roomy hmode (by rw [hnotice]; exact hh) (hwait'.trans hwait)
    (by rw [hstaging]; exact hroom) (commandLog p c.code c.tag st)
  rw [← hcomplete] at hbus hlogged
  refine ⟨by rw [hbus, hstaging], by rw [hbus, hwait', hwait], by rw [hlogged], ?_⟩
  rw [hlogged]
  exact hcauses

theorem Part.setResult_hasEntry {p : Part} (hm : p.mode.live = true) (tag : BitVec 8) (st : ResultStatus) :
    (p.setResult tag st).bus.hasEntry 0x012 :=
  Part.enter_hasEntry (p := { p with notice := { p.notice with resultTag := tag, resultStatus := st } }) hm _ _

theorem Part.setResult_holdsMore (tag : BitVec 8) (st : ResultStatus) (p : Part) : p.bus.holdsMore (p.setResult tag st).bus :=
  Part.enter_holdsMore _ _ { p with notice := { p.notice with resultTag := tag, resultStatus := st } }

/-- The result of LOAD is entered, and no address is lost (R176, R178). -/
theorem Part.loadResult_entered {p : Part} (hm : p.mode.live = true) {k : LoadKind}
    (hc : k = .reload → p.notice.inProgress.isSome = true) :
    p.bus.holdsMore (p.loadResult k).bus ∧ (p.loadResult k).bus.hasEntry 0x012 := by
  by_cases hk : k = .reload
  · subst hk
    obtain ⟨c, hc⟩ := Option.isSome_iff_exists.mp (hc rfl)
    refine ⟨Part.complete_holdsMore .done p, ?_⟩
    simp only [Part.loadResult, Part.complete, hc, Part.finalResult]
    exact (Part.makeLog_holdsMore _ _).1 _ ((Part.raise_holdsMore _ _).1 _ (Part.setResult_hasEntry (p := p.ended) hm _ _))
  · cases k with
    | reload => exact absurd rfl hk
    | powerOn | xrst | restart =>
      exact ⟨Part.setResult_holdsMore _ _ p.ended, Part.setResult_hasEntry (p := p.ended) hm _ _⟩

theorem Part.loadResult_entries {k : LoadKind} (hk : k ≠ .reload) (p : Part) : p.bus.keepsButEntries (p.loadResult k).bus := by
  cases k with
  | reload => exact absurd rfl hk
  | powerOn | xrst | restart => exact Part.enter_entries _ _ _

end Sys2Proof.Machine
end

section
/-! PROOFS. LOAD ends (R33, R35, R36, R178). -/

namespace Sys2Proof.Machine

/-! ### The last read -/

/-- The log head 015H names (R168). -/
def headOf (w : Word) : Fin 32 := if field w 0 8 ≤ 31 then Fin.ofNat 32 (field w 0 8) else 0

theorem val_headOf (w : Word) : (headOf w).val = if field w 0 8 ≤ 31 then field w 0 8 else 0 := by
  unfold headOf
  split
  · rw [Fin.val_ofNat]
    omega
  · rfl

/-- LOAD has read 015H, its last word (R33, R168). -/
def Part.loadLast (h : Fin 32) (l : Load) (p : Part) : Part :=
  Part.loadOn l { p with notice := { p.notice with heads := some { alloc := h, shown := h } } }

theorem Part.loadStep_last {p : Part} {l : Load} (hl : p.mirrors.load = some l) (hlast : l.next = 1471) (mem : Memory) (w : Word) :
    p.loadStep mem w = (p.loadLast (headOf w) l).loadEnds mem l.kind := by
  have hoff : loadOffset l.next = 0x015 := by
    rw [hlast]
    decide
  have htake : p.loadTake 0x015 w =
      { p with notice := { p.notice with heads := some { alloc := headOf w, shown := headOf w } } } := by
    rw [Part.loadTake, show windowWord 0x015 = .config 0x15 from windowWord_config 0x15] <;> rfl
  have hcheck : l.next + 1 ≠ Config.checkReads := by
    rw [hlast]
    decide
  have hreads : l.next + 1 = Config.loadReads := congrArg (· + 1) hlast
  unfold Part.loadStep
  simp only [hl, hoff, htake]
  exact (if_neg fun h => hcheck h.1).trans (if_pos hreads)

theorem State.loadRead_last {s : State} {k : LoadKind} (hm : s.part.mode = .loading) (hstaging : s.part.bus.staging = [])
    (hwbq : s.part.bus.wbq = []) (hl : s.part.mirrors.load = some { kind := k, next := 1471 }) : s.loadRead = { s with
      part := Part.settle s.part
        ((s.part.loadLast (headOf (s.windowMem 0x015)) { kind := k, next := 1471 }).loadEnds s.mem k) } := by
  have hoff : loadOffset 1471 = 0x015 := by decide
  rw [State.loadRead_eq hm hstaging hwbq hl, Part.loadStep_last hl rfl]
  simp only [hoff]

/-! ### After the result -/

/-- What follows the result of LOAD: the entries, the marks, the occasion (R35, R36, R96). -/
def Part.loadClosed (mem : Memory) (p : Part) : Part :=
  let q := (p.loadEntries mem).clearMarks
  if q.mode = .running then q.occasion else q

theorem Part.clearMarks_route (p : Part) (r : RouteNo) :
    p.clearMarks.route r = { p.route r with clearKept := false, w3AtEnd := false } := by
  simp [Part.clearMarks, Part.route]

theorem Part.loadClosed_spec {p : Part} (hm : p.mode.live = true) (mem : Memory) :
    p.keepsBut [.bus, .routes, .arbiter] (p.loadClosed mem) ∧ p.bus.keepsButEntries (p.loadClosed mem).bus ∧
      p.bus.holdsMore (p.loadClosed mem).bus ∧
      (∀ a ∈ loadedOwned, p.differs mem a = true → (p.loadClosed mem).bus.hasEntry a) ∧ p.ownsAs (p.loadClosed mem) := by
  obtain ⟨hkeeps, hentries, hmore, hentered⟩ := p.loadEntries_spec mem
  have hmarks : (p.loadEntries mem).keepsBut [.routes] (p.loadEntries mem).clearMarks := by
    intro b hb
    cases b <;> simp [Block.same, Part.clearMarks] at hb ⊢
  have hclosed : (p.loadEntries mem).clearMarks.keepsBut [.arbiter] (p.loadClosed mem) := by
    unfold Part.loadClosed
    simp only
    split
    · exact Part.occasion_keeps _
    · exact Part.keepsBut_refl _ _
  have hblocks := Part.keepsBut_trans (Part.keepsBut_mono hkeeps (cs := [.bus, .routes, .arbiter]) (by simp))
    (Part.keepsBut_trans (Part.keepsBut_mono hmarks (by simp)) (Part.keepsBut_mono hclosed (by simp)))
  have hbus : (p.loadClosed mem).bus = (p.loadEntries mem).bus := hclosed.bus
  have hroute : ∀ r, (p.loadClosed mem).route r = { p.route r with clearKept := false, w3AtEnd := false } := fun r => by
    have hclosed' : (p.loadClosed mem).route r = (p.loadEntries mem).clearMarks.route r := by
      simp only [Part.route, hclosed.routes]
    have hentered' : (p.loadEntries mem).route r = p.route r := by simp only [Part.route, hkeeps.routes]
    rw [hclosed', Part.clearMarks_route, hentered']
  rw [hbus]
  exact ⟨hblocks, hentries, hmore, hentered hm, by rw [hblocks.notice], by rw [hblocks.points], fun r => by rw [hroute],
    fun r => by rw [hroute]; rfl, Part.mirror_of_mirrors hblocks.mirrors⟩

theorem Part.loadEnds_closed (mem : Memory) (k : LoadKind) (p : Part) : p.loadEnds mem k =
    ((p.loadServed.logNow (loadedLog k)).loadBuilt.linesTaken.loadResult k).loadClosed mem := rfl

/-- Settling changes no part-owned field LOAD compares. -/
theorem Part.settle_ownsAs (old p : Part) : p.ownsAs (Part.settle old p) :=
  ⟨(Part.settle_trouble old p).1, by rw [Part.settle_points], fun r => by simp only [Part.route, Part.settle_routes],
    fun r => by simp only [Part.route, Part.settle_routes], Part.mirror_of_mirrors (Part.settle_mirrors old p)⟩

theorem Part.ownsAs.trans {p q r : Part} (h : p.ownsAs q) (k : q.ownsAs r) : p.ownsAs r :=
  ⟨k.heads.trans h.heads, k.shadows.trans h.shadows, fun x => (k.budget x).trans (h.budget x),
    fun x => (k.w3 x).trans (h.w3 x), fun a => (k.mirror a).trans (h.mirror a)⟩

theorem Bus.entered_of_hasEntry {b : Bus} {a : Nat} (h : b.hasEntry a) : a ∈ b.wbq ∨ ∃ w ∈ b.wbWait, a ∈ w.first :: w.later :=
  h.imp id fun ⟨w, hw, ha⟩ => ⟨w, hw, List.mem_cons.mpr (ha.imp Eq.symm id)⟩

/-! ### The result -/

/-- The result of LOAD, as the heads, the causes, the records and the result word show it (R36, R178). -/
theorem Part.loadResult_ready {h : Fin 32} {k : LoadKind} {p q : Part} (hready : Part.loadReady h k p q) :
    (k ≠ .reload → (q.loadResult k).notice.causes = 0 ∧
      (q.loadResult k).shows ((p.notice.inProgress.map (·.tag)).getD 0) .restarted ∧
      (q.loadResult k).notice.heads = some { alloc := h + 1, shown := h } ∧
      (q.loadResult k).bus.staging = [{ slot := h, record := (loadedLog k).stamp p.now }] ∧
      (q.loadResult k).bus.logWait = []) ∧
    ∀ c, k = .reload → p.notice.inProgress = some c → (q.loadResult k).notice.causes = p.enabledBits .command ∧
      (q.loadResult k).shows c.tag .done ∧ (q.loadResult k).notice.heads = some { alloc := h + 1 + 1, shown := h } ∧
      (q.loadResult k).bus.staging = [{ slot := h, record := (loadedLog k).stamp p.now },
        { slot := h + 1, record := commandLog p c.code c.tag .done }] ∧
      (q.loadResult k).bus.logWait = [] := by
  have hserving : q.mode.serving = true := by rw [hready.mode, Part.loadedMode_serving]
  have hinProgress : q.notice.inProgress = p.notice.inProgress := (congrArg Notice.inProgress hready.notice).trans rfl
  have hheads : q.notice.heads = some { alloc := h + 1, shown := h } := congrArg Notice.heads hready.notice
  have hcauses : q.notice.causes = 0 := congrArg Notice.causes hready.notice
  have hbits : q.enabledBits .command = p.enabledBits .command := by
    have henable : q.causeEnable = p.causeEnable := by
      rw [Part.causeEnable, Part.mirror_of_loadEnded hready.mirrors, Part.causeEnable]
    rw [Part.enabledBits, Part.enabledBits, henable]
  refine ⟨fun hk => ?_, fun c hk hc => ?_⟩
  · obtain ⟨hstaging, -, hwait, -⟩ := q.loadResult_entries hk
    rw [Part.shows, Part.loadResult_notice hk, hinProgress]
    exact ⟨hcauses, ⟨rfl, rfl⟩, hheads, hstaging.trans hready.staging, hwait.trans hready.logWait⟩
  · subst hk
    have hroom : q.bus.staging.length < Config.stagingPlaces := by
      rw [hready.staging, List.length_singleton]
      decide
    obtain ⟨hstaging, hwait, hlogged, hraised⟩ :=
      Part.complete_roomy hserving hheads hready.logWait hroom (hinProgress.trans hc) .done
    obtain ⟨⟨hshows, -⟩, -⟩ := Part.complete_answered (hinProgress.trans hc) .done
    have hlog : commandLog q c.code c.tag .done = commandLog p c.code c.tag .done := by
      rw [commandLog, hready.now, commandLog]
    rw [hcauses, hbits] at hraised
    rw [hready.staging, hlog] at hstaging
    exact ⟨hraised.trans BitVec.zero_or, hshows, hlogged, hstaging, hwait⟩

/-! ### The statement -/

/-- Settles O24: the stages up to the result by `Part.loadReady_of`, then the result, then the entries. -/
theorem loadEndServesWithPointsOwed : Obligations.LoadEndServesWithPointsOwed := by
  intro k s hm hstaging hwbq hwait hl hrecords hprogress
  have hread := State.loadRead_last hm hstaging hwbq hl
  rw [Part.loadEnds_closed] at hread
  have hlive : s.part.mode.live = true := by
    rw [hm]
    rfl
  have hready := Part.loadReady_of (p := s.part.loadLast (headOf (s.windowMem 0x015)) { kind := k, next := 1471 })
    (h := headOf (s.windowMem 0x015)) hlive rfl hstaging hwait k
  generalize hhead : headOf (s.windowMem 0x015) = h at hread hready
  have hval : h.val = if field (s.windowMem 0x015) 0 8 ≤ 31 then field (s.windowMem 0x015) 0 8 else 0 := by
    rw [← hhead, val_headOf]
  generalize ((s.part.loadLast h { kind := k, next := 1471 }).loadServed.logNow (loadedLog k)).loadBuilt.linesTaken = q
    at hread hready
  have hserving : q.mode.serving = true := by rw [hready.mode, Part.loadedMode_serving]
  have hkept := q.loadResult_keeps k
  have hended := q.loadResult_ended k
  have hinProgress : q.notice.inProgress = s.part.notice.inProgress :=
    (congrArg Notice.inProgress hready.notice).trans rfl
  obtain ⟨hmore, hresult⟩ := Part.loadResult_entered (Mode.live_of_serving hserving) (k := k) fun hk => by
    rw [hinProgress]
    exact hprogress hk
  obtain ⟨hrestarted, hdone⟩ := Part.loadResult_ready hready
  generalize q.loadResult k = r at hread hkept hended hmore hresult hrestarted hdone
  obtain ⟨hclosed, hentries, hholds, hentered, howns⟩ :=
    Part.loadClosed_spec (p := r) (by rw [hkept.mode]; exact Mode.live_of_serving hserving) s.mem
  generalize r.loadClosed s.mem = e at hread hclosed hentries hholds hentered howns
  have hsettle := Part.settle_keeps s.part e
  have hsettled := Part.settle_entries s.part e
  have hnow := Bus.keepsButEntries_trans hentries hsettled
  have howns' := howns.trans (Part.settle_ownsAs s.part e)
  have hsettledMore := Part.settle_holdsMore s.part e
  obtain ⟨hheads, hcauses, hinProgress', htag, hstatus⟩ := Part.settle_trouble s.part e
  generalize Part.settle s.part e = t at hread hsettle hsettled hnow howns' hsettledMore hheads hcauses hinProgress' htag hstatus
  rw [hclosed.notice] at hheads hcauses hinProgress' htag hstatus
  have hshadow : ∀ i, t.shadow i = q.shadow i := fun i => (Part.shadow_of_points hsettle.points i).trans
    ((Part.shadow_of_points hclosed.points i).trans (Part.shadow_of_points hkept.points i))
  refine ⟨_, congrArg Host.Outcome.next hread, rfl, rfl, rfl, ?_, ?_, hinProgress'.trans hended,
    ⟨h, hval, fun hk => ?_, fun c hk hc => ?_⟩, fun i => ?_, fun n => ?_, ?_, ?_, ?_, ?_, ?_, fun off _ hoff => ?_, fun x hx => ?_⟩
  · rw [hsettle.mode, hclosed.mode, hkept.mode, hready.mode]
    rfl
  · rw [hsettle.mirrors, hclosed.mirrors, hkept.mirrors, hready.mirrors]
  · obtain ⟨hgot, ⟨hshown, hstate⟩, hgotHeads, hgotStaging, hgotWait⟩ := hrestarted hk
    have hstaged := hnow.1.trans hgotStaging
    refine ⟨hcauses.trans hgot, ⟨htag.trans hshown, hstatus.trans hstate⟩, hheads.trans hgotHeads, by rw [hstaged]; rfl, ?_⟩
    rw [Bus.logged, hstaged, hnow.2.2.1.trans hgotWait]
    rfl
  · obtain ⟨hgot, ⟨hshown, hstate⟩, hgotHeads, hgotStaging, hgotWait⟩ := hdone c hk hc
    have hstaged := hnow.1.trans hgotStaging
    refine ⟨⟨htag.trans hshown, hstatus.trans hstate⟩, hheads.trans hgotHeads, hcauses.trans hgot, by rw [hstaged]; rfl, ?_⟩
    rw [Bus.logged, hstaged, hnow.2.2.1.trans hgotWait]
    rfl
  · rw [hshadow]
    exact hready.shadows i
  · have hlines : t.lines = q.lines := hsettle.lines.trans (hclosed.lines.trans hkept.lines)
    rw [Part.line_of_lines hlines, hready.lines]
    rfl
  · rw [hsettle.heartbeat, hclosed.heartbeat, hkept.heartbeat, hready.heartbeat]
  · rw [hsettle.heartbeat, hclosed.heartbeat, hkept.heartbeat, hready.heartbeat]
    rfl
  · rw [hsettle.queue, hclosed.queue, hkept.queue, hready.queue]
    exact hrecords
  · exact Bus.entered_of_hasEntry (hsettledMore.1 _ (hholds.1 _ hresult))
  · exact Bus.entered_of_hasEntry (hsettledMore.1 _ (hholds.1 _ (hmore.1 _ hready.entered)))
  · have hmask : ownedMask off ≠ 0 := fun hzero => hoff (by rw [hzero]; exact BitVec.and_zero)
    have hstraps : r.straps = s.part.straps := hkept.straps.trans hready.straps
    refine Bus.entered_of_hasEntry (hsettledMore.1 _ (hentered off (mem_loadedOwned hmask) ?_))
    dsimp only at hoff
    rw [howns'.ownedWord hmask] at hoff
    rw [Part.differs, hstraps, Bool.or_eq_true]
    exact .inl (decide_eq_true hoff)
  · have hmask : ownedMask (routeOffset x.val 3) ≠ 0 := by
      simp [ownedMask, windowWord_routeState]
    have hroute : r.route x = s.part.route x := by
      have hroutes : r.routes = s.part.routes := hkept.routes.trans hready.routes
      simp only [Part.route, hroutes]
    refine Bus.entered_of_hasEntry (hsettledMore.1 _ (hentered _ (mem_loadedOwned hmask) ?_))
    simp [Part.differs, windowWord_routeState, hroute, hx]

end Sys2Proof.Machine
end

section
/-! PROOFS. The tone detector (R111, R143, R145). -/

namespace Sys2Proof.Machine

/-! ### Runs of one of the detector's three parts -/

/-- A part of the detector after a run of ms, given for each whether a tone of its band is there, and its tokens. -/
def runs {σ : Type} (step : Bool → σ → σ × Option Token) (s : σ) : List Bool → σ × List Token
  | [] => (s, [])
  | b :: bs => ((runs step (step b s).1 bs).1, (step b s).2.toList ++ (runs step (step b s).1 bs).2)

section
variable {σ : Type} {step : Bool → σ → σ × Option Token}

theorem runs_append (s : σ) (l m : List Bool) :
    runs step s (l ++ m) = ((runs step (runs step s l).1 m).1, (runs step s l).2 ++ (runs step (runs step s l).1 m).2) := by
  induction l generalizing s with
  | nil => rfl
  | cons b l ih => simp only [List.cons_append, runs, ih, List.append_assoc]

/-- A run of one segment after another. -/
theorem runs_after {s s' s'' : σ} {l m : List Bool} {ts us : List Token} (h : runs step s l = (s', ts))
    (k : runs step s' m = (s'', us)) : runs step s (l ++ m) = (s'', ts ++ us) := by
  rw [runs_append, h, k]

theorem runs_cons {s s' s'' : σ} {b : Bool} {l : List Bool} {t : Option Token} {us : List Token} (h : step b s = (s', t))
    (k : runs step s' l = (s'', us)) : runs step s (b :: l) = (s'', t.toList ++ us) := by
  rw [runs, h, k]

/-- A segment that leaves a part as it is and makes no token. -/
theorem runs_fixed {s : σ} {b : Bool} (h : step b s = (s, none)) (n : Nat) : runs step s (List.replicate n b) = (s, []) := by
  induction n with
  | zero => rfl
  | succ n ih => exact runs_cons h ih

/-- A segment one ms longer. -/
theorem runs_succ {s s' s'' : σ} {b : Bool} {n : Nat} {ts : List Token} {t : Option Token}
    (h : runs step s (List.replicate n b) = (s', ts)) (k : step b s' = (s'', t)) :
    runs step s (List.replicate (n + 1) b) = (s'', ts ++ t.toList) := by
  rw [List.replicate_succ', runs_after h (runs_cons k rfl)]
  simp [runs]

end

/-! ### The detector and its parts -/

theorem Detector.after_cons (f : Nat) (fs : List Nat) (d : Detector) :
    d.after (f :: fs) = (((d.tick f).1.after fs).1, (d.tick f).2 ++ ((d.tick f).1.after fs).2) := by
  have hgeneral : ∀ (l : List Nat) (e : Detector) (ts : List Token),
      l.foldl (fun e f => let x := e.1.tick f; (x.1, e.2 ++ x.2)) (e, ts) = ((e.after l).1, ts ++ (e.after l).2) := by
    intro l
    induction l with
    | nil => intro e ts; simp [Detector.after]
    | cons g l ih =>
      intro e ts
      have hfirst : e.after (g :: l) = l.foldl (fun e f => let x := e.1.tick f; (x.1, e.2 ++ x.2)) ((e.tick g).1, (e.tick g).2) := rfl
      rw [hfirst, ih, List.foldl_cons]
      simp only
      rw [ih, List.append_assoc]
  exact hgeneral fs (d.tick f).1 (d.tick f).2

/-- What a detector recognises of a token, by the part that recognises it. -/
theorem heard_of_part {σ : Type} {step : Bool → σ → σ × Option Token} {part : Detector → σ} {band : Nat → Bool} {t : Token}
    (hstate : ∀ f d, part (d.tick f).1 = (step (band f) (part d)).1)
    (htoken : ∀ f d, (d.tick f).2.count t = (step (band f) (part d)).2.toList.count t) (tones : List (Nat × Nat)) :
    heard t tones =
      (runs step (part Detector.empty) (tones.flatMap fun x => List.replicate x.2 (band x.1))).2.count t := by
  have hrun : ∀ (fs : List Nat) (d : Detector), (d.after fs).2.count t = (runs step (part d) (fs.map band)).2.count t := by
    intro fs
    induction fs with
    | nil => exact fun _ => rfl
    | cons f fs ih =>
      intro d
      rw [Detector.after_cons, List.map_cons, runs, List.count_append, List.count_append, htoken, ih, hstate]
  rw [heard, hrun, List.map_flatMap]
  simp only [List.map_replicate]

theorem count_tokens (a b c : Option Token) (t : Token) :
    ([a, b, c].filterMap id).count t = a.toList.count t + b.toList.count t + c.toList.count t := by
  cases a <;> cases b <;> cases c <;> simp [List.count_cons, Nat.add_comm, Nat.add_left_comm]

theorem count_of_ne {o : Option Token} {t : Token} (h : o ≠ some t) : o.toList.count t = 0 := by
  cases o with
  | none => rfl
  | some x => exact List.count_eq_zero.mpr (by simpa [eq_comm] using h)

theorem Detector.tick_tokens (f : Nat) (d : Detector) : (d.tick f).2 =
    [(d.lowTick (inLowBand f)).2, ((d.lowTick (inLowBand f)).1.readyTick (inReadyBand f)).2,
      (((d.lowTick (inLowBand f)).1.readyTick (inReadyBand f)).1.burst.tick (inBurstBand f)).2].filterMap id := rfl

theorem ite_some_ne {c : Prop} [Decidable c] {x t : Token} (h : t ≠ x) : (if c then some x else none) ≠ some t := by
  split
  · exact fun heq => h (Option.some.inj heq).symm
  · exact nofun

theorem Detector.lowTick_token {b : Bool} {d : Detector} {t : Token} (ht : t ≠ .dialTone ∧ t ≠ .busy) :
    (d.lowTick b).2 ≠ some t := by
  unfold Detector.lowTick
  split
  · exact ite_some_ne ht.1
  split
  · exact nofun
  · exact ite_some_ne ht.2

theorem Detector.readyTick_token {b : Bool} {d : Detector} {t : Token} (ht : t ≠ .ready ∧ t ≠ .readyStopped) :
    (d.readyTick b).2 ≠ some t := by
  unfold Detector.readyTick
  split
  · exact ite_some_ne ht.1
  · exact ite_some_ne ht.2

theorem ackOf_ne {n : Nat} {t : Token} (ht : t ≠ .ack) : ackOf n ≠ some t := by
  exact ite_some_ne ht

theorem BurstMeasure.tick_token {b : Bool} {m : BurstMeasure} {t : Token} (ht : t ≠ .ack ∧ t ≠ .repeatToken) :
    (m.tick b).2 ≠ some t := by
  cases m with
  | first n =>
    simp only [BurstMeasure.tick]
    split
    · exact nofun
    · split <;> exact nofun
  | gap n s k =>
    simp only [BurstMeasure.tick]
    split
    · exact nofun
    split
    · exact ackOf_ne ht.1
    · exact nofun
  | second n k =>
    simp only [BurstMeasure.tick]
    split
    · exact nofun
    · exact ite_some_ne ht.2
  | _ => exact nofun

/-- The measurements of DIAL_TONE and BUSY alone. -/
def Detector.low (d : Detector) : Detector :=
  { Detector.empty with lowTone := d.lowTone, lowSilence := d.lowSilence, onPeriods := d.onPeriods }

/-- The measurements of READY alone. -/
def Detector.readyPart (d : Detector) : Detector :=
  { Detector.empty with readyTone := d.readyTone, readySilence := d.readySilence }

theorem Detector.lowTick_low (b : Bool) (d : Detector) :
    (d.low.lowTick b).1 = (d.lowTick b).1.low ∧ (d.low.lowTick b).2 = (d.lowTick b).2 := by
  unfold Detector.lowTick Detector.low
  cases b with
  | true => exact ⟨rfl, rfl⟩
  | false =>
    by_cases h : d.lowTone = 0
    · simp [h]
    · simp [h]

theorem Detector.readyTick_readyPart (b : Bool) (d : Detector) :
    (d.readyPart.readyTick b).1 = (d.readyTick b).1.readyPart ∧ (d.readyPart.readyTick b).2 = (d.readyTick b).2 := by
  cases b <;> exact ⟨rfl, rfl⟩

theorem Detector.readyTick_low (b : Bool) (d : Detector) : (d.readyTick b).1.low = d.low ∧ (d.readyTick b).1.burst = d.burst := by
  cases b <;> exact ⟨rfl, rfl⟩

theorem Detector.lowTick_readyPart (b : Bool) (d : Detector) :
    (d.lowTick b).1.readyPart = d.readyPart ∧ (d.lowTick b).1.burst = d.burst := by
  unfold Detector.lowTick
  cases b with
  | true => exact ⟨rfl, rfl⟩
  | false =>
    by_cases h : d.lowTone = 0
    · simp [h, Detector.readyPart]
    · simp [h, Detector.readyPart]

/-- DIAL_TONE and BUSY are heard by the low band alone. -/
theorem heard_low {t : Token} (ht : t = .dialTone ∨ t = .busy) (tones : List (Nat × Nat)) : heard t tones =
    (runs (fun b d => Detector.lowTick b d) Detector.empty
      (tones.flatMap fun x => List.replicate x.2 (inLowBand x.1))).2.count t := by
  have hready : t ≠ .ready ∧ t ≠ .readyStopped := by rcases ht with rfl | rfl <;> decide
  have hburst : t ≠ .ack ∧ t ≠ .repeatToken := by rcases ht with rfl | rfl <;> decide
  refine heard_of_part (part := Detector.low) (fun f d => ?_) (fun f d => ?_) tones
  · rw [(d.lowTick_low _).1]
    exact (Detector.readyTick_low _ _).1
  · rw [Detector.tick_tokens, count_tokens, count_of_ne (Detector.readyTick_token hready),
      count_of_ne (BurstMeasure.tick_token hburst), (d.lowTick_low _).2]
    rfl

theorem heard_ready (tones : List (Nat × Nat)) : heard .ready tones =
    (runs (fun b d => Detector.readyTick b d) Detector.empty
      (tones.flatMap fun x => List.replicate x.2 (inReadyBand x.1))).2.count .ready := by
  refine heard_of_part (part := Detector.readyPart) (fun f d => ?_) (fun f d => ?_) tones
  · rw [← (d.lowTick_readyPart (inLowBand f)).1, (Detector.readyTick_readyPart _ _).1]
    rfl
  · rw [Detector.tick_tokens, count_tokens, count_of_ne (Detector.lowTick_token (by decide)),
      count_of_ne (BurstMeasure.tick_token (by decide)), ← (d.lowTick_readyPart (inLowBand f)).1,
      (Detector.readyTick_readyPart _ _).2, Nat.zero_add, Nat.add_zero]

/-- ACK and REPEAT are heard by the burst band alone. -/
theorem heard_burst {t : Token} (ht : t = .ack ∨ t = .repeatToken) (tones : List (Nat × Nat)) : heard t tones =
    (runs BurstMeasure.tick .quiet (tones.flatMap fun x => List.replicate x.2 (inBurstBand x.1))).2.count t := by
  have hready : t ≠ .ready ∧ t ≠ .readyStopped := by rcases ht with rfl | rfl <;> decide
  have hlow : t ≠ .dialTone ∧ t ≠ .busy := by rcases ht with rfl | rfl <;> decide
  have hburst : ∀ f (d : Detector), ((d.lowTick (inLowBand f)).1.readyTick (inReadyBand f)).1.burst = d.burst := fun f d => by
    rw [(Detector.readyTick_low _ _).2, (d.lowTick_readyPart _).2]
  refine heard_of_part (part := Detector.burst) (fun f d => ?_) (fun f d => ?_) tones
  · rw [← hburst f d]
    rfl
  · rw [Detector.tick_tokens, count_tokens, count_of_ne (Detector.lowTick_token hlow),
      count_of_ne (Detector.readyTick_token hready), hburst]
    simp

end Sys2Proof.Machine
end

section
/-! PROOFS. The tokens by the lengths of their tones and silences (R111). -/

namespace Sys2Proof.Machine

/-! ### DIAL_TONE and BUSY -/

/-- The part of the detector that measures DIAL_TONE and BUSY. -/
abbrev lowRuns (d : Detector) (l : List Bool) : Detector × List Token := runs (fun b d => Detector.lowTick b d) d l

def lowAt (tone silence periods : Nat) : Detector :=
  { Detector.empty with lowTone := tone, lowSilence := silence, onPeriods := periods }

/-- The on-periods counted after a tone of a length that follows a silence of a length (R111). -/
def periodsAfter (silence periods length : Nat) : Nat :=
  if busyLength length then (if busyLength silence then periods else 0) + 1 else 0

theorem lowRuns_on {k o : Nat} (hk : 1 ≤ k) (n : Nat) : lowRuns (lowAt k 0 o) (List.replicate n true) =
    (lowAt (k + n) 0 o, if k < 700 ∧ 700 ≤ k + n then [.dialTone] else []) := by
  induction n with
  | zero =>
    rw [if_neg (by omega)]
    rfl
  | succ n ih =>
    have hstep : Detector.lowTick true (lowAt (k + n) 0 o) =
        (lowAt (k + (n + 1)) 0 o, if k + n + 1 = 700 then some .dialTone else none) := by
      have hfresh : (k + n == 0) = false := by simpa using by omega
      simp [Detector.lowTick, lowAt, hfresh, Nat.add_assoc]
    refine (runs_succ ih hstep).trans ?_
    by_cases hnow : k + n + 1 = 700
    · rw [if_pos hnow, if_neg (by omega), if_pos (by omega)]
      rfl
    · rw [if_neg hnow]
      by_cases hbefore : k < 700 ∧ 700 ≤ k + n
      · rw [if_pos hbefore, if_pos (by omega)]
        rfl
      · rw [if_neg hbefore, if_neg (by omega)]
        rfl

/-- A tone of the low band that begins. -/
theorem lowRuns_tone {n : Nat} (hn : 1 ≤ n) (s o : Nat) : lowRuns (lowAt 0 s o) (List.replicate n true) =
    (lowAt n 0 (if busyLength s then o else 0), if 700 ≤ n then [.dialTone] else []) := by
  obtain ⟨m, rfl⟩ : ∃ m, n = m + 1 := ⟨n - 1, by omega⟩
  have hfirst : Detector.lowTick true (lowAt 0 s o) = (lowAt 1 0 (if busyLength s then o else 0), none) := by
    cases h : busyLength s <;> simp [Detector.lowTick, lowAt, h]
  rw [List.replicate_succ, lowRuns, runs_cons hfirst (lowRuns_on (Nat.le_refl 1) m), Nat.add_comm 1 m]
  simp

theorem lowRuns_quiet (s o n : Nat) : lowRuns (lowAt 0 s o) (List.replicate n false) = (lowAt 0 (s + n) o, []) := by
  induction n with
  | zero => rfl
  | succ n ih => exact runs_succ ih rfl

/-- A tone of the low band and the silence behind it. -/
theorem lowRuns_pair {n x : Nat} (hn : 1 ≤ n) (hx : 1 ≤ x) (s o : Nat) :
    lowRuns (lowAt 0 s o) (List.replicate n true ++ List.replicate x false) =
      (lowAt 0 x (if periodsAfter s o n = 3 then 0 else periodsAfter s o n),
        (if 700 ≤ n then [.dialTone] else []) ++ if periodsAfter s o n = 3 then [.busy] else []) := by
  obtain ⟨y, rfl⟩ : ∃ y, x = y + 1 := ⟨x - 1, by omega⟩
  have hend : Detector.lowTick false (lowAt n 0 (if busyLength s then o else 0)) =
      (lowAt 0 1 (if periodsAfter s o n = 3 then 0 else periodsAfter s o n),
        if periodsAfter s o n = 3 then some .busy else none) := by
    have hne : n ≠ 0 := by omega
    unfold Detector.lowTick
    rw [if_neg (by decide)]
    exact (if_neg hne).trans rfl
  have hsilence := runs_cons hend (lowRuns_quiet 1 (if periodsAfter s o n = 3 then 0 else periodsAfter s o n) y)
  rw [List.replicate_succ, lowRuns, runs_after (lowRuns_tone hn s o) hsilence, Nat.add_comm 1 y]
  split <;> simp

theorem count_dialTone (n : Nat) : (if 700 ≤ n then [Token.dialTone] else []).count .busy = 0 := by
  split <;> rfl

theorem count_busy (k : Nat) : (if k = 3 then [Token.busy] else []).count .busy = if k = 3 then 1 else 0 := by
  split <;> rfl

/-! ### READY -/

abbrev readyRuns (d : Detector) (l : List Bool) : Detector × List Token := runs (fun b d => Detector.readyTick b d) d l

def readyAt (tone : Nat) : Detector := { Detector.empty with readyTone := tone }

theorem readyRuns_on (n : Nat) : readyRuns (readyAt 0) (List.replicate n true) =
    (readyAt n, if 400 ≤ n then [.ready] else []) := by
  induction n with
  | zero => rfl
  | succ n ih =>
    have hstep : Detector.readyTick true (readyAt n) = (readyAt (n + 1), if n + 1 = 400 then some .ready else none) := rfl
    refine (runs_succ ih hstep).trans ?_
    by_cases hnow : n + 1 = 400
    · rw [if_pos hnow, if_neg (by omega), if_pos (by omega)]
      rfl
    · rw [if_neg hnow]
      by_cases hbefore : 400 ≤ n
      · rw [if_pos hbefore, if_pos (by omega)]
        rfl
      · rw [if_neg hbefore, if_neg (by omega)]
        rfl

/-! ### ACK and REPEAT -/

abbrev burstRuns (m : BurstMeasure) (l : List Bool) : BurstMeasure × List Token := runs BurstMeasure.tick m l

theorem burstRuns_quiet (n : Nat) : burstRuns .quiet (List.replicate n false) = (.quiet, []) := runs_fixed rfl n

theorem burstRuns_over (n : Nat) : burstRuns .over (List.replicate n true) = (.over, []) := runs_fixed rfl n

/-- A first burst of a length (R111). -/
def firstBurst (n : Nat) : BurstMeasure := if n ≤ 900 then .first n else .over

theorem burstRuns_first {n : Nat} (hn : 1 ≤ n) : burstRuns .quiet (List.replicate n true) = (firstBurst n, []) := by
  obtain ⟨m, rfl⟩ : ∃ m, n = m + 1 := ⟨n - 1, by omega⟩
  clear hn
  induction m with
  | zero => rfl
  | succ m ih =>
    refine runs_succ (t := none) ih ?_
    unfold firstBurst
    by_cases hnow : m + 1 + 1 ≤ 900
    · rw [if_pos (by omega), if_pos hnow]
      exact congrArg (·, none) (if_neg (by omega))
    · rw [if_neg hnow]
      by_cases hbefore : m + 1 ≤ 900
      · rw [if_pos hbefore]
        exact congrArg (·, none) (if_pos (by omega))
      · rw [if_neg hbefore]
        rfl

/-- A silence after a burst, in which a shorter one may have begun (R111). -/
theorem burstRuns_gap {n s t m : Nat} (hm : 1 ≤ m) : burstRuns (.gap n s t) (List.replicate m false) =
    if s + t + m < 300 then (.gap n (s + t + m) 0, []) else (.quiet, (ackOf n).toList) := by
  induction m, hm using Nat.le_induction generalizing s t with
  | base =>
    by_cases hend : 300 ≤ s + t + 1
    · rw [if_neg (by omega)]
      have hstep : BurstMeasure.tick false (.gap n s t) = (.quiet, ackOf n) := by
        simp [BurstMeasure.tick, hend]
      exact (runs_cons hstep rfl).trans (by simp [runs])
    · rw [if_pos (by omega)]
      have hstep : BurstMeasure.tick false (.gap n s t) = (.gap n (s + t + 1) 0, none) := by
        simp [BurstMeasure.tick, hend]
      exact runs_cons hstep rfl
  | succ m hm ih =>
    rw [List.replicate_succ]
    by_cases hend : 300 ≤ s + t + 1
    · rw [if_neg (by omega)]
      have hstep : BurstMeasure.tick false (.gap n s t) = (.quiet, ackOf n) := by
        simp [BurstMeasure.tick, hend]
      exact (runs_cons hstep (burstRuns_quiet m)).trans (by simp)
    · have hstep : BurstMeasure.tick false (.gap n s t) = (.gap n (s + t + 1) 0, none) := by
        simp [BurstMeasure.tick, hend]
      have hsum : s + t + 1 + 0 + m = s + t + (m + 1) := by omega
      have hrest := ih (s := s + t + 1) (t := 0)
      rw [hsum] at hrest
      by_cases hin : s + t + (m + 1) < 300
      · rw [if_pos hin] at hrest ⊢
        exact runs_cons hstep hrest
      · rw [if_neg hin] at hrest ⊢
        exact runs_cons hstep hrest

/-- A burst that its silence makes no measurement of (R111). -/
abbrev noMeasure (n : Nat) : Prop := n < 40 ∨ (300 ≤ n ∧ n ≤ 399)

theorem burstRuns_none {n : Nat} (h : noMeasure n) {m : Nat} (hm : 1 ≤ m) :
    burstRuns (.first n) (List.replicate m false) = (.quiet, []) := by
  obtain ⟨k, rfl⟩ : ∃ k, m = k + 1 := ⟨m - 1, by omega⟩
  have hstep : BurstMeasure.tick false (.first n) = (.quiet, none) := by
    simp only [BurstMeasure.tick, Bool.false_eq_true, if_false]
    exact if_pos h
  exact runs_cons hstep (burstRuns_quiet k)

/-- The silence after a burst that is measured. -/
theorem burstRuns_silence {n : Nat} (h : ¬ noMeasure n) {m : Nat} (hm : 1 ≤ m) :
    burstRuns (.first n) (List.replicate m false) =
      if m < 300 then (.gap n m 0, []) else (.quiet, (ackOf n).toList) := by
  have hstep : BurstMeasure.tick false (.first n) = (.gap n 1 0, none) := by
    simp only [BurstMeasure.tick, Bool.false_eq_true, if_false]
    exact if_neg h
  obtain ⟨k, rfl⟩ : ∃ k, m = k + 1 := ⟨m - 1, by omega⟩
  by_cases hk : k = 0
  · subst hk
    exact runs_cons hstep rfl
  · have hrest := burstRuns_gap (n := n) (s := 1) (t := 0) (by omega : 1 ≤ k)
    have hsum : 1 + 0 + k = k + 1 := by omega
    rw [hsum] at hrest
    by_cases hin : k + 1 < 300
    · rw [if_pos hin] at hrest ⊢
      exact runs_cons hstep hrest
    · rw [if_neg hin] at hrest ⊢
      exact runs_cons hstep hrest

theorem burstRuns_overEnd {m : Nat} (hm : 1 ≤ m) : burstRuns .over (List.replicate m false) = (.quiet, []) := by
  obtain ⟨k, rfl⟩ : ∃ k, m = k + 1 := ⟨m - 1, by omega⟩
  exact runs_cons (t := none) rfl (burstRuns_quiet k)

/-- A second tone in the silence after a burst (R111). -/
def secondBurst (n s t : Nat) : BurstMeasure := if t < 40 then .gap n s t else if t ≤ 900 then .second n t else .over

theorem burstRuns_second (n s t : Nat) : burstRuns (.gap n s 0) (List.replicate t true) = (secondBurst n s t, []) := by
  induction t with
  | zero => rfl
  | succ t ih =>
    refine runs_succ (t := none) ih ?_
    unfold secondBurst
    by_cases hshort : t + 1 < 40
    · rw [if_pos (by omega), if_pos hshort]
      exact congrArg (·, none) (if_neg (by omega))
    rw [if_neg hshort]
    by_cases hnow : t + 1 ≤ 900
    · rw [if_pos hnow]
      by_cases hbefore : t < 40
      · rw [if_pos hbefore]
        exact congrArg (·, none) (if_pos (by omega))
      · rw [if_neg hbefore, if_pos (by omega)]
        exact congrArg (·, none) (if_neg (by omega))
    · rw [if_neg hnow, if_neg (by omega)]
      by_cases hbefore : t ≤ 900
      · rw [if_pos hbefore]
        exact congrArg (·, none) (if_pos (by omega))
      · rw [if_neg hbefore]
        rfl

theorem burstRuns_secondEnd {n t m : Nat} (hm : 1 ≤ m) : burstRuns (.second n t) (List.replicate m false) =
    (.quiet, if n < 300 ∧ t < 300 then [.repeatToken] else []) := by
  obtain ⟨k, rfl⟩ : ∃ k, m = k + 1 := ⟨m - 1, by omega⟩
  have hstep : BurstMeasure.tick false (.second n t) = (.quiet, if n < 300 ∧ t < 300 then some .repeatToken else none) := rfl
  refine (runs_cons hstep (burstRuns_quiet k)).trans ?_
  split <;> rfl

/-! ### A burst and its silence -/

/-- A burst that its silence makes a measurement of (R111). -/
abbrev measured (n : Nat) : Prop := n ≤ 900 ∧ ¬ noMeasure n

theorem burstRuns_unmeasured {n m : Nat} (hn : 1 ≤ n) (hm : 1 ≤ m) (h : ¬ measured n) :
    burstRuns .quiet (List.replicate n true ++ List.replicate m false) = (.quiet, []) := by
  refine runs_after (burstRuns_first hn) ?_
  unfold firstBurst
  by_cases hlong : n ≤ 900
  · rw [if_pos hlong]
    exact burstRuns_none (by_contra fun hnone => h ⟨hlong, hnone⟩) hm
  · rw [if_neg hlong]
    exact burstRuns_overEnd hm

theorem burstRuns_measured {n m : Nat} (hn : 1 ≤ n) (hm : 1 ≤ m) (h : measured n) :
    burstRuns .quiet (List.replicate n true ++ List.replicate m false) =
      if m < 300 then (.gap n m 0, []) else (.quiet, (ackOf n).toList) := by
  rw [burstRuns, runs_after (ts := []) (burstRuns_first hn) ((congrArg (fun b => runs BurstMeasure.tick b _)
    (if_pos h.1)).trans (burstRuns_silence h.2 hm))]
  rfl

/-- ACK: 400 to 900 ms, and 300 ms of silence (R111). -/
theorem ack_count (n m : Nat) : (burstRuns .quiet (List.replicate n true ++ List.replicate m false)).2.count .ack =
    if 400 ≤ n ∧ n ≤ 900 ∧ 300 ≤ m then 1 else 0 := by
  by_cases hn : n = 0
  · subst hn
    rw [List.replicate_zero, List.nil_append, burstRuns_quiet, if_neg (by omega)]
    rfl
  by_cases hm : m = 0
  · subst hm
    rw [List.replicate_zero, List.append_nil, burstRuns_first (by omega), if_neg (by omega)]
    rfl
  by_cases hmeasured : measured n
  · rw [burstRuns_measured (by omega) (by omega) hmeasured]
    by_cases hgap : m < 300
    · rw [if_pos hgap, if_neg (by omega)]
      rfl
    · rw [if_neg hgap, ackOf]
      by_cases hlong : 400 ≤ n
      · rw [if_pos hlong, if_pos ⟨hlong, hmeasured.1, by omega⟩]
        rfl
      · rw [if_neg hlong, if_neg (by omega)]
        rfl
  · rw [burstRuns_unmeasured (by omega) (by omega) hmeasured, if_neg (by unfold measured noMeasure at hmeasured; omega)]
    rfl

/-- A short tone in the silence after an ACK burst does not break the silence (R111). -/
theorem ack_interrupted {n x k y : Nat} (hn : 400 ≤ n) (hn' : n ≤ 900) (hx : 1 ≤ x) (hk : 1 ≤ k) (hk' : k < 40) (hy : 1 ≤ y)
    (hsum : 300 ≤ x + k + y) : (burstRuns .quiet ((List.replicate n true ++ List.replicate x false) ++
      (List.replicate k true ++ List.replicate y false))).2 = [.ack] := by
  have hack : ackOf n = some .ack := if_pos hn
  have hfirst := burstRuns_measured (n := n) (by omega) hx ⟨hn', by unfold noMeasure; omega⟩
  by_cases hgap : x < 300
  · rw [if_pos hgap] at hfirst
    have hshort : secondBurst n x k = .gap n x k := if_pos hk'
    have hrest := burstRuns_gap (n := n) (s := x) (t := k) hy
    rw [if_neg (by omega), ← hshort] at hrest
    rw [burstRuns, runs_after hfirst (runs_after (burstRuns_second n x k) hrest), hack]
    rfl
  · rw [if_neg hgap] at hfirst
    have hrest := burstRuns_unmeasured hk hy (by unfold measured noMeasure; omega)
    rw [burstRuns, runs_after hfirst hrest, hack]
    rfl

/-- A burst and its silence, where the burst makes no measurement or the silence has ended it. -/
theorem oneBurst_alone {a m : Nat} (ha : 1 ≤ a) (hm : 1 ≤ m) (h : ¬ measured a ∨ 300 ≤ m) : ∃ ts, ts ⊆ [Token.ack] ∧
    burstRuns .quiet (List.replicate a true ++ List.replicate m false) = (.quiet, ts) := by
  by_cases hmeasured : measured a
  · have hrun := burstRuns_measured ha hm hmeasured
    rw [if_neg (by have := h.resolve_left (not_not_intro hmeasured); omega)] at hrun
    refine ⟨_, ?_, hrun⟩
    unfold ackOf
    split
    · exact List.Subset.refl _
    · exact List.nil_subset _
  · exact ⟨[], List.nil_subset _, burstRuns_unmeasured ha hm hmeasured⟩

/-- A second tone after a first burst that is still measured, and a ms of silence (R111). -/
theorem repeat_count_open {a m b : Nat} (ha : 1 ≤ a) (hm : 1 ≤ m) (hb : 1 ≤ b) (hmeasured : measured a) (hlt : m < 300) :
    (burstRuns .quiet ((List.replicate a true ++ List.replicate m false) ++
      (List.replicate b true ++ List.replicate 1 false))).2.count .repeatToken =
      if a ≤ 299 ∧ 40 ≤ b ∧ b ≤ 299 then 1 else 0 := by
  have hfirst := burstRuns_measured ha hm hmeasured
  rw [if_pos hlt] at hfirst
  by_cases hshort : b < 40
  · have hsecond : secondBurst a m b = .gap a m b := if_pos hshort
    have hrest := burstRuns_gap (n := a) (s := m) (t := b) (Nat.le_refl 1)
    rw [← hsecond] at hrest
    rw [if_neg (by omega)]
    by_cases hin : m + b + 1 < 300
    · rw [if_pos hin] at hrest
      exact congrArg (·.2.count Token.repeatToken) (runs_after hfirst (runs_after (burstRuns_second a m b) hrest))
    · rw [if_neg hin] at hrest
      refine (congrArg (·.2.count Token.repeatToken)
        (runs_after hfirst (runs_after (burstRuns_second a m b) hrest))).trans ?_
      exact count_of_ne (ackOf_ne (by decide))
  by_cases hmiddle : b ≤ 900
  · have hsecond : secondBurst a m b = .second a b := (if_neg hshort).trans (if_pos hmiddle)
    have hrest := burstRuns_secondEnd (n := a) (t := b) (Nat.le_refl 1)
    rw [← hsecond] at hrest
    refine (congrArg (·.2.count Token.repeatToken) (runs_after hfirst (runs_after (burstRuns_second a m b) hrest))).trans ?_
    by_cases hboth : a < 300 ∧ b < 300
    · rw [if_pos hboth, if_pos (by omega)]
      rfl
    · rw [if_neg hboth, if_neg (by omega)]
      rfl
  · have hsecond : secondBurst a m b = .over := (if_neg hshort).trans (if_neg hmiddle)
    have hrest := burstRuns_overEnd (Nat.le_refl 1)
    rw [← hsecond] at hrest
    rw [if_neg (by omega)]
    exact congrArg (·.2.count Token.repeatToken) (runs_after hfirst (runs_after (burstRuns_second a m b) hrest))

/-- A burst and a ms of silence make no token. -/
theorem burstRuns_short {b : Nat} (hb : 1 ≤ b) :
    (burstRuns .quiet (List.replicate b true ++ List.replicate 1 false)).2 = [] := by
  by_cases hmeasured : measured b
  · exact congrArg Prod.snd (burstRuns_measured hb (Nat.le_refl 1) hmeasured)
  · exact congrArg Prod.snd (burstRuns_unmeasured hb (Nat.le_refl 1) hmeasured)

/-- REPEAT: two bursts of 40 to 299 ms within 300 ms (R111). -/
theorem repeat_count {a m b : Nat} (ha : 1 ≤ a) (hm : 1 ≤ m) (hb : 1 ≤ b) :
    (burstRuns .quiet ((List.replicate a true ++ List.replicate m false) ++
      (List.replicate b true ++ List.replicate 1 false))).2.count .repeatToken =
      if 40 ≤ a ∧ a ≤ 299 ∧ m < 300 ∧ 40 ≤ b ∧ b ≤ 299 then 1 else 0 := by
  by_cases hgap : measured a ∧ m < 300
  · obtain ⟨hmeasured, hlt⟩ := hgap
    rw [repeat_count_open ha hm hb hmeasured hlt]
    have hlow : 40 ≤ a := by
      unfold measured noMeasure at hmeasured
      omega
    simp only [hlow, hlt, true_and]
  · obtain ⟨ts, hts, hfirst⟩ := oneBurst_alone ha hm (by
      by_cases h : measured a
      · exact .inr (by have := fun hlt => hgap ⟨h, hlt⟩; omega)
      · exact .inl h)
    have hnone : Token.repeatToken ∉ ts := fun hin => by simpa using hts hin
    unfold burstRuns at hfirst ⊢
    rw [runs_append, hfirst]
    refine (List.count_append).trans ?_
    rw [List.count_eq_zero.mpr hnone, burstRuns_short hb, if_neg (by unfold measured noMeasure at hgap; omega)]
    rfl

/-- A second burst of 40 ms or more leaves the first one no ACK (R111). -/
theorem noAck_second {a m b : Nat} (ha : 1 ≤ a) (hm : 1 ≤ m) (hlt : m < 300) (hb : 40 ≤ b) :
    (burstRuns .quiet ((List.replicate a true ++ List.replicate m false) ++ List.replicate b true)).2 = [] ∧
    (b < 400 → ∀ z, (burstRuns .quiet ((List.replicate a true ++ List.replicate m false) ++
      (List.replicate b true ++ List.replicate z false))).2.count .ack = 0) := by
  by_cases hmeasured : measured a
  · have hfirst := burstRuns_measured ha hm hmeasured
    rw [if_pos hlt] at hfirst
    refine ⟨congrArg Prod.snd (runs_after hfirst (burstRuns_second a m b)), fun hb' z => ?_⟩
    have hsecond : secondBurst a m b = .second a b := (if_neg (by omega)).trans (if_pos (by omega))
    by_cases hz : z = 0
    · subst hz
      rw [List.replicate_zero, List.append_nil]
      exact congrArg (·.2.count Token.ack) (runs_after hfirst (burstRuns_second a m b))
    · have hrest := burstRuns_secondEnd (n := a) (t := b) (by omega : 1 ≤ z)
      rw [← hsecond] at hrest
      refine (congrArg (·.2.count Token.ack) (runs_after hfirst (runs_after (burstRuns_second a m b) hrest))).trans ?_
      split <;> rfl
  · have hfirst := burstRuns_unmeasured ha hm hmeasured
    refine ⟨congrArg Prod.snd (runs_after hfirst (burstRuns_first (by omega))), fun hb' z => ?_⟩
    unfold burstRuns at hfirst ⊢
    rw [runs_append, hfirst]
    refine (ack_count b z).trans (if_neg (by omega))

end Sys2Proof.Machine
end

section
/-! PROOFS. The tokens heard in given tones, and when the detector listens (R111). -/

namespace Sys2Proof.Machine

theorem inLowBand_zero : inLowBand 0 = false := rfl

theorem inBurstBand_zero : inBurstBand 0 = false := rfl

theorem inLowBand_of {f : Nat} (h : 300 ≤ f) (h' : f ≤ 500) : inLowBand f = true := by simp [inLowBand, h, h']

theorem inReadyBand_of {f : Nat} (h : 1365 ≤ f) (h' : f ≤ 1435) : inReadyBand f = true := by simp [inReadyBand, h, h']

theorem inBurstBand_of {f : Nat} (h : 2240 ≤ f) (h' : f ≤ 2360) : inBurstBand f = true := by simp [inBurstBand, h, h']

/-- The ms of some tones, in which a band is there or not. -/
def msOf (band : Nat → Bool) (tones : List (Nat × Nat)) : List Bool := tones.flatMap fun x => List.replicate x.2 (band x.1)

@[simp] theorem msOf_nil (band : Nat → Bool) : msOf band [] = [] := rfl

@[simp] theorem msOf_cons (band : Nat → Bool) (f n : Nat) (tones : List (Nat × Nat)) :
    msOf band ((f, n) :: tones) = List.replicate n (band f) ++ msOf band tones := rfl

/-! ### BUSY -/

theorem busyLength_iff (n : Nat) : busyLength n = true ↔ 150 ≤ n ∧ n ≤ 650 := by simp [busyLength]

/-- The on-periods counted after a tone that no BUSY precedes and that ends (R111). -/
theorem periodsAfter_le (s o n : Nat) : periodsAfter s o n ≤ o + 1 := by
  unfold periodsAfter
  by_cases hn : busyLength n <;> by_cases hs : busyLength s <;> simp [hn, hs]

theorem periodsAfter_eq_succ {s o n k : Nat} (ho : o ≤ k) :
    periodsAfter s o n = k + 1 ↔ busyLength n = true ∧ (k = 0 ∨ busyLength s = true) ∧ o = k := by
  unfold periodsAfter
  by_cases hn : busyLength n <;> by_cases hs : busyLength s <;> simp [hn, hs]
  all_goals omega

/-- The on-periods counted over the first two tones. -/
def periodsOfTwo (a x b : Nat) : Nat := periodsAfter x (periodsAfter 0 0 a) b

theorem periodsOfTwo_lt (a x b : Nat) : periodsAfter 0 0 a < 3 ∧ periodsOfTwo a x b < 3 := by
  have hone := periodsAfter_le 0 0 a
  have htwo := periodsAfter_le x (periodsAfter 0 0 a) b
  unfold periodsOfTwo
  omega

/-- Two tones of the low band and their silences give no BUSY. -/
theorem lowRuns_two {a x b y : Nat} (ha : 1 ≤ a) (hx : 1 ≤ x) (hb : 1 ≤ b) (hy : 1 ≤ y) : ∃ ts, ts.count Token.busy = 0 ∧
    lowRuns Detector.empty ((List.replicate a true ++ List.replicate x false) ++ (List.replicate b true ++ List.replicate y false)) =
      (lowAt 0 y (periodsOfTwo a x b), ts) := by
  obtain ⟨hone, htwo⟩ := periodsOfTwo_lt a x b
  have hfirst := lowRuns_pair ha hx 0 0
  rw [if_neg (c := periodsAfter 0 0 a = 3) (by omega), if_neg (c := periodsAfter 0 0 a = 3) (by omega)] at hfirst
  have hsecond := lowRuns_pair hb hy x (periodsAfter 0 0 a)
  rw [← periodsOfTwo, if_neg (c := periodsOfTwo a x b = 3) (by omega), if_neg (c := periodsOfTwo a x b = 3) (by omega)] at hsecond
  refine ⟨_, ?_, runs_after hfirst hsecond⟩
  simp only [List.append_nil, List.count_append, count_dialTone]

/-- A third tone has not yet given BUSY, and its end gives it where all five lengths are within the limits (R111). -/
theorem busy_count {a x b y c : Nat} (ha : 1 ≤ a) (hx : 1 ≤ x) (hb : 1 ≤ b) (hy : 1 ≤ y) (hc : 1 ≤ c) :
    (lowRuns Detector.empty (((List.replicate a true ++ List.replicate x false) ++
      (List.replicate b true ++ List.replicate y false)) ++ List.replicate c true)).2.count .busy = 0 ∧
    (lowRuns Detector.empty (((List.replicate a true ++ List.replicate x false) ++
      (List.replicate b true ++ List.replicate y false)) ++ (List.replicate c true ++ List.replicate 1 false))).2.count .busy =
        if periodsAfter y (periodsOfTwo a x b) c = 3 then 1 else 0 := by
  obtain ⟨ts, hts, htwo⟩ := lowRuns_two ha hx hb hy
  constructor
  · refine (congrArg (·.2.count Token.busy) (runs_after htwo (lowRuns_tone hc y (periodsOfTwo a x b)))).trans ?_
    exact List.count_append.trans (by rw [hts, count_dialTone])
  · refine (congrArg (·.2.count Token.busy)
      (runs_after htwo (lowRuns_pair hc (Nat.le_refl 1) y (periodsOfTwo a x b)))).trans ?_
    refine List.count_append.trans ?_
    rw [hts, List.count_append, count_dialTone, count_busy, Nat.zero_add, Nat.zero_add]

theorem periods_three_iff (a x b y c : Nat) : periodsAfter y (periodsOfTwo a x b) c = 3 ↔
    busyLength a = true ∧ busyLength x = true ∧ busyLength b = true ∧ busyLength y = true ∧ busyLength c = true := by
  have hone := periodsAfter_le 0 0 a
  have htwo := (periodsOfTwo_lt a x b).2
  rw [periodsAfter_eq_succ (k := 2) (by omega), periodsOfTwo, periodsAfter_eq_succ (k := 1) (by omega),
    periodsAfter_eq_succ (k := 0) (Nat.le_refl 0)]
  simp
  tauto

/-! ### When the detector listens -/

theorem Line.inWait_iff (l : Line) :
    l.inWait = true ↔ l.state = .dialing ∧ ∃ c, l.call = some c ∧ c.dial[c.dialPos]? = some .wait := by
  cases hcall : l.call with
  | none => simp [Line.inWait, hcall]
  | some c => simp [Line.inWait, hcall, Call.symbol]

theorem Line.listens_iff (l : Line) : l.listens = true ↔ l.state = .dialtone ∨ l.state = .ringback ∨
    (l.state = .dialing ∧ ∃ c, l.call = some c ∧ c.dial[c.dialPos]? = some .wait) ∨
    (l.state = .linked ∧ ∃ c, l.call = some c ∧ c.phase ≠ .sending ∧ c.phase ≠ .ending) := by
  rw [← l.inWait_iff]
  cases hstate : l.state with
  | dialtone | ringback | disabled | idle | office | fault | breaking | release | dialing =>
    simp [Line.listens, Line.inWait, hstate]
  | linked => simp [Line.listens, Line.inWait, hstate, Option.any_eq_true]

theorem Line.tick_deaf {l : Line} (h : l.listens = false) : l.tick.1.detector = Detector.empty ∧ l.tick.2 = [] := by
  unfold Line.tick
  dsimp only
  rw [h]
  exact ⟨rfl, rfl⟩

/-! ### A frequency in no band -/

/-- A part that never makes a token in a silence makes none in one of any length. -/
theorem runs_count_zero {σ : Type} {step : Bool → σ → σ × Option Token} {t : Token} (h : ∀ s, (step false s).2 ≠ some t)
    (s : σ) (n : Nat) : (runs step s (List.replicate n false)).2.count t = 0 := by
  induction n generalizing s with
  | zero => rfl
  | succ n ih =>
    rw [List.replicate_succ, runs, List.count_append, count_of_ne (h s), ih]

/-- A frequency of no band is heard as a silence. -/
theorem heard_silence {f n : Nat} {t : Token} (ht : t ≠ .readyStopped) (hlow : inLowBand f = false) (hready : inReadyBand f = false)
    (hburst : inBurstBand f = false) : heard t [(f, n)] = 0 := by
  cases t with
  | readyStopped => exact absurd rfl ht
  | dialTone =>
    rw [heard_low (.inl rfl), ← msOf, msOf_cons, hlow, msOf_nil, List.append_nil]
    exact congrArg (·.2.count Token.dialTone) (lowRuns_quiet 0 0 n)
  | busy =>
    rw [heard_low (.inr rfl), ← msOf, msOf_cons, hlow, msOf_nil, List.append_nil]
    exact congrArg (·.2.count Token.busy) (lowRuns_quiet 0 0 n)
  | ready =>
    rw [heard_ready, ← msOf, msOf_cons, hready, msOf_nil, List.append_nil]
    exact runs_count_zero (fun d => ite_some_ne (by decide)) Detector.empty n
  | ack =>
    rw [heard_burst (.inl rfl), ← msOf, msOf_cons, hburst, msOf_nil, List.append_nil]
    exact congrArg (·.2.count Token.ack) (burstRuns_quiet n)
  | repeatToken =>
    rw [heard_burst (.inr rfl), ← msOf, msOf_cons, hburst, msOf_nil, List.append_nil]
    exact congrArg (·.2.count Token.repeatToken) (burstRuns_quiet n)

/-! ### The tokens heard -/

theorem heard_dialTone {f : Nat} (hf : inLowBand f = true) (n : Nat) : heard .dialTone [(f, n)] = if 700 ≤ n then 1 else 0 := by
  rw [heard_low (.inl rfl), ← msOf, msOf_cons, hf, msOf_nil, List.append_nil]
  by_cases hn : n = 0
  · subst hn
    rfl
  · refine (congrArg (·.2.count Token.dialTone) (lowRuns_tone (Nat.pos_of_ne_zero hn) 0 0)).trans ?_
    dsimp only
    by_cases hlong : 700 ≤ n <;> simp [hlong]

theorem heard_ready_of {f : Nat} (hf : inReadyBand f = true) (n : Nat) : heard .ready [(f, n)] = if 400 ≤ n then 1 else 0 := by
  rw [heard_ready, ← msOf, msOf_cons, hf, msOf_nil, List.append_nil]
  refine (congrArg (·.2.count Token.ready) (readyRuns_on n)).trans ?_
  split <;> rfl

/-- BUSY: three tones and the silences between them, all of 150 to 650 ms, at the end of the third (R111). -/
theorem heard_busy {f a x b y c : Nat} (hf : inLowBand f = true) (ha : 1 ≤ a) (hx : 1 ≤ x) (hb : 1 ≤ b) (hy : 1 ≤ y) (hc : 1 ≤ c) :
    heard .busy [(f, a), (0, x), (f, b), (0, y), (f, c)] = 0 ∧
    heard .busy [(f, a), (0, x), (f, b), (0, y), (f, c), (0, 1)] =
      if busyLength a = true ∧ busyLength x = true ∧ busyLength b = true ∧ busyLength y = true ∧ busyLength c = true
      then 1 else 0 := by
  obtain ⟨hopen, hend⟩ := busy_count ha hx hb hy hc
  rw [heard_low (.inr rfl), heard_low (.inr rfl), ← msOf, ← msOf]
  simp only [msOf_cons, msOf_nil, hf, inLowBand_zero, List.append_nil, ← periods_three_iff]
  simp only [List.append_assoc] at hopen hend
  exact ⟨hopen, hend⟩

/-- Settles O9: each band is measured by a part of the detector of its own, so every clause is a run of one part over
segments of tone and silence. -/
theorem tonesAreRecognisedByTheirLengths : Obligations.TonesAreRecognisedByTheirLengths := by
  unfold Obligations.TonesAreRecognisedByTheirLengths
  have hburst (t : Token) (ht : t = .ack ∨ t = .repeatToken) (tones : List (Nat × Nat)) :
      heard t tones = (burstRuns .quiet (msOf inBurstBand tones)).2.count t := heard_burst ht tones
  refine ⟨fun f n hf hf' => heard_dialTone (inLowBand_of hf hf') n, fun f a x b y c hf hf' ha hx hb hy hc => ?_,
    fun f n hf hf' => heard_ready_of (inReadyBand_of hf hf') n, fun f n m hf hf' => ?_,
    fun f n x k y hf hf' hn hn' hx hk hk' hy hsum => ?_, fun f a m b hf hf' ha hm hb => ⟨?_, fun hlt hb' z => ?_⟩,
    fun f n t ht hlow hready hburst => heard_silence ht hlow hready hburst,
    fun l => ⟨l.listens_iff, Line.tick_deaf⟩⟩
  · obtain ⟨hopen, hend⟩ := heard_busy (inLowBand_of hf hf') ha hx hb hy hc
    simp only [busyLength_iff] at hend
    exact ⟨hopen, fun ha hx hb hy hc => hend.trans (if_pos ⟨ha, hx, hb, hy, hc⟩), fun hnot => hend.trans (if_neg hnot)⟩
  · rw [hburst _ (.inl rfl), msOf_cons, msOf_cons, inBurstBand_of hf hf', inBurstBand_zero, msOf_nil, List.append_nil]
    exact ack_count n m
  · have hone := congrArg (List.count Token.ack) (ack_interrupted hn hn' hx hk hk' hy hsum)
    rw [hburst _ (.inl rfl)]
    simp only [msOf_cons, msOf_nil, inBurstBand_of hf hf', inBurstBand_zero, List.append_nil]
    simp only [List.append_assoc] at hone
    exact hone
  · have hcount := repeat_count ha hm hb
    rw [hburst _ (.inr rfl)]
    simpa only [msOf_cons, msOf_nil, inBurstBand_of hf hf', inBurstBand_zero, List.append_nil, List.append_assoc] using hcount
  · obtain ⟨hopen, hend⟩ := noAck_second ha hm hlt hb'
    have hnone := congrArg (List.count Token.ack) hopen
    rw [hburst _ (.inl rfl), hburst _ (.inl rfl)]
    simp only [msOf_cons, msOf_nil, inBurstBand_of hf hf', inBurstBand_zero, List.append_nil]
    simp only [List.append_assoc] at hnone hend
    exact ⟨hnone, fun hb'' => hend hb'' z⟩

end Sys2Proof.Machine
end

section
/-! PROOFS. One ms of time: what the timers count to, and the steps then due (log 5). -/

namespace Sys2Proof.Machine

/-! ### Conditions on a running count -/

@[simp] theorem mem_onlyIf {b : Bool} {c d : Instr} : c ∈ (onlyIf b d).toList ↔ b = true ∧ c = d := by
  cases b <;> simp [onlyIf]

theorem onlyIf_eq_some {b : Bool} {c d : Instr} : onlyIf b d = some c ↔ b = true ∧ c = d := by
  cases b <;> simp [onlyIf, eq_comm]

theorem reached_iff (count : Option Nat) (len : Nat) : reached count len = true ↔ ∃ k, count = some k ∧ len ≤ k := by
  cases count <;> simp [reached]

/-- A count that has gone on by one ms. -/
theorem reached_succ (count : Option Nat) (len : Nat) :
    reached (count.map (· + 1)) len = true ↔ ∃ k, count = some k ∧ len ≤ k + 1 := by
  cases count <;> simp [reached]

/-! ### The steps due on a line -/

/-- The line of a step that can be due on a line after a ms. -/
def dueLine : Instr → Option LineNo
  | .dialTone n | .busy n | .ready n | .ack n | .repeatToken n | .readyToneStopped n | .farClear n | .loopLossExpiry n
  | .presenceTimerExpiry n | .officeUseBegins n | .officeUseEnds n | .breakExpiry n | .dialToneWaitExpiry n
  | .waitSymbolExpiry n | .dialSymbolEnd n | .ringbackExpiry n | .handshakeExpiry n | .turnaroundEnd n
  | .burstSendingEnd n | .windowExpiry n | .endSymbolEnd n | .releaseGuardEnd n => some n
  | _ => none

/-- The step is called for by a token. -/
def isTokenStep : Instr → Bool
  | .dialTone _ | .busy _ | .ready _ | .ack _ | .repeatToken _ => true
  | _ => false

theorem Line.onToken_step {n : LineNo} {l : Line} {t : Token} {c : Instr} (h : l.onToken n t = some c) :
    isTokenStep c = true ∧ dueLine c = some n := by
  unfold Line.onToken at h
  split at h
  case h_5 | h_6 =>
    split at h
    · cases h
      exact ⟨rfl, rfl⟩
    · cases h
  case h_7 => cases h
  all_goals
    cases h
    exact ⟨rfl, rfl⟩

/-- The line is in a phase of a call that has reached its receiver (06 section 6.1). -/
def Line.inPhase (ph : Phase) (l : Line) : Prop := l.state = .linked ∧ ∃ c, l.call = some c ∧ c.phase = ph

/-- The step the end of an interval calls for, by what the line is in. -/
theorem Line.onTimer_eq_some_iff {n : LineNo} {l : Line} {c : Instr} : l.onTimer n = some c ↔
    (c = .breakExpiry n ∧ l.state = .breaking) ∨ (c = .dialToneWaitExpiry n ∧ l.state = .dialtone) ∨
    (c = .waitSymbolExpiry n ∧ l.state = .dialing ∧ l.inWait = true) ∨
    (c = .dialSymbolEnd n ∧ l.state = .dialing ∧ l.inWait = false) ∨
    (c = .ringbackExpiry n ∧ l.state = .ringback) ∨ (c = .handshakeExpiry n ∧ l.inPhase .handshake) ∨
    (c = .turnaroundEnd n ∧ l.inPhase .turnaround) ∨ (c = .burstSendingEnd n ∧ l.inPhase .sending) ∨
    (c = .windowExpiry n ∧ l.inPhase .window ∧ l.detector.burst.measuring = false) ∨
    (c = .endSymbolEnd n ∧ l.inPhase .ending) ∨ (c = .releaseGuardEnd n ∧ l.state = .release) := by
  cases hstate : l.state with
  | disabled | idle | office | fault | breaking | dialtone | ringback | release =>
    simp [Line.onTimer, Line.inPhase, hstate, @eq_comm _ c]
  | dialing => cases hwait : l.inWait <;> simp [Line.onTimer, Line.inPhase, hstate, hwait, @eq_comm _ c]
  | linked =>
    cases hcall : l.call with
    | none => simp [Line.onTimer, Line.inPhase, hstate, hcall]
    | some m =>
      cases hphase : m.phase with
      | none | handshake | turnaround | sending | ending =>
        simp [Line.onTimer, Line.inPhase, hstate, hcall, hphase, @eq_comm _ c]
      | window =>
        cases hburst : l.detector.burst.measuring <;>
          simp [Line.onTimer, Line.inPhase, hstate, hcall, hphase, hburst, @eq_comm _ c]

/-- The steps due on a line, by the part of the list each stands in. -/
theorem Line.mem_due {n : LineNo} {l : Line} {tokens : List Token} {c : Instr} : c ∈ Line.due n l tokens ↔
    (∃ t ∈ tokens, l.onToken n t = some c) ∨
    ((l.call.any (·.phase = .handshake) && l.readyStopped) = true ∧ c = .readyToneStopped n) ∨
    ((l.state.offHook && reached l.currentLoss 300) = true ∧ c = .farClear n) ∨
    ((!l.state.offHook && !l.lossExpired && reached l.loopLoss 10000) = true ∧ c = .loopLossExpiry n) ∨
    (l.timeUp = true ∧ l.onTimer n = some c) ∨
    ((reached l.presence 10000 && l.loopSense) = true ∧ c = .presenceTimerExpiry n) ∨
    ((decide (l.state = .idle) && reached l.debounce 200) = true ∧ c = .officeUseBegins n) ∨
    ((decide (l.state = .office) && reached l.debounce 500) = true ∧ c = .officeUseEnds n) := by
  have hfirst : (firstOf [onlyIf (l.call.any (·.phase = .handshake) && l.readyStopped) (.readyToneStopped n)]).toList =
      (onlyIf (l.call.any (·.phase = .handshake) && l.readyStopped) (.readyToneStopped n)).toList := by
    cases (onlyIf (l.call.any (·.phase = .handshake) && l.readyStopped) (.readyToneStopped n)) <;> rfl
  have htimer : c ∈ (if l.timeUp then (l.onTimer n).toList else []) ↔ l.timeUp = true ∧ l.onTimer n = some c := by
    cases l.timeUp <;> simp
  unfold Line.due
  rw [hfirst]
  simp only [List.mem_append, List.mem_filterMap, mem_onlyIf, htimer, or_assoc]

theorem Line.due_dueLine {n : LineNo} {l : Line} {tokens : List Token} {c : Instr} (h : c ∈ Line.due n l tokens) :
    dueLine c = some n := by
  rcases Line.mem_due.mp h with ⟨t, -, ht⟩ | ⟨-, rfl⟩ | ⟨-, rfl⟩ | ⟨-, rfl⟩ | ⟨-, ht⟩ | ⟨-, rfl⟩ | ⟨-, rfl⟩ | ⟨-, rfl⟩
  · exact (Line.onToken_step ht).2
  · rfl
  · rfl
  · rfl
  · rcases Line.onTimer_eq_some_iff.mp ht with ⟨rfl, -⟩ | ⟨rfl, -⟩ | ⟨rfl, -⟩ | ⟨rfl, -⟩ | ⟨rfl, -⟩ | ⟨rfl, -⟩ | ⟨rfl, -⟩ |
      ⟨rfl, -⟩ | ⟨rfl, -⟩ | ⟨rfl, -⟩ | ⟨rfl, -⟩ <;> rfl
  · rfl
  · rfl
  · rfl

/-! ### The steps due in the part -/

theorem TimeBase.mem_due {t : TimeBase} {c : Instr} : c ∈ t.due ↔
    (1000 ≤ t.elapsedMs ∧ c = .clockSecond) ∨ (reached t.mainsTimer 60000 = true ∧ c = .mainsTimerExpiry) := by
  unfold TimeBase.due
  simp only [List.mem_append, mem_onlyIf, decide_eq_true_eq]

theorem Queue.mem_due {q : Queue} {c : Instr} : c ∈ q.due ↔ ∃ r ∈ q.records,
    (r.state = .waiting ∧ (∃ x, r.retry = some x ∧ x ≤ q.clock) ∧ c = .retryTimePassed r.slot) ∨
    (r.state = .held ∧ (∃ x, r.holdUntil = some x ∧ x ≤ q.clock) ∧ c = .holdExpiry r.slot) := by
  unfold Queue.due
  rw [List.mem_filterMap]
  refine exists_congr fun r => and_congr_right fun _ => ?_
  cases hstate : r.state <;> simp [onlyIf_eq_some, Option.any_eq_true]

/-- The steps due in a part that works, by the part of the list each stands in. -/
theorem Part.mem_dueLive {p q : Part} {c : Instr} : c ∈ Part.dueLive p q ↔ c ∈ q.time.due ∨
    (∃ n : LineNo, c ∈ Line.due n (q.line n) ((p.line n).tick).2) ∨ c ∈ q.queue.due ∨
    (q.mode.serving = true ∧ reached q.heartbeat.timer (1000 * q.heartbeatPeriod) = true ∧ c = .heartbeatExpiry) ∨
    (q.notice.trouble = .pulsed ∧ 1000 ≤ q.notice.pulseMs ∧ c = .troublePulseToggle) := by
  unfold Part.dueLive
  simp only [List.mem_append, List.mem_flatMap, List.mem_finRange, true_and, mem_onlyIf, decide_eq_true_eq,
    Bool.and_eq_true, or_assoc, and_assoc]
  rfl

/-- A step of a line is due where it is due on that line. -/
theorem Part.mem_dueLive_line {p q : Part} {n : LineNo} {c : Instr} (h : dueLine c = some n) :
    c ∈ Part.dueLive p q ↔ c ∈ Line.due n (q.line n) ((p.line n).tick).2 := by
  rw [Part.mem_dueLive, TimeBase.mem_due, Queue.mem_due]
  constructor
  · rintro ((⟨-, rfl⟩ | ⟨-, rfl⟩) | ⟨m, hm⟩ | ⟨r, -, ⟨-, -, rfl⟩ | ⟨-, -, rfl⟩⟩ | ⟨-, -, rfl⟩ | ⟨-, -, rfl⟩)
    case inr.inl =>
      cases h.symm.trans (Line.due_dueLine hm)
      exact hm
    all_goals cases h
  · exact fun hdue => .inr (.inl ⟨n, hdue⟩)

/-- A step of no line is due where the time base, the queue, the heartbeat or the trouble pattern has it due. -/
theorem Part.mem_dueLive_other {p q : Part} {c : Instr} (h : dueLine c = none) : c ∈ Part.dueLive p q ↔ c ∈ q.time.due ∨
    c ∈ q.queue.due ∨
    (q.mode.serving = true ∧ reached q.heartbeat.timer (1000 * q.heartbeatPeriod) = true ∧ c = .heartbeatExpiry) ∨
    (q.notice.trouble = .pulsed ∧ 1000 ≤ q.notice.pulseMs ∧ c = .troublePulseToggle) := by
  have hno : ¬ ∃ n : LineNo, c ∈ Line.due n (q.line n) ((p.line n).tick).2 := fun ⟨n, hn⟩ => by
    cases h.symm.trans (Line.due_dueLine hn)
  rw [Part.mem_dueLive]
  simp only [hno, false_or]

end Sys2Proof.Machine
end

section
/-! PROOFS. What a step does when no command waits (R11, log 5). -/

namespace Sys2Proof.Machine

/-! ### One ms of a line -/

theorem Line.tick_timeUp (l : Line) : l.tick.1.timeUp = true ↔ ∃ k, l.timer = some k ∧ k ≤ 1 := by
  have htimer : l.tick.1.timer = l.timer.map (· - 1) := rfl
  unfold Line.timeUp
  rw [htimer]
  cases l.timer with
  | none => simp
  | some k =>
    simp
    omega

theorem Line.tick_presence (l : Line) : (reached l.tick.1.presence 10000 && l.tick.1.loopSense) = true ↔
    l.loopSense = true ∧ ∃ k, l.presence = some k ∧ 10000 ≤ k + 1 := by
  have hsense : l.tick.1.loopSense = l.loopSense := rfl
  have hpresence : l.tick.1.presence = if l.loopSense then l.presence.map (· + 1) else l.presence := rfl
  rw [Bool.and_eq_true, hsense, hpresence]
  cases hloop : l.loopSense with
  | false => simp
  | true => simp [reached_succ]

/-- A step that no token and no timer calls for is due under the condition of its own place in the list. -/
theorem Line.mem_due_own {n : LineNo} {l : Line} {tokens : List Token} {c : Instr} (htoken : isTokenStep c = false)
    (htimer : l.onTimer n ≠ some c) : c ∈ Line.due n l tokens ↔
    ((l.call.any (·.phase = .handshake) && l.readyStopped) = true ∧ c = .readyToneStopped n) ∨
    ((l.state.offHook && reached l.currentLoss 300) = true ∧ c = .farClear n) ∨
    ((!l.state.offHook && !l.lossExpired && reached l.loopLoss 10000) = true ∧ c = .loopLossExpiry n) ∨
    ((reached l.presence 10000 && l.loopSense) = true ∧ c = .presenceTimerExpiry n) ∨
    ((decide (l.state = .idle) && reached l.debounce 200) = true ∧ c = .officeUseBegins n) ∨
    ((decide (l.state = .office) && reached l.debounce 500) = true ∧ c = .officeUseEnds n) := by
  have hno : ¬ ∃ t ∈ tokens, l.onToken n t = some c := fun ⟨t, _, ht⟩ => by
    cases htoken.symm.trans (Line.onToken_step ht).1
  rw [Line.mem_due]
  simp only [hno, htimer, and_false, false_or]

/-- The step ends the interval that a line's timer measures. -/
def isTimerStep : Instr → Bool
  | .breakExpiry _ | .dialToneWaitExpiry _ | .waitSymbolExpiry _ | .dialSymbolEnd _ | .ringbackExpiry _ | .handshakeExpiry _
  | .turnaroundEnd _ | .burstSendingEnd _ | .windowExpiry _ | .endSymbolEnd _ | .releaseGuardEnd _ => true
  | _ => false

theorem isTimerStep_token {c : Instr} (h : isTimerStep c = true) : isTokenStep c = false := by
  unfold isTimerStep at h
  split at h
  case h_12 => cases h
  all_goals rfl

/-- A step that ends an interval is due when the interval has passed. -/
theorem Line.mem_due_timer {n : LineNo} {l : Line} {tokens : List Token} {c : Instr} (hc : isTimerStep c = true) :
    c ∈ Line.due n l.tick.1 tokens ↔ l.tick.1.onTimer n = some c ∧ ∃ k, l.timer = some k ∧ k ≤ 1 := by
  have hno : ¬ ∃ t ∈ tokens, l.tick.1.onToken n t = some c := fun ⟨t, _, ht⟩ => by
    cases (isTimerStep_token hc).symm.trans (Line.onToken_step ht).1
  have hne {d : Instr} (hd : isTimerStep d = false) : c ≠ d := fun h => by
    rw [h, hd] at hc
    cases hc
  rw [Line.mem_due, Line.tick_timeUp]
  simp only [hno, hne (d := .readyToneStopped n) rfl, hne (d := .farClear n) rfl, hne (d := .loopLossExpiry n) rfl,
    hne (d := .presenceTimerExpiry n) rfl, hne (d := .officeUseBegins n) rfl, hne (d := .officeUseEnds n) rfl, and_false,
    false_or, or_false]
  exact and_comm

section
variable (n : LineNo) (l : Line) (tokens : List Token)

theorem Line.officeUseBegins_due : .officeUseBegins n ∈ Line.due n l.tick.1 tokens ↔
    l.state = .idle ∧ ∃ k, l.debounce = some k ∧ 200 ≤ k + 1 := by
  rw [Line.mem_due_own rfl (by simp [Line.onTimer_eq_some_iff]), ← reached_succ]
  simp only [Bool.and_eq_true, decide_eq_true_eq]
  simp [Line.tick]

theorem Line.officeUseEnds_due : .officeUseEnds n ∈ Line.due n l.tick.1 tokens ↔
    l.state = .office ∧ ∃ k, l.debounce = some k ∧ 500 ≤ k + 1 := by
  rw [Line.mem_due_own rfl (by simp [Line.onTimer_eq_some_iff]), ← reached_succ]
  simp only [Bool.and_eq_true, decide_eq_true_eq]
  simp [Line.tick]

theorem Line.loopLossExpiry_due : .loopLossExpiry n ∈ Line.due n l.tick.1 tokens ↔
    l.state.offHook = false ∧ l.lossExpired = false ∧ ∃ k, l.loopLoss = some k ∧ 10000 ≤ k + 1 := by
  rw [Line.mem_due_own rfl (by simp [Line.onTimer_eq_some_iff]), ← reached_succ]
  simp [Line.tick, and_assoc]

theorem Line.presenceTimerExpiry_due : .presenceTimerExpiry n ∈ Line.due n l.tick.1 tokens ↔
    l.loopSense = true ∧ ∃ k, l.presence = some k ∧ 10000 ≤ k + 1 := by
  rw [Line.mem_due_own rfl (by simp [Line.onTimer_eq_some_iff]), Line.tick_presence]
  simp

theorem Line.farClear_due : .farClear n ∈ Line.due n l.tick.1 tokens ↔
    l.state.offHook = true ∧ ∃ k, l.currentLoss = some k ∧ 300 ≤ k + 1 := by
  rw [Line.mem_due_own rfl (by simp [Line.onTimer_eq_some_iff]), ← reached_succ]
  simp [Line.tick]

theorem Line.readyToneStopped_due : .readyToneStopped n ∈ Line.due n l.tick.1 tokens ↔
    (∃ c, l.call = some c ∧ c.phase = .handshake) ∧ 50 ≤ l.tick.1.detector.readySilence := by
  have hcall : l.tick.1.call = l.call := rfl
  rw [Line.mem_due_own rfl (by simp [Line.onTimer_eq_some_iff]), hcall]
  simp [Line.readyStopped, Option.any_eq_true]

end

section
variable (n : LineNo) (l : Line) (tokens : List Token)

/-- The end of an interval in a state of the line. -/
theorem Line.onTimer_tick_state :
    (l.tick.1.onTimer n = some (.breakExpiry n) ↔ l.state = .breaking) ∧
    (l.tick.1.onTimer n = some (.dialToneWaitExpiry n) ↔ l.state = .dialtone) ∧
    (l.tick.1.onTimer n = some (.ringbackExpiry n) ↔ l.state = .ringback) ∧
    (l.tick.1.onTimer n = some (.releaseGuardEnd n) ↔ l.state = .release) ∧
    (l.tick.1.onTimer n = some (.waitSymbolExpiry n) ↔ l.state = .dialing ∧ l.inWait = true) ∧
    (l.tick.1.onTimer n = some (.dialSymbolEnd n) ↔ l.state = .dialing ∧ l.inWait = false) := by
  have hstate : l.tick.1.state = l.state := rfl
  have hwait : l.tick.1.inWait = l.inWait := rfl
  simp [Line.onTimer_eq_some_iff, hstate, hwait]

/-- The end of an interval in a phase of a call. -/
theorem Line.onTimer_tick_phase :
    (l.tick.1.onTimer n = some (.handshakeExpiry n) ↔ l.inPhase .handshake) ∧
    (l.tick.1.onTimer n = some (.turnaroundEnd n) ↔ l.inPhase .turnaround) ∧
    (l.tick.1.onTimer n = some (.burstSendingEnd n) ↔ l.inPhase .sending) ∧
    (l.tick.1.onTimer n = some (.windowExpiry n) ↔ l.inPhase .window ∧ l.tick.1.detector.burst.measuring = false) ∧
    (l.tick.1.onTimer n = some (.endSymbolEnd n) ↔ l.inPhase .ending) := by
  have hphase (ph : Phase) : l.tick.1.inPhase ph ↔ l.inPhase ph := Iff.rfl
  simp [Line.onTimer_eq_some_iff, hphase]

end

/-! ### One ms of the part -/

/-- A part that works and has no step of its own to take lets one ms pass. -/
theorem step_live {s : State} (hpending : s.pending = []) (hlive : s.part.mode.live = true) (hown : s.nextOwn = none) :
    step s = .next { s with part := s.part.tickLive, pending := Part.dueLive s.part s.part.tickLive } := by
  have htick : s.tick = { s with part := s.part.tickLive, pending := Part.dueLive s.part s.part.tickLive } := by
    unfold State.tick
    split
    case h_1 h | h_2 h | h_3 h => simp [h, Mode.live] at hlive
    all_goals rfl
  unfold step
  rw [hpending]
  unfold State.idle
  rw [hown]
  exact congrArg Host.Outcome.next htick

theorem Queue.tick_eq (q : Queue) : q.tick = { q with
    clock := if q.clockMs + 1 < 1000 then q.clock else q.clock + 1
    clockMs := if q.clockMs + 1 < 1000 then q.clockMs + 1 else 0 } := by
  unfold Queue.tick
  by_cases h : q.clockMs + 1 < 1000
  · rw [if_pos h, if_pos h, if_pos h]
  · rw [if_neg h, if_neg h, if_neg h]

theorem Part.tickLive_keepsBut (p : Part) : p.keepsBut [.time, .queue, .lines, .heartbeat, .notice] p.tickLive := by
  intro b hb
  cases b <;> simp [Block.same, Part.tickLive] at hb ⊢

/-- The steps of no line that are due after a ms. -/
theorem Part.due_other (p : Part) :
    (.clockSecond ∈ Part.dueLive p p.tickLive ↔ 1000 ≤ p.time.elapsedMs + 1) ∧
    (.mainsTimerExpiry ∈ Part.dueLive p p.tickLive ↔ ∃ k, p.time.mainsTimer = some k ∧ 60000 ≤ k + 1) ∧
    (.heartbeatExpiry ∈ Part.dueLive p p.tickLive ↔ p.mode.serving = true ∧
      ∃ k, p.heartbeat.timer = some k ∧ 1000 * p.heartbeatPeriod ≤ k + 1) ∧
    (.troublePulseToggle ∈ Part.dueLive p p.tickLive ↔ p.notice.trouble = .pulsed ∧ 1000 ≤ p.notice.pulseMs + 1) ∧
    (∀ k, .retryTimePassed k ∈ Part.dueLive p p.tickLive ↔ ∃ r ∈ p.queue.records, r.slot = k ∧ r.state = .waiting ∧
      ∃ x, r.retry = some x ∧ x ≤ p.tickLive.queue.clock) ∧
    (∀ k, .holdExpiry k ∈ Part.dueLive p p.tickLive ↔ ∃ r ∈ p.queue.records, r.slot = k ∧ r.state = .held ∧
      ∃ x, r.holdUntil = some x ∧ x ≤ p.tickLive.queue.clock) := by
  have helapsed : p.tickLive.time.elapsedMs = p.time.elapsedMs + 1 := rfl
  have hmains : p.tickLive.time.mainsTimer = p.time.mainsTimer.map (· + 1) := rfl
  have hmode : p.tickLive.mode = p.mode := rfl
  have hbeat : p.tickLive.heartbeat.timer = p.heartbeat.timer.map (· + 1) := rfl
  have hperiod : p.tickLive.heartbeatPeriod = p.heartbeatPeriod := rfl
  have hrecords : p.tickLive.queue.records = p.queue.records := p.queue.tick_records
  have hpattern : p.tickLive.notice.trouble = p.notice.trouble := rfl
  have hpulse : p.tickLive.notice.pulseMs = if p.notice.trouble = .pulsed then p.notice.pulseMs + 1 else p.notice.pulseMs := rfl
  refine ⟨?_, ?_, ?_, ?_, fun k => ?_, fun k => ?_⟩ <;>
    rw [Part.mem_dueLive_other rfl, TimeBase.mem_due, Queue.mem_due]
  · simp [helapsed]
  · simp [hmains, reached_succ]
  · simp [hmode, hbeat, hperiod, reached_succ]
  · rw [hpattern, hpulse]
    by_cases h : p.notice.trouble = .pulsed <;> simp [h]
  · simp [hrecords, @eq_comm _ k, and_comm, and_left_comm]
  · simp [hrecords, @eq_comm _ k, and_comm, and_left_comm]

end Sys2Proof.Machine
end

section
/-! PROOFS. The order of the inserted cycles, and the lengths of the times (R11, log 5). -/

namespace Sys2Proof.Machine

/-! ### The order of the inserted cycles -/

theorem Mode.not_serving {m : Mode} (h : m.live = false) : m.serving = false := by
  cases m with
  | off | xrst | bypass => rfl
  | loading | unconfigured | stopped | running => cases h

/-- A part that does not work takes no step of its own. -/
theorem State.nextOwn_dead {s : State} (h : s.part.mode.live = false) : s.nextOwn = none := by
  simp [State.nextOwn, firstOf, onlyIf, Part.nextWork, Part.nextOffer, State.nextInserted, h, Mode.not_serving h]

/-- Nothing waits before the inserted cycles: no admission, no hold, no drain, no work of the Point Engine and no offer. -/
structure Part.insertsNext (p : Part) : Prop where
  wbWait : p.bus.wbWait = []
  logWait : p.bus.logWait = []
  hold : p.bus.hold = none
  drain : p.bus.drain = none
  work : p.engineIdle
  fifo : p.points.fifo = []
  offers : ∀ n : LineNo, p.arbiter.offers[n] = none
  decision : p.arbiter.decisionPending = false

theorem step_inserted {s : State} {c : Instr} (hpending : s.pending = []) (hidle : s.part.insertsNext)
    (h : s.nextInserted = some c) : step s = .next { s with pending := [c] } := by
  obtain ⟨hwbWait, hlogWait, hhold, hdrain, ⟨-, hwork⟩, hfifo, hoffers, hdecision⟩ := hidle
  have hadmit : s.part.bus.canAdmit = false := by simp [Bus.canAdmit, hwbWait]
  have hstage : s.part.bus.canStage = false := by simp [Bus.canStage, hlogWait]
  have hheld : s.part.canEndHold = false := by simp [Part.canEndHold, hhold]
  have hdrained : s.part.bus.drained = false := by simp [Bus.drained, hdrain]
  have hnextWork : s.part.nextWork = none := by simp [Part.nextWork, hwork, hfifo]
  have hnextOffer : s.part.nextOffer = none := by simp [Part.nextOffer, hoffers]
  have hnext : s.nextOwn = some c := by
    simp [State.nextOwn, firstOf, onlyIf, hadmit, hstage, hheld, hdrained, hnextWork, hnextOffer, hdecision, h]
  unfold step
  rw [hpending]
  unfold State.idle
  rw [hnext]

section
variable {s : State} (hlive : s.part.mode.live = true) (hdrain : s.part.bus.drain = none)
include hlive hdrain

theorem State.nextInserted_staging (h : s.part.bus.staging ≠ []) : s.nextInserted = some .logStagingWrite := by
  simp [State.nextInserted, Bus.mayStage, hlive, hdrain, h]

theorem State.nextInserted_wbq (hstaging : s.part.bus.staging = []) (h : s.part.bus.wbq ≠ []) :
    s.nextInserted = some .writeBack := by
  simp [State.nextInserted, Bus.mayBack, Bus.nextBack, hlive, hdrain, hstaging, h]

/-- No inserted write is left to make: the next cycle is a read, of LOAD, of RELOAD or of SET_TIME. -/
theorem State.nextInserted_reads (hstaging : s.part.bus.staging = []) (hwbq : s.part.bus.wbq = []) : s.nextInserted =
    if s.part.mode = .loading ∧ s.part.mirrors.load.isSome then some .loadRead
    else if s.canReload then some .reloadRead
    else if s.part.mode = .unconfigured ∧ s.part.mirrors.timeReads.isSome then some .setTimeRead
    else none := by
  simp [State.nextInserted, Bus.nextBack, Bus.mayRead, hlive, hdrain, hstaging, hwbq]

end

/-- The order of R11. -/
theorem step_insertedOrder {s : State} (hpending : s.pending = []) (hlive : s.part.mode.live = true)
    (hidle : s.part.insertsNext) :
    (s.part.bus.staging ≠ [] → step s = .next { s with pending := [.logStagingWrite] }) ∧
    (s.part.bus.staging = [] → s.part.bus.wbq ≠ [] → step s = .next { s with pending := [.writeBack] }) ∧
    (s.part.bus.staging = [] → s.part.bus.wbq = [] →
      (s.part.mode = .loading → s.part.mirrors.load.isSome = true → step s = .next { s with pending := [.loadRead] }) ∧
      (∀ k, s.part.mode.serving = true → s.part.mirrors.reload = some { next := k, waiting := none } →
        step s = .next { s with pending := [.reloadRead] }) ∧
      (s.part.mode = .unconfigured → s.part.mirrors.timeReads.isSome = true →
        step s = .next { s with pending := [.setTimeRead] })) := by
  have hdrain := hidle.drain
  refine ⟨fun h => step_inserted hpending hidle (State.nextInserted_staging hlive hdrain h),
    fun hstaging h => step_inserted hpending hidle (State.nextInserted_wbq hlive hdrain hstaging h),
    fun hstaging hwbq => ⟨fun hmode hload => ?_, fun k hmode hreload => ?_, fun hmode htime => ?_⟩⟩ <;>
    refine step_inserted hpending hidle ((State.nextInserted_reads hlive hdrain hstaging hwbq).trans ?_)
  · exact if_pos ⟨hmode, hload⟩
  · have hloading : s.part.mode ≠ .loading := fun h => by simp [h, Mode.serving] at hmode
    have hcan : s.canReload = true := by simp [State.canReload, hmode, hreload, Bus.mayRead, hstaging, hwbq]
    rw [if_neg fun h => hloading h.1, if_pos hcan]
  · have hcan : s.canReload = false := by simp [State.canReload, hmode, Mode.serving]
    rw [if_neg fun h => (by simp [hmode] at h), hcan, if_neg (by decide), if_pos ⟨hmode, htime⟩]

/-! ### A part that does not work -/

theorem step_dead {s : State} (hpending : s.pending = []) (hlive : s.part.mode.live = false) : step s = .next s.tick := by
  unfold step
  rw [hpending]
  unfold State.idle
  rw [State.nextOwn_dead hlive]

theorem State.tick_timeOnly {s : State} (h : s.part.mode = .xrst ∨ s.part.mode = .bypass) :
    s.tick = { s with part := { s.part with time := s.part.time.tick }, pending := s.part.time.tick.due } := by
  unfold State.tick
  rcases h with h | h <;> rw [h]

theorem State.tick_off {s : State} (h : s.part.mode = .off) : s.tick = s := by
  unfold State.tick
  rw [h]

theorem TimeBase.due_only {t : TimeBase} {c : Instr} (h : c ∈ t.due) : c = .clockSecond ∨ c = .mainsTimerExpiry :=
  (TimeBase.mem_due.mp h).imp And.right And.right

end Sys2Proof.Machine
end

section
/-! PROOFS. What a step does when no command waits (R11, log 5): the obligation. -/

namespace Sys2Proof.Machine

/-- The line dials and stands at a WAIT symbol, or at another one. -/
theorem Line.dialing_symbol (l : Line) :
    (l.state = .dialing ∧ l.inWait = true ↔
      l.state = .dialing ∧ ∃ c, l.call = some c ∧ c.dial[c.dialPos]? = some .wait) ∧
    (l.state = .dialing ∧ l.inWait = false ↔
      l.state = .dialing ∧ ¬ ∃ c, l.call = some c ∧ c.dial[c.dialPos]? = some .wait) := by
  rw [← Bool.not_eq_true, l.inWait_iff]
  constructor
  · exact and_congr_right fun h => and_iff_right h
  · exact and_congr_right fun h => not_congr (and_iff_right h)

/-- Settles O8: the steps that can be taken are tried in the order of R11; when none can, one ms passes, and each due step
stands in one place of the list of those then due. -/
theorem idleStepsKeepTheOrderAndTheTimes : Obligations.IdleStepsKeepTheOrderAndTheTimes := by
  unfold Obligations.IdleStepsKeepTheOrderAndTheTimes
  refine ⟨fun s hpending hlive hwbWait hlogWait hhold hdrain hwork hfifo hoffers hdecision =>
      step_insertedOrder hpending hlive ⟨hwbWait, hlogWait, hhold, hdrain, hwork, hfifo, hoffers, hdecision⟩,
    fun s hpending hlive hown => ⟨_, step_live hpending hlive hown, rfl, rfl, s.part.tickLive_keepsBut, rfl, ?_⟩,
    fun s hpending hmode => ⟨_, step_dead hpending (by rcases hmode with h | h <;> rw [h] <;> rfl), ?_⟩,
    fun s hpending hmode => ?_⟩
  · obtain ⟨hsecond, hmains, hbeat, hpulse, hretry, hhold⟩ := s.part.due_other
    refine ⟨hsecond, hmains, rfl, hbeat, rfl, hpulse, s.part.queue.tick_eq, hretry, hhold, fun n => ?_⟩
    have hline : s.part.tickLive.line n = (s.part.line n).tick.1 := s.part.tickLive_line n
    have hdue {c : Instr} (h : dueLine c = some n) : c ∈ Part.dueLive s.part s.part.tickLive ↔
        c ∈ Line.due n (s.part.line n).tick.1 (s.part.line n).tick.2 := by
      rw [Part.mem_dueLive_line h, hline]
    dsimp only
    rw [hline]
    obtain ⟨hbreak, hdialtone, hringback, hrelease, hwait, hsymbol⟩ := Line.onTimer_tick_state n (s.part.line n)
    obtain ⟨hhandshake, hturn, hsending, hwindow, hending⟩ := Line.onTimer_tick_phase n (s.part.line n)
    obtain ⟨hwaits, hwaitsNot⟩ := (s.part.line n).dialing_symbol
    have htimer {c : Instr} {P : Prop} (hof : dueLine c = some n) (hc : isTimerStep c = true)
        (h : (s.part.line n).tick.1.onTimer n = some c ↔ P) : c ∈ Part.dueLive s.part s.part.tickLive ↔
          P ∧ ∃ k, (s.part.line n).timer = some k ∧ k ≤ 1 := (hdue hof).trans ((Line.mem_due_timer hc).trans (and_congr_left' h))
    refine ⟨rfl, (hdue rfl).trans (Line.officeUseBegins_due n _ _), (hdue rfl).trans (Line.officeUseEnds_due n _ _),
      (hdue rfl).trans (Line.loopLossExpiry_due n _ _), (hdue rfl).trans (Line.presenceTimerExpiry_due n _ _),
      (hdue rfl).trans (Line.farClear_due n _ _), htimer rfl rfl hrelease, htimer rfl rfl hbreak,
      htimer rfl rfl hdialtone, htimer rfl rfl hringback,
      (htimer rfl rfl (hsymbol.trans hwaitsNot)).trans and_assoc,
      (htimer rfl rfl (hwait.trans hwaits)).trans and_assoc,
      (htimer rfl rfl hhandshake).trans and_assoc, (htimer rfl rfl hturn).trans and_assoc,
      (htimer rfl rfl hsending).trans and_assoc, ?_,
      (htimer rfl rfl hending).trans and_assoc, (hdue rfl).trans (Line.readyToneStopped_due n _ _)⟩
    exact (htimer rfl rfl hwindow).trans (and_right_comm.trans (and_congr_left' and_assoc))
  · rw [State.tick_timeOnly hmode]
    exact ⟨rfl, fun c => TimeBase.due_only⟩
  · rw [step_dead hpending (by rw [hmode]; rfl), State.tick_off hmode]

end Sys2Proof.Machine
end
